-- ==== Sys2Proof/Word.lean ====
section
/-! DEFINITION. The word and byte types of the part: registers are 32 bits wide (R10), memory is addressed in bytes. -/

namespace Sys2Proof

/-- A register word or an instruction word. -/
abbrev Word := BitVec 32

/-- One byte of a memory. -/
abbrev Byte := BitVec 8

/-- A voting lane: 0, 1 and 2 are lanes A, B and C (R20). -/
abbrev Lane := Fin 3

/-- A general register g0 to g31 (R62). -/
abbrev GReg := Fin 32

/-- An accumulator a0 to a3 (R62). -/
abbrev AReg := Fin 4

end Sys2Proof
end

