-- ==== Sys2Proof/Config.lean ====
section
/-! DEFINITION. What the manual leaves open: the free values. Each is an opaque constant without a body, applied to a
counter of the state (`State.freeCtr`) that the model advances at every use, so no proof can know what it is. -/

namespace Sys2Proof.Config

/-- A fresh free number, for a value that the manual leaves open (assumption 2). -/
opaque freeNat : Nat → Nat

end Sys2Proof.Config
end

