-- ==== Sys2Proof/Machine/Bits.lean ====
section
/-! DEFINITION. Numbers, bits and sparse maps: field extraction, sign extension (R16), saturation, little-endian bytes,
and the one canonical form of every sparse store of the model (strictly rising keys, no entry equal to the default). -/

namespace Sys2Proof.Machine

/-- A field of a register: the key of its word in `State.regs`, its lowest bit and its width. -/
structure Fld where
  addr  : Nat
  lo    : Nat
  width : Nat
  deriving DecidableEq, Repr

/-- One row of a block's register table: offset, two index dimensions (count and stride), the reset value, the bits that a
commit stores, the bits that are commands (they act and read 0), the bits that exist, and those of sticky fields (RS, R11). -/
structure RegRow where
  off : Nat
  n1  : Nat
  s1  : Nat
  n2  : Nat
  s2  : Nat
  rst : Nat
  st  : Nat
  cmd : Nat
  bits : Nat
  rs  : Nat
  deriving DecidableEq, Repr

/-- Whether a row covers the block offset `o`. -/
def RegRow.covers (r : RegRow) (o : Nat) : Bool :=
  decide (r.off ≤ o) &&
    (let d := o - r.off
     let i := d / r.s1
     let e := d % r.s1
     decide (i < r.n1) && decide (e / r.s2 < r.n2) && decide (e % r.s2 = 0))

/-- Bits `[lo + w - 1 : lo]` of a number. -/
def bitsOf (x lo w : Nat) : Nat := x / 2 ^ lo % 2 ^ w

/-- A number with its bits `[lo + w - 1 : lo]` replaced by those of `v`. -/
def setBits (x lo w v : Nat) : Nat := x - bitsOf x lo w * 2 ^ lo + v % 2 ^ w * 2 ^ lo

/-- The signed reading of the low `w` bits of a number (two's complement). -/
def sgn (w x : Nat) : Int :=
  let y := x % 2 ^ w
  if y < 2 ^ (w - 1) then (y : Int) else (y : Int) - (2 ^ w : Nat)

/-- The low `w` bits of an integer as a number (two's complement). -/
def unsgn (w : Nat) (x : Int) : Nat := (x % ((2 ^ w : Nat) : Int)).toNat

/-- The word that holds an integer modulo 2^32. -/
def wordOfInt (x : Int) : Word := BitVec.ofNat 32 (unsgn 32 x)

/-- Limit of an integer to a closed range. -/
def clampInt (lo hi x : Int) : Int := if x < lo then lo else if hi < x then hi else x

/-- Limit of an integer to the signed range of `w` bits (R66). -/
def satInt (w : Nat) (x : Int) : Int := clampInt (-(2 ^ (w - 1) : Nat)) ((2 ^ (w - 1) : Nat) - 1) x

/-- Limit of a count to a maximum (saturating counters). -/
def satNat (m x : Nat) : Nat := if m < x then m else x

/-- Arithmetic right shift of an integer (truncating toward minus infinity). -/
def asr (x : Int) (n : Nat) : Int := x / ((2 ^ n : Nat) : Int)

/-- Arithmetic right shift with rounding half up. -/
def asrRound (x : Int) (n : Nat) : Int := if n = 0 then x else (x + ((2 ^ (n - 1) : Nat) : Int)) / ((2 ^ n : Nat) : Int)

/-- A bit set as a Boolean. -/
def bitB (x n : Nat) : Bool := x / 2 ^ n % 2 == 1

/-- 1 or 0. -/
def b2n (b : Bool) : Nat := if b then 1 else 0

/-- The number of set bits among the low `n` bits. -/
def popcount : Nat → Nat → Nat
  | 0, _ => 0
  | n + 1, x => x % 2 + popcount n (x / 2)

/-- The integer square root, by `n` halvings of the range. -/
def isqrtGo : Nat → Nat → Nat → Nat → Nat
  | 0, _, lo, _ => lo
  | n + 1, x, lo, hi =>
    if hi ≤ lo + 1 then lo
    else
      let m := (lo + hi) / 2
      if m * m ≤ x then isqrtGo n x m hi else isqrtGo n x lo m

/-- The integer square root of `x` (the greatest number whose square is not above `x`). -/
def isqrt (x : Nat) : Nat := isqrtGo (x.log2 + 3) x 0 (2 ^ (x.log2 / 2 + 1))

/-- Little-endian bytes of a number. -/
def leBytes : Nat → Nat → List Byte
  | 0, _ => []
  | n + 1, x => BitVec.ofNat 8 x :: leBytes n (x / 256)

/-- The number that little-endian bytes spell. -/
def leNat : List Byte → Nat
  | [] => 0
  | b :: bs => b.toNat + 256 * leNat bs

/-- Big-endian bytes of a number. -/
def beBytes (n x : Nat) : List Byte := (leBytes n x).reverse

/-- The number that big-endian bytes spell. -/
def beNat (bs : List Byte) : Nat := bs.foldl (fun a b => a * 256 + b.toNat) 0

/-- A list cut or padded with zero bytes to `n` entries. -/
def padTo (n : Nat) (bs : List Byte) : List Byte := (bs.take n) ++ List.replicate (n - bs.length) 0

/-! ### Sparse maps -/

/-- Reads a sparse map that lists, in strictly rising key order, the entries that differ from the default. -/
def mget {α : Type} (d : Nat → α) : List (Nat × α) → Nat → α
  | [], a => d a
  | (k, v) :: m, a => if k = a then v else mget d m a

/-- A map without the entry of a key. -/
def mdel {α : Type} (m : List (Nat × α)) (a : Nat) : List (Nat × α) := m.filter fun p => p.1 != a

/-- Writes a sparse map, keeping its canonical form. -/
def mput {α : Type} [DecidableEq α] (d : Nat → α) : List (Nat × α) → Nat → α → List (Nat × α)
  | [], a, v => if v = d a then [] else [(a, v)]
  | (k, w) :: m, a, v =>
    if k < a then (k, w) :: mput d m a v
    else if v = d a then mdel ((k, w) :: m) a
    else if k = a then (a, v) :: m else (a, v) :: (k, w) :: m

/-- Every key is above `lo` and rising, and no entry equals its default. -/
def mwfFrom {α : Type} [DecidableEq α] (d : Nat → α) : Option Nat → List (Nat × α) → Bool
  | _, [] => true
  | lo, (k, v) :: m =>
    (match lo with
      | none => true
      | some b => decide (b < k)) && !decide (v = d k) && mwfFrom d (some k) m

/-- The canonical form of a sparse map. -/
def mwf {α : Type} [DecidableEq α] (d : Nat → α) (m : List (Nat × α)) : Bool := mwfFrom d none m

/-- What an unlisted byte of a memory reads as (assumption 3). -/
def zeroByte : Nat → Byte := fun _ => 0

/-- Default 0 of a map of numbers. -/
def zeroNat : Nat → Nat := fun _ => 0

/-- Default 0 of a map of integers. -/
def zeroInt : Nat → Int := fun _ => 0

/-- Default 0 of a map of words. -/
def zeroWord : Nat → Word := fun _ => 0

/-- Reads a byte of a memory. -/
def rdByte (m : List Host.Cell) (a : Nat) : Byte := mget zeroByte m a

/-- Writes a byte of a memory. -/
def wrByte (m : List Host.Cell) (a : Nat) (b : Byte) : List Host.Cell := mput zeroByte m a b

/-- Reads `n` bytes from address `a` on. -/
def rdBytes (m : List Host.Cell) : Nat → Nat → List Byte
  | _, 0 => []
  | a, n + 1 => rdByte m a :: rdBytes m (a + 1) n

/-- The listed cells of bytes laid from address `a` on (zero bytes are not listed). -/
def cellsFrom : Nat → List Byte → List Host.Cell
  | _, [] => []
  | a, b :: bs => if b = 0 then cellsFrom (a + 1) bs else (a, b) :: cellsFrom (a + 1) bs

/-- Writes bytes from address `a` on. -/
def wrBytes (m : List Host.Cell) (a : Nat) (bs : List Byte) : List Host.Cell :=
  m.filter (fun c => decide (c.1 < a)) ++ (cellsFrom a bs ++ m.filter (fun c => decide (a + bs.length ≤ c.1)))

/-- Reads a little-endian quantity of `n` bytes. -/
def rdLE (m : List Host.Cell) (a n : Nat) : Nat := leNat (rdBytes m a n)

/-- Writes a little-endian quantity of `n` bytes. -/
def wrLE (m : List Host.Cell) (a n v : Nat) : List Host.Cell := wrBytes m a (leBytes n v)

/-- The entries of a map from key `a` on, up to but not including `b`. -/
def mrange {α : Type} (m : List (Nat × α)) (a b : Nat) : List (Nat × α) :=
  m.filter fun p => decide (a ≤ p.1) && decide (p.1 < b)

/-- A map without the entries of keys `a` to `b - 1`. -/
def merase {α : Type} (m : List (Nat × α)) (a b : Nat) : List (Nat × α) :=
  m.filter fun p => !(decide (a ≤ p.1) && decide (p.1 < b))

/-- Replaces entry `i` of a list. -/
def lset {α : Type} : List α → Nat → α → List α
  | [], _, _ => []
  | _ :: t, 0, v => v :: t
  | h :: t, n + 1, v => h :: lset t n v

/-- The list `[0, 1, …, n - 1]`. -/
def upto (n : Nat) : List Nat := List.range n

/-- The sum of a list of integers. -/
def sumInt (l : List Int) : Int := l.foldl (· + ·) 0

/-- The median of three integers. -/
def median3 (a b c : Int) : Int := max (min a b) (min (max a b) c)

/-- Inserts into a list of integers in rising order. -/
def insertInt (x : Int) : List Int → List Int
  | [] => [x]
  | y :: l => if x ≤ y then x :: y :: l else y :: insertInt x l

/-- A list of integers in rising order. -/
def sortInt : List Int → List Int
  | [] => []
  | x :: l => insertInt x (sortInt l)

end Sys2Proof.Machine
end

