-- ==== Sys2Proof/Machine/Trig.lean ====
section
/-! DEFINITION. Sine and cosine in fixed point, for the reset contents of the microstep tables (R281) and the rotations of
the door drives (R274 to R279). Scale 2^64, alternating power series with 20 terms, argument reduced to a quarter turn. -/

namespace Sys2Proof.Machine

/-- The fixed-point scale of the series. -/
def trigOne : Int := 18446744073709551616

/-- Half of pi in units of 2^-64. -/
def halfPi : Int := 28976077832308491370

/-- Sum of the sine series: `term` is the present term, `k` the number of the next factor. -/
def sinSeries : Nat → Int → Int → Int → Int
  | 0, _, _, _ => 0
  | n + 1, x2, term, k =>
    term + sinSeries n x2 (-(term * x2 / trigOne) / ((k + 1) * (k + 2))) (k + 2)

/-- Sine of an angle within a quarter turn, in units of 2^-64 both. -/
def sinQuarter (x : Int) : Int := sinSeries 20 (x * x / trigOne) x 1

/-- Sine of an angle given as a fraction of a turn in units of 2^-32, in units of 2^-64. -/
def sinTurn (a : Nat) : Int :=
  let a := a % 4294967296
  let q := a / 1073741824
  let r : Int := (a % 1073741824 : Nat)
  let up := sinQuarter (halfPi * r / 1073741824)
  let dn := sinQuarter (halfPi * (1073741824 - r) / 1073741824)
  if q = 0 then up else if q = 1 then dn else if q = 2 then -up else -dn

/-- Cosine of an angle given as a fraction of a turn in units of 2^-32, in units of 2^-64. -/
def cosTurn (a : Nat) : Int := sinTurn (a + 1073741824)

/-- Entry `i` of a microstep table at reset: round(65 535 × sin((i + 0.5) × 90° / 1024)) (R281). -/
def stepSine (i : Nat) : Nat :=
  (asrRound (65535 * sinQuarter (halfPi * (2 * i + 1) / 2048)) 64).toNat

end Sys2Proof.Machine
end

