-- ==== Sys2Proof/Machine/RegMap.lean ====
section
/-! DEFINITION. The register map: every register of the 20 blocks by the name the manual gives it (its address, R45-R47),
every field narrower than a word as (address, lowest bit, width), and per block the table of registers with reset value and
the bits that a commit stores, that are commands (they act and read 0), that exist (the rest are reserved, R13), and that are sticky
(RS, R11).
CTRL and SAFE are lane-private (R47): their registers take the lane first, and their key in `State.regs` is the address plus
2^32 times (lane + 1). Transcribed from the register tables of spec/00 to spec/13. -/

namespace Sys2Proof.Machine

namespace SYS
def ID : Nat := 0x40000000
def ID_PART : Fld := ⟨ID, 16, 16⟩
def ID_STEP : Fld := ⟨ID, 8, 8⟩
def ID_MASK : Fld := ⟨ID, 0, 8⟩
def CAPS : Nat := 0x40000004
def CAPS_TEMP_T : Fld := ⟨CAPS, 23, 1⟩
def CAPS_DEST_LOG2 : Fld := ⟨CAPS, 19, 4⟩
def CAPS_MAX_LANDING : Fld := ⟨CAPS, 12, 7⟩
def CAPS_MAX_CAR : Fld := ⟨CAPS, 8, 4⟩
def CAPS_VARIANT : Fld := ⟨CAPS, 0, 8⟩
def LTR : Nat := 0x40000008
def MODE : Nat := 0x4000000C
def MODE_CAUSE : Fld := ⟨MODE, 24, 8⟩
def MODE_PREV : Fld := ⟨MODE, 4, 4⟩
def MODE_MODE : Fld := ⟨MODE, 0, 4⟩
def PWR_STS : Nat := 0x40000010
def PWR_STS_CAUSE : Fld := ⟨PWR_STS, 16, 4⟩
def PWR_STS_SRC : Fld := ⟨PWR_STS, 8, 8⟩
def PWR_STS_DEEPEST : Fld := ⟨PWR_STS, 4, 3⟩
def PWR_STS_STATE : Fld := ⟨PWR_STS, 0, 3⟩
def PWR_CFG : Nat := 0x40000014
def PWR_CFG_WAKE_BALL : Fld := ⟨PWR_CFG, 31, 1⟩
def PWR_CFG_P2_TIDE : Fld := ⟨PWR_CFG, 0, 8⟩
def WAKE_EN (k : Nat) : Nat := 0x40000020 + 0x4 * k
def RST_STS : Nat := 0x40000040
def RST_STS_HELD : Fld := ⟨RST_STS, 16, 3⟩
def RST_STS_SEL : Fld := ⟨RST_STS, 12, 2⟩
def RST_STS_FALLBACK : Fld := ⟨RST_STS, 9, 1⟩
def RST_STS_BANK : Fld := ⟨RST_STS, 8, 1⟩
def RST_STS_STUCK : Fld := ⟨RST_STS, 4, 1⟩
def RST_STS_CAUSE : Fld := ⟨RST_STS, 0, 4⟩
def IMG_CTL : Nat := 0x40000050
def IMG_CTL_GO : Fld := ⟨IMG_CTL, 31, 1⟩
def IMG_CTL_OP : Fld := ⟨IMG_CTL, 28, 3⟩
def IMG_CTL_OFFSET : Fld := ⟨IMG_CTL, 0, 22⟩
def IMG_SRC : Nat := 0x40000054
def IMG_SRC_SRC : Fld := ⟨IMG_SRC, 0, 21⟩
def IMG_STS : Nat := 0x40000058
def IMG_STS_STATE : Fld := ⟨IMG_STS, 30, 2⟩
def IMG_STS_CAUSE : Fld := ⟨IMG_STS, 24, 4⟩
def IMG_STS_CHECKED : Fld := ⟨IMG_STS, 17, 1⟩
def IMG_STS_BANK : Fld := ⟨IMG_STS, 16, 1⟩
end SYS

namespace GALLERY
def TIDE_CFG : Nat := 0x40010000
def TIDE_CFG_GUARD : Fld := ⟨TIDE_CFG, 16, 7⟩
def TIDE_CFG_PERIOD : Fld := ⟨TIDE_CFG, 0, 12⟩
def TIDE_STS : Nat := 0x40010004
def TIDE_STS_BELLS : Fld := ⟨TIDE_STS, 5, 3⟩
def TIDE_STS_BELL_OVR : Fld := ⟨TIDE_STS, 4, 1⟩
def TIDE_STS_SNAP_MIS : Fld := ⟨TIDE_STS, 3, 1⟩
def TIDE_STS_SNAP_LATE : Fld := ⟨TIDE_STS, 0, 3⟩
def TIDE_CLR : Nat := 0x40010008
def TIDE_CLR_BELL_OVR : Fld := ⟨TIDE_CLR, 4, 1⟩
def TIDE_CLR_SNAP_MIS : Fld := ⟨TIDE_CLR, 3, 1⟩
def TIDE_NUM_LO : Nat := 0x4001000C
def TIDE_NUM_HI : Nat := 0x40010010
def EVT_EN (k : Nat) : Nat := 0x40010040 + 0x4 * k
def EVT_PEND (k : Nat) : Nat := 0x40010060 + 0x4 * k
def EVT_OVR (k : Nat) : Nat := 0x40010080 + 0x4 * k
def COMMIT_STS : Nat := 0x40010100
def COMMIT_STS_REFUSED : Fld := ⟨COMMIT_STS, 16, 16⟩
def COMMIT_STS_OUTCOME : Fld := ⟨COMMIT_STS, 8, 3⟩
def COMMIT_STS_GROUPS : Fld := ⟨COMMIT_STS, 0, 5⟩
def REFUSE : Nat := 0x40010104
def REFUSE_GROUP : Fld := ⟨REFUSE, 28, 4⟩
def REFUSE_CAUSE : Fld := ⟨REFUSE, 16, 8⟩
def REFUSE_ITEM : Fld := ⟨REFUSE, 0, 10⟩
def REFUSE_ADDR : Nat := 0x40010108
def VOTE_STS : Nat := 0x4001010C
def VOTE_STS_NOMAJ_RUN : Fld := ⟨VOTE_STS, 16, 2⟩
def VOTE_STS_VOTE : Fld := ⟨VOTE_STS, 12, 2⟩
def VOTE_STS_DIFF : Fld := ⟨VOTE_STS, 8, 3⟩
def VOTE_STS_MISSING : Fld := ⟨VOTE_STS, 4, 3⟩
def VOTE_STS_AGREE : Fld := ⟨VOTE_STS, 0, 3⟩
def LANE_STS (l : Nat) : Nat := 0x40010110 + 0x4 * l
def LANE_STS_LAST_CAUSE (l : Nat) : Fld := ⟨LANE_STS l, 28, 4⟩
def LANE_STS_RELIEF_FAIL (l : Nat) : Fld := ⟨LANE_STS l, 24, 2⟩
def LANE_STS_SHADOW_CNT (l : Nat) : Fld := ⟨LANE_STS l, 16, 8⟩
def LANE_STS_DOUBT_LEFT (l : Nat) : Fld := ⟨LANE_STS l, 8, 5⟩
def LANE_STS_STATE (l : Nat) : Fld := ⟨LANE_STS l, 0, 4⟩
def DIS_CNT (l : Nat) : Nat := 0x40010120 + 0x4 * l
def NOMAJ_CNT : Nat := 0x4001012C
def CHAR_STS : Nat := 0x40010130
def CHAR_STS_SILENT : Fld := ⟨CHAR_STS, 8, 3⟩
def CHAR_STS_WIRE_LOST : Fld := ⟨CHAR_STS, 4, 3⟩
def CHAR_STS_GAL_LOST : Fld := ⟨CHAR_STS, 0, 3⟩
def RELIEF_CFG : Nat := 0x40010140
def RELIEF_CFG_REQ : Fld := ⟨RELIEF_CFG, 4, 3⟩
def RELIEF_CFG_AUTO : Fld := ⟨RELIEF_CFG, 0, 1⟩
def RELIEF_STS : Nat := 0x40010144
def RELIEF_STS_DIRTY : Fld := ⟨RELIEF_STS, 8, 13⟩
def RELIEF_STS_PASS : Fld := ⟨RELIEF_STS, 4, 4⟩
def RELIEF_STS_RECIPIENT : Fld := ⟨RELIEF_STS, 2, 2⟩
def RELIEF_STS_DONOR : Fld := ⟨RELIEF_STS, 0, 2⟩
def DIGEST (k : Nat) : Nat := 0x40010180 + 0x4 * k
end GALLERY

namespace TIME
def NOW_SEC_LO : Nat := 0x40020000
def NOW_SEC_HI : Nat := 0x40020004
def NOW_NS : Nat := 0x40020008
def CFG : Nat := 0x40020010
def CFG_SRC : Fld := ⟨CFG, 30, 2⟩
def CFG_KP : Fld := ⟨CFG, 24, 4⟩
def CFG_KI : Fld := ⟨CFG, 20, 4⟩
def CFG_STEP_N : Fld := ⟨CFG, 16, 4⟩
def CFG_SLEW_WIN : Fld := ⟨CFG, 0, 16⟩
def CFG2 : Nat := 0x40020014
def CFG2_PD_JUMP : Fld := ⟨CFG2, 16, 16⟩
def CFG2_HOLD_MAX : Fld := ⟨CFG2, 8, 8⟩
def CFG2_LOCK_TOL : Fld := ⟨CFG2, 0, 8⟩
def RATE_INIT : Nat := 0x40020018
def RATE : Nat := 0x4002001C
def STS : Nat := 0x40020020
def STS_LOCKED : Fld := ⟨STS, 31, 1⟩
def STS_SPLIT : Fld := ⟨STS, 30, 1⟩
def STS_STEPPED : Fld := ⟨STS, 29, 1⟩
def STS_SRC_NET : Fld := ⟨STS, 28, 1⟩
def STS_REMEAS : Fld := ⟨STS, 27, 1⟩
def STS_REMEAS_N : Fld := ⟨STS, 16, 5⟩
def STS_STATE : Fld := ⟨STS, 0, 4⟩
def OFFSET : Nat := 0x40020024
def STEP_S : Nat := 0x40020028
def STEP_NS : Nat := 0x4002002C
def CTL : Nat := 0x40020030
def CTL_CLR_CNT : Fld := ⟨CTL, 1, 1⟩
def CTL_RESTEP : Fld := ⟨CTL, 0, 1⟩
def CNT : Nat := 0x40020034
def CNT_STEPS : Fld := ⟨CNT, 24, 8⟩
def CNT_SPLITS : Fld := ⟨CNT, 16, 8⟩
def CNT_JUMPS : Fld := ⟨CNT, 8, 8⟩
def CNT_SWITCHES : Fld := ⟨CNT, 0, 8⟩
end TIME

namespace NET
def PORT_CFG (k p : Nat) : Nat := 0x40030000 + 0x10000 * k + 0x100 * p
def PORT_CFG_EN (k p : Nat) : Fld := ⟨PORT_CFG k p, 31, 1⟩
def PORT_CFG_REF_OUT (k p : Nat) : Fld := ⟨PORT_CFG k p, 30, 1⟩
def PORT_CFG_RXRING (k p : Nat) : Fld := ⟨PORT_CFG k p, 29, 1⟩
def PORT_CFG_RXMC (k p : Nat) : Fld := ⟨PORT_CFG k p, 28, 1⟩
def PORT_CFG_RELAY (k p : Nat) : Fld := ⟨PORT_CFG k p, 27, 1⟩
def PORT_CFG_DEF_CLASS (k p : Nat) : Fld := ⟨PORT_CFG k p, 24, 2⟩
def MAC_LO (k p : Nat) : Nat := 0x40030004 + 0x10000 * k + 0x100 * p
def MAC_HI (k p : Nat) : Nat := 0x40030008 + 0x10000 * k + 0x100 * p
def PCP_MAP (k p : Nat) : Nat := 0x4003000C + 0x10000 * k + 0x100 * p
def PCP_MAP_MAP (k p : Nat) : Fld := ⟨PCP_MAP k p, 0, 16⟩
def LAT (k p : Nat) : Nat := 0x40030010 + 0x10000 * k + 0x100 * p
def LAT_INGRESS (k p : Nat) : Fld := ⟨LAT k p, 16, 16⟩
def LAT_EGRESS (k p : Nat) : Fld := ⟨LAT k p, 0, 16⟩
def ASYM (k p : Nat) : Nat := 0x40030014 + 0x10000 * k + 0x100 * p
def PDELAY (k p : Nat) : Nat := 0x4003001C + 0x10000 * k + 0x100 * p
def PORT_STS (k p : Nat) : Nat := 0x40030018 + 0x10000 * k + 0x100 * p
def PORT_STS_LINK (k p : Nat) : Fld := ⟨PORT_STS k p, 31, 1⟩
def PORT_STS_PD_VALID (k p : Nat) : Fld := ⟨PORT_STS k p, 30, 1⟩
def PORT_STS_MASTER (k p : Nat) : Fld := ⟨PORT_STS k p, 29, 1⟩
def RXCNT (k p : Nat) : Nat := 0x40030020 + 0x10000 * k + 0x100 * p
def TXCNT (k p : Nat) : Nat := 0x40030024 + 0x10000 * k + 0x100 * p
def ERRCNT (k p : Nat) : Nat := 0x40030028 + 0x10000 * k + 0x100 * p
def ERRCNT_FCS (k p : Nat) : Fld := ⟨ERRCNT k p, 24, 8⟩
def ERRCNT_DROP (k p : Nat) : Fld := ⟨ERRCNT k p, 16, 8⟩
def ERRCNT_LOOP (k p : Nat) : Fld := ⟨ERRCNT k p, 8, 8⟩
def ERRCNT_TRUNC (k p : Nat) : Fld := ⟨ERRCNT k p, 4, 4⟩
def ERRCNT_ABORT (k p : Nat) : Fld := ⟨ERRCNT k p, 0, 4⟩
def RXBUF (k p : Nat) : Nat := 0x4003002C + 0x10000 * k + 0x100 * p
def RXBUF_BUF_LOG2 (k p : Nat) : Fld := ⟨RXBUF k p, 28, 4⟩
def RXBUF_BASE (k p : Nat) : Fld := ⟨RXBUF k p, 0, 21⟩
def PTP_CFG (k : Nat) : Nat := 0x40030200 + 0x10000 * k
def PTP_CFG_EN (k : Nat) : Fld := ⟨PTP_CFG k, 31, 1⟩
def PTP_CFG_ROLE (k : Nat) : Fld := ⟨PTP_CFG k, 29, 2⟩
def PTP_CFG_TCMODE (k : Nat) : Fld := ⟨PTP_CFG k, 27, 2⟩
def PTP_CFG_UDP (k : Nat) : Fld := ⟨PTP_CFG k, 26, 1⟩
def PTP_CFG_DOMAIN (k : Nat) : Fld := ⟨PTP_CFG k, 16, 8⟩
def PTP_CFG_LOG_SYNC (k : Nat) : Fld := ⟨PTP_CFG k, 12, 4⟩
def PTP_CFG_LOG_DELAY (k : Nat) : Fld := ⟨PTP_CFG k, 8, 4⟩
def PTP_CFG_LOG_ANN (k : Nat) : Fld := ⟨PTP_CFG k, 4, 4⟩
def PTP_CFG_ANN_TO (k : Nat) : Fld := ⟨PTP_CFG k, 0, 4⟩
def PTP_PRIO (k : Nat) : Nat := 0x40030204 + 0x10000 * k
def PTP_PRIO_PRIORITY1 (k : Nat) : Fld := ⟨PTP_PRIO k, 24, 8⟩
def PTP_PRIO_PRIORITY2 (k : Nat) : Fld := ⟨PTP_PRIO k, 16, 8⟩
def PTP_PRIO_CLASS (k : Nat) : Fld := ⟨PTP_PRIO k, 8, 8⟩
def PTP_PRIO_ACCURACY (k : Nat) : Fld := ⟨PTP_PRIO k, 0, 8⟩
def PTP_PRIO2 (k : Nat) : Nat := 0x40030208 + 0x10000 * k
def PTP_PRIO2_TIME_SOURCE (k : Nat) : Fld := ⟨PTP_PRIO2 k, 16, 8⟩
def PTP_PRIO2_VARIANCE (k : Nat) : Fld := ⟨PTP_PRIO2 k, 0, 16⟩
def SRC_CLASS (k : Nat) : Nat := 0x4003020C + 0x10000 * k
def SRC_CLASS_PTP (k : Nat) : Fld := ⟨SRC_CLASS k, 30, 2⟩
def SRC_CLASS_LLP (k : Nat) : Fld := ⟨SRC_CLASS k, 28, 2⟩
def SRC_CLASS_HREF (k : Nat) : Fld := ⟨SRC_CLASS k, 26, 2⟩
def SRC_CLASS_BID (k : Nat) : Fld := ⟨SRC_CLASS k, 24, 2⟩
def PTP_STS (k : Nat) : Nat := 0x40030210 + 0x10000 * k
def PTP_STS_PORT_STATE (k : Nat) : Fld := ⟨PTP_STS k, 28, 4⟩
def PTP_STS_GM (k : Nat) : Fld := ⟨PTP_STS k, 27, 1⟩
def CLK_ID_LO (k : Nat) : Nat := 0x40030214 + 0x10000 * k
def CLK_ID_HI (k : Nat) : Nat := 0x40030218 + 0x10000 * k
def GM_ID_LO (k : Nat) : Nat := 0x4003021C + 0x10000 * k
def GM_ID_HI (k : Nat) : Nat := 0x40030220 + 0x10000 * k
def OFFSET (k : Nat) : Nat := 0x40030224 + 0x10000 * k
def MPD (k : Nat) : Nat := 0x40030228 + 0x10000 * k
def PTP_ERR (k : Nat) : Nat := 0x4003022C + 0x10000 * k
def PTP_ERR_TIMEOUT (k : Nat) : Fld := ⟨PTP_ERR k, 24, 8⟩
def PTP_ERR_SEQ (k : Nat) : Fld := ⟨PTP_ERR k, 16, 8⟩
def PTP_ERR_BADMSG (k : Nat) : Fld := ⟨PTP_ERR k, 8, 8⟩
def PTP_ERR_LOST (k : Nat) : Fld := ⟨PTP_ERR k, 0, 8⟩
def MDIO_CFG (k : Nat) : Nat := 0x40030230 + 0x10000 * k
def MDIO_CFG_POLL (k : Nat) : Fld := ⟨MDIO_CFG k, 31, 1⟩
def MDIO_CFG_PHY1 (k : Nat) : Fld := ⟨MDIO_CFG k, 8, 5⟩
def MDIO_CFG_PHY0 (k : Nat) : Fld := ⟨MDIO_CFG k, 0, 5⟩
def MDIO_CMD (k : Nat) : Nat := 0x40030234 + 0x10000 * k
def MDIO_CMD_GO (k : Nat) : Fld := ⟨MDIO_CMD k, 31, 1⟩
def MDIO_CMD_WRITE (k : Nat) : Fld := ⟨MDIO_CMD k, 30, 1⟩
def MDIO_CMD_PHY (k : Nat) : Fld := ⟨MDIO_CMD k, 21, 5⟩
def MDIO_CMD_REG (k : Nat) : Fld := ⟨MDIO_CMD k, 16, 5⟩
def MDIO_CMD_DATA (k : Nat) : Fld := ⟨MDIO_CMD k, 0, 16⟩
def MDIO_STS (k : Nat) : Nat := 0x40030238 + 0x10000 * k
def MDIO_STS_BUSY (k : Nat) : Fld := ⟨MDIO_STS k, 31, 1⟩
def MDIO_STS_DONE (k : Nat) : Fld := ⟨MDIO_STS k, 30, 1⟩
def MDIO_STS_DATA (k : Nat) : Fld := ⟨MDIO_STS k, 0, 16⟩
def NET_CLR (k : Nat) : Nat := 0x4003023C + 0x10000 * k
def NET_CLR_CNT (k : Nat) : Fld := ⟨NET_CLR k, 1, 1⟩
def NET_CLR_ERR (k : Nat) : Fld := ⟨NET_CLR k, 0, 1⟩
end NET

namespace LLP
def CFG : Nat := 0x40050000
def CFG_EN : Fld := ⟨CFG, 31, 1⟩
def CFG_HEART_EN : Fld := ⟨CFG, 30, 1⟩
def CFG_RAW_EN : Fld := ⟨CFG, 29, 1⟩
def CFG_VLAN : Fld := ⟨CFG, 28, 1⟩
def CFG_PCP : Fld := ⟨CFG, 25, 3⟩
def CFG_NODE : Fld := ⟨CFG, 22, 3⟩
def CFG_SINGLE_MAX : Fld := ⟨CFG, 16, 4⟩
def CFG_VID : Fld := ⟨CFG, 0, 12⟩
def CYCLE : Nat := 0x40050004
def CYCLE_CYCLE : Fld := ⟨CYCLE, 0, 14⟩
def TIMING : Nat := 0x40050008
def TIMING_SKEW_WIN : Fld := ⟨TIMING, 16, 16⟩
def TIMING_TRANSIT : Fld := ⟨TIMING, 0, 16⟩
def AGE : Nat := 0x4005000C
def AGE_MISS_MAX : Fld := ⟨AGE, 16, 4⟩
def AGE_MAX_AGE : Fld := ⟨AGE, 0, 16⟩
def SEED_A : Nat := 0x40050010
def SEED_B : Nat := 0x40050014
def MAC_LO : Nat := 0x40050018
def MAC_HI : Nat := 0x4005001C
def NODE_EN (k : Nat) : Nat := 0x40050020 + 0x4 * k
def STS : Nat := 0x40050040
def STS_TIME_OK : Fld := ⟨STS, 31, 1⟩
def STS_LOST : Fld := ⟨STS, 8, 8⟩
def STS_SINGLE : Fld := ⟨STS, 0, 8⟩
def ERR0 : Nat := 0x40050044
def ERR0_CRC_A : Fld := ⟨ERR0, 24, 8⟩
def ERR0_CRC_B : Fld := ⟨ERR0, 16, 8⟩
def ERR0_AGE : Fld := ⟨ERR0, 8, 8⟩
def ERR0_FUTURE : Fld := ⟨ERR0, 0, 8⟩
def ERR1 : Nat := 0x40050048
def ERR1_OLD : Fld := ⟨ERR1, 24, 8⟩
def ERR1_MIS : Fld := ⟨ERR1, 16, 8⟩
def ERR1_HDR : Fld := ⟨ERR1, 8, 8⟩
def ERR1_LATE : Fld := ⟨ERR1, 0, 8⟩
def CLR : Nat := 0x4005004C
def CLR_ERR : Fld := ⟨CLR, 0, 1⟩
def NODE (n : Nat) : Nat := 0x40050100 + 0x4 * n
def NODE_STATE (n : Nat) : Fld := ⟨NODE n, 28, 4⟩
def NODE_MODE (n : Nat) : Fld := ⟨NODE n, 24, 4⟩
def NODE_SLCNT (n : Nat) : Fld := ⟨NODE n, 16, 8⟩
def NODE_LAST (n : Nat) : Fld := ⟨NODE n, 0, 16⟩
end LLP

namespace RINGS
def RING_BASE (n : Nat) : Nat := 0x40060000 + 0x20 * n
def RING_BASE_BASE (n : Nat) : Fld := ⟨RING_BASE n, 0, 21⟩
def RING_CFG (n : Nat) : Nat := 0x40060004 + 0x20 * n
def RING_CFG_EN (n : Nat) : Fld := ⟨RING_CFG n, 31, 1⟩
def RING_CFG_CANWAIT (n : Nat) : Fld := ⟨RING_CFG n, 30, 1⟩
def RING_CFG_PRODUCER (n : Nat) : Fld := ⟨RING_CFG n, 16, 8⟩
def RING_CFG_SEL (n : Nat) : Fld := ⟨RING_CFG n, 14, 2⟩
def RING_CFG_POLICY (n : Nat) : Fld := ⟨RING_CFG n, 8, 2⟩
def RING_CFG_ENTRY_LOG2 (n : Nat) : Fld := ⟨RING_CFG n, 4, 3⟩
def RING_CFG_SIZE_LOG2 (n : Nat) : Fld := ⟨RING_CFG n, 0, 4⟩
def RING_HEAD (n : Nat) : Nat := 0x40060008 + 0x20 * n
def RING_HEAD_CNT (n : Nat) : Fld := ⟨RING_HEAD n, 0, 16⟩
def RING_TAIL (n : Nat) : Nat := 0x4006000C + 0x20 * n
def RING_TAIL_CNT (n : Nat) : Fld := ⟨RING_TAIL n, 0, 16⟩
def RING_WMARK (n : Nat) : Nat := 0x40060010 + 0x20 * n
def RING_WMARK_WMARK (n : Nat) : Fld := ⟨RING_WMARK n, 0, 13⟩
def RING_STS (n : Nat) : Nat := 0x40060014 + 0x20 * n
def RING_STS_WAITING (n : Nat) : Fld := ⟨RING_STS n, 3, 1⟩
def RING_STS_OVF (n : Nat) : Fld := ⟨RING_STS n, 2, 1⟩
def RING_STS_FULL (n : Nat) : Fld := ⟨RING_STS n, 1, 1⟩
def RING_STS_EMPTY (n : Nat) : Fld := ⟨RING_STS n, 0, 1⟩
def RING_DROPS (n : Nat) : Nat := 0x40060018 + 0x20 * n
def RING_CLR (n : Nat) : Nat := 0x4006001C + 0x20 * n
def RING_CLR_DROPS (n : Nat) : Fld := ⟨RING_CLR n, 1, 1⟩
def RING_CLR_OVF (n : Nat) : Fld := ⟨RING_CLR n, 0, 1⟩
end RINGS

namespace POS
def ENC_CFG (n : Nat) : Nat := 0x40070000 + 0x20 * n
def ENC_CFG_EN (n : Nat) : Fld := ⟨ENC_CFG n, 31, 1⟩
def ENC_CFG_MODE (n : Nat) : Fld := ⟨ENC_CFG n, 29, 2⟩
def ENC_CFG_INV (n : Nat) : Fld := ⟨ENC_CFG n, 28, 1⟩
def ENC_CFG_Z_MODE (n : Nat) : Fld := ⟨ENC_CFG n, 24, 2⟩
def ENC_CFG_LOSS_EN (n : Nat) : Fld := ⟨ENC_CFG n, 23, 1⟩
def ENC_CFG_DIR_EV (n : Nat) : Fld := ⟨ENC_CFG n, 22, 1⟩
def ENC_CFG_DIR_HYST (n : Nat) : Fld := ⟨ENC_CFG n, 14, 8⟩
def ENC_CFG_FILT (n : Nat) : Fld := ⟨ENC_CFG n, 0, 6⟩
def ENC_CNT_LO (n : Nat) : Nat := 0x40070004 + 0x20 * n
def ENC_CNT_HI (n : Nat) : Nat := 0x40070008 + 0x20 * n
def ENC_IDX (n : Nat) : Nat := 0x4007000C + 0x20 * n
def ENC_IDXPER (n : Nat) : Nat := 0x40070010 + 0x20 * n
def ENC_IDXPER_PER (n : Nat) : Fld := ⟨ENC_IDXPER n, 0, 20⟩
def ENC_STS (n : Nat) : Nat := 0x40070014 + 0x20 * n
def ENC_STS_IDX_ERR (n : Nat) : Fld := ⟨ENC_STS n, 6, 1⟩
def ENC_STS_LOSS_NOW (n : Nat) : Fld := ⟨ENC_STS n, 5, 1⟩
def ENC_STS_LOSS (n : Nat) : Fld := ⟨ENC_STS n, 4, 1⟩
def ENC_STS_ILLEGAL (n : Nat) : Fld := ⟨ENC_STS n, 3, 1⟩
def ENC_STS_Z_SEEN (n : Nat) : Fld := ⟨ENC_STS n, 2, 1⟩
def ENC_STS_DIR (n : Nat) : Fld := ⟨ENC_STS n, 1, 1⟩
def ENC_ERRCNT (n : Nat) : Nat := 0x40070018 + 0x20 * n
def ENC_ERRCNT_LOSS_CNT (n : Nat) : Fld := ⟨ENC_ERRCNT n, 16, 16⟩
def ENC_ERRCNT_ILL_CNT (n : Nat) : Fld := ⟨ENC_ERRCNT n, 0, 16⟩
def ENC_CLR (n : Nat) : Nat := 0x4007001C + 0x20 * n
def ENC_CLR_ZARM (n : Nat) : Fld := ⟨ENC_CLR n, 4, 1⟩
def ENC_CLR_ERRCNT (n : Nat) : Fld := ⟨ENC_CLR n, 3, 1⟩
def ENC_CLR_IDX_ERR (n : Nat) : Fld := ⟨ENC_CLR n, 2, 1⟩
def ENC_CLR_LOSS (n : Nat) : Fld := ⟨ENC_CLR n, 1, 1⟩
def ENC_CLR_ILLEGAL (n : Nat) : Fld := ⟨ENC_CLR n, 0, 1⟩
def SSI_CFG (m : Nat) : Nat := 0x40070100 + 0x20 * m
def SSI_CFG_EN (m : Nat) : Fld := ⟨SSI_CFG m, 31, 1⟩
def SSI_CFG_CODE (m : Nat) : Fld := ⟨SSI_CFG m, 30, 1⟩
def SSI_CFG_DBL (m : Nat) : Fld := ⟨SSI_CFG m, 29, 1⟩
def SSI_CFG_PAR (m : Nat) : Fld := ⟨SSI_CFG m, 27, 2⟩
def SSI_CFG_STAT_BITS (m : Nat) : Fld := ⟨SSI_CFG m, 25, 2⟩
def SSI_CFG_ALARM_MASK (m : Nat) : Fld := ⟨SSI_CFG m, 22, 3⟩
def SSI_CFG_BITS (m : Nat) : Fld := ⟨SSI_CFG m, 16, 6⟩
def SSI_CFG_CLKDIV (m : Nat) : Fld := ⟨SSI_CFG m, 8, 8⟩
def SSI_CFG_RATE (m : Nat) : Fld := ⟨SSI_CFG m, 6, 2⟩
def SSI_TIMING (m : Nat) : Nat := 0x40070104 + 0x20 * m
def SSI_TIMING_MONO (m : Nat) : Fld := ⟨SSI_TIMING m, 16, 8⟩
def SSI_TIMING_LAT (m : Nat) : Fld := ⟨SSI_TIMING m, 0, 16⟩
def SSI_RAW_LO (m : Nat) : Nat := 0x40070108 + 0x20 * m
def SSI_RAW_HI (m : Nat) : Nat := 0x4007010C + 0x20 * m
def SSI_STS (m : Nat) : Nat := 0x40070110 + 0x20 * m
def SSI_STS_LINE (m : Nat) : Fld := ⟨SSI_STS m, 4, 1⟩
def SSI_STS_DBL_MIS (m : Nat) : Fld := ⟨SSI_STS m, 3, 1⟩
def SSI_STS_PAR (m : Nat) : Fld := ⟨SSI_STS m, 2, 1⟩
def SSI_STS_ALARM (m : Nat) : Fld := ⟨SSI_STS m, 1, 1⟩
def SSI_STS_STALE (m : Nat) : Fld := ⟨SSI_STS m, 0, 1⟩
def SSI_ERRCNT (m : Nat) : Nat := 0x40070114 + 0x20 * m
def SSI_CLR (m : Nat) : Nat := 0x40070118 + 0x20 * m
def SSI_CLR_ERRCNT (m : Nat) : Fld := ⟨SSI_CLR m, 1, 1⟩
def SSI_CLR_FLAGS (m : Nat) : Fld := ⟨SSI_CLR m, 0, 1⟩
def DM_CFG (d : Nat) : Nat := 0x40070200 + 0x4 * d
def DM_CFG_EN (d : Nat) : Fld := ⟨DM_CFG d, 31, 1⟩
def DM_CFG_POL (d : Nat) : Fld := ⟨DM_CFG d, 30, 1⟩
def DM_CFG_ROLE (d : Nat) : Fld := ⟨DM_CFG d, 24, 3⟩
def DM_CFG_FILT (d : Nat) : Fld := ⟨DM_CFG d, 0, 8⟩
def DM_LVL : Nat := 0x40070240
def DM_LVL_LVL : Fld := ⟨DM_LVL, 0, 16⟩
def FUS_SRC (s : Nat) : Nat := 0x40070300 + 0x4 * s
def FUS_SRC_TYPE (s : Nat) : Fld := ⟨FUS_SRC s, 8, 3⟩
def FUS_SRC_FAILOVER (s : Nat) : Fld := ⟨FUS_SRC s, 7, 1⟩
def FUS_SRC_NEG (s : Nat) : Fld := ⟨FUS_SRC s, 6, 1⟩
def FUS_SRC_INPUT (s : Nat) : Fld := ⟨FUS_SRC s, 0, 4⟩
def FUS_SCALE (s : Nat) : Nat := 0x40070310 + 0x4 * s
def FUS_ABS_OFF_LO : Nat := 0x40070320
def FUS_ABS_OFF_HI : Nat := 0x40070324
def FUS_GAIN : Nat := 0x40070328
def FUS_GAIN_KABS : Fld := ⟨FUS_GAIN, 24, 4⟩
def FUS_GAIN_KSTR : Fld := ⟨FUS_GAIN, 16, 4⟩
def FUS_GAIN_DM_SLEW : Fld := ⟨FUS_GAIN, 0, 16⟩
def FUS_LIM : Nat := 0x4007032C
def FUS_LIM_SLIP_THR : Fld := ⟨FUS_LIM, 24, 8⟩
def FUS_LIM_SLIP_N : Fld := ⟨FUS_LIM, 20, 4⟩
def FUS_LIM_DM_GATE : Fld := ⟨FUS_LIM, 12, 8⟩
def FUS_LIM_CAR_HYST : Fld := ⟨FUS_LIM, 0, 12⟩
def FUS_CONF_CFG : Nat := 0x40070330
def FUS_CONF_CFG_DRIFT : Fld := ⟨FUS_CONF_CFG, 16, 16⟩
def FUS_CONF_CFG_DM_UNC : Fld := ⟨FUS_CONF_CFG, 0, 16⟩
def FUS_CFG2 : Nat := 0x40070334
def FUS_CFG2_CORR_MAX : Fld := ⟨FUS_CFG2, 24, 8⟩
def FUS_CFG2_STR_WIN : Fld := ⟨FUS_CFG2, 16, 8⟩
def FUS_CFG2_CONF_MAX : Fld := ⟨FUS_CFG2, 0, 16⟩
def FUS_CTL : Nat := 0x40070338
def FUS_CTL_CKPT : Fld := ⟨FUS_CTL, 8, 1⟩
def FUS_CTL_CLR_HEALTH : Fld := ⟨FUS_CTL, 4, 4⟩
def FUS_CTL_CLR_MIS : Fld := ⟨FUS_CTL, 3, 1⟩
def FUS_CTL_CLR_SLIP : Fld := ⟨FUS_CTL, 2, 1⟩
def FUS_CTL_REREF : Fld := ⟨FUS_CTL, 1, 1⟩
def FUS_POS_LO : Nat := 0x40070340
def FUS_POS_HI : Nat := 0x40070344
def FUS_VEL : Nat := 0x40070348
def FUS_ACC : Nat := 0x4007034C
def FUS_RESID : Nat := 0x4007035C
def FUS_CONF : Nat := 0x40070350
def FUS_STAMP : Nat := 0x40070354
def FUS_STS : Nat := 0x40070358
def FUS_STS_HEALTH : Fld := ⟨FUS_STS, 20, 8⟩
def FUS_STS_ACTING : Fld := ⟨FUS_STS, 16, 2⟩
def FUS_STS_CONF_HI : Fld := ⟨FUS_STS, 11, 1⟩
def FUS_STS_SLIP : Fld := ⟨FUS_STS, 10, 1⟩
def FUS_STS_DIR : Fld := ⟨FUS_STS, 9, 1⟩
def FUS_STS_MOVING : Fld := ⟨FUS_STS, 8, 1⟩
def FUS_STS_STATE : Fld := ⟨FUS_STS, 0, 4⟩
def FUS_CORR (s : Nat) : Nat := 0x40070360 + 0x4 * s
def FUS_DMRESID : Nat := 0x40070370
def ZONE_STS : Nat := 0x40070400
def ZONE_STS_LANDING : Fld := ⟨ZONE_STS, 16, 7⟩
def ZONE_STS_MIS : Fld := ⟨ZONE_STS, 6, 1⟩
def ZONE_STS_ZR : Fld := ⟨ZONE_STS, 5, 1⟩
def ZONE_STS_ZF : Fld := ⟨ZONE_STS, 4, 1⟩
def ZONE_STS_MAP_R : Fld := ⟨ZONE_STS, 3, 1⟩
def ZONE_STS_MAP_F : Fld := ⟨ZONE_STS, 2, 1⟩
def ZONE_STS_VANE_R : Fld := ⟨ZONE_STS, 1, 1⟩
def ZONE_STS_VANE_F : Fld := ⟨ZONE_STS, 0, 1⟩
def MAP_STS : Nat := 0x40070404
def MAP_STS_VALID : Fld := ⟨MAP_STS, 31, 1⟩
def MAP_STS_DIRTY : Fld := ⟨MAP_STS, 30, 1⟩
def MAP_STS_SAVE : Fld := ⟨MAP_STS, 28, 2⟩
def MAP_STS_CAUSE : Fld := ⟨MAP_STS, 25, 3⟩
def MAP_STS_BANK : Fld := ⟨MAP_STS, 24, 1⟩
def MAP_STS_LANDINGS : Fld := ⟨MAP_STS, 16, 8⟩
def MAP_STS_SEQ : Fld := ⟨MAP_STS, 0, 16⟩
def MAP_SEL : Nat := 0x40070408
def MAP_SEL_INDEX : Fld := ⟨MAP_SEL, 0, 8⟩
def MAP_WIN (w : Nat) : Nat := 0x40070410 + 0x4 * w
def MAP_CTL : Nat := 0x40070450
def MAP_CTL_SAVE : Fld := ⟨MAP_CTL, 31, 1⟩
def MAP_CTL_REVERT : Fld := ⟨MAP_CTL, 30, 1⟩
def MAP_CTL_SETN : Fld := ⟨MAP_CTL, 8, 1⟩
def MAP_CTL_N : Fld := ⟨MAP_CTL, 0, 8⟩
def LEARN_CFG : Nat := 0x40070460
def LEARN_CFG_EXPECT : Fld := ⟨LEARN_CFG, 24, 8⟩
def LEARN_CFG_VMAX : Fld := ⟨LEARN_CFG, 16, 8⟩
def LEARN_CFG_LEVEL_OFF : Fld := ⟨LEARN_CFG, 0, 16⟩
def LEARN_CTL : Nat := 0x40070464
def LEARN_CTL_CANCEL : Fld := ⟨LEARN_CTL, 4, 1⟩
def LEARN_CTL_BUILD : Fld := ⟨LEARN_CTL, 3, 1⟩
def LEARN_CTL_STOP : Fld := ⟨LEARN_CTL, 2, 1⟩
def LEARN_CTL_START_DN : Fld := ⟨LEARN_CTL, 1, 1⟩
def LEARN_CTL_START_UP : Fld := ⟨LEARN_CTL, 0, 1⟩
def LEARN_STS : Nat := 0x40070468
def LEARN_STS_STATE : Fld := ⟨LEARN_STS, 28, 4⟩
def LEARN_STS_ERROR : Fld := ⟨LEARN_STS, 24, 4⟩
def LEARN_STS_FOUND : Fld := ⟨LEARN_STS, 16, 8⟩
def LEARN_STS_EDGES : Fld := ⟨LEARN_STS, 0, 11⟩
def LEARN_ABSOFF_LO : Nat := 0x40070470
def LEARN_ABSOFF_HI : Nat := 0x40070474
def CMP_POS_LO (c : Nat) : Nat := 0x40070500 + 0x20 * c
def CMP_POS_HI (c : Nat) : Nat := 0x40070504 + 0x20 * c
def CMP_CFG (c : Nat) : Nat := 0x40070508 + 0x20 * c
def CMP_CFG_CLR (c : Nat) : Fld := ⟨CMP_CFG c, 31, 1⟩
def CMP_CFG_EN (c : Nat) : Fld := ⟨CMP_CFG c, 7, 1⟩
def CMP_CFG_DIR (c : Nat) : Fld := ⟨CMP_CFG c, 5, 2⟩
def CMP_CFG_AUTO (c : Nat) : Fld := ⟨CMP_CFG c, 4, 1⟩
def CMP_CFG_CATCHUP (c : Nat) : Fld := ⟨CMP_CFG c, 3, 1⟩
def CMP_CFG_RING (c : Nat) : Fld := ⟨CMP_CFG c, 2, 1⟩
def CMP_SPACE (c : Nat) : Nat := 0x4007050C + 0x20 * c
def CMP_CNT (c : Nat) : Nat := 0x40070510 + 0x20 * c
def CMP_CNT_CNT (c : Nat) : Fld := ⟨CMP_CNT c, 0, 16⟩
def CMP_STS (c : Nat) : Nat := 0x40070514 + 0x20 * c
def CMP_STS_BEHIND (c : Nat) : Fld := ⟨CMP_STS c, 31, 1⟩
def CMP_STS_MULTI (c : Nat) : Fld := ⟨CMP_STS c, 30, 1⟩
def CMP_STS_DONE (c : Nat) : Fld := ⟨CMP_STS c, 29, 1⟩
def CMP_STS_ARMED (c : Nat) : Fld := ⟨CMP_STS c, 28, 1⟩
def CMP_STS_SKIPPED (c : Nat) : Fld := ⟨CMP_STS c, 16, 12⟩
def CMP_STS_REMAIN (c : Nat) : Fld := ⟨CMP_STS c, 0, 16⟩
def CMP_NEXT_LO (c : Nat) : Nat := 0x40070518 + 0x20 * c
def CMP_NEXT_HI (c : Nat) : Nat := 0x4007051C + 0x20 * c
def CAP_CFG : Nat := 0x40070700
def CAP_CFG_DM : Fld := ⟨CAP_CFG, 16, 16⟩
def CAP_CFG_IDX : Fld := ⟨CAP_CFG, 0, 6⟩
def CKPT_CFG : Nat := 0x40070704
def CKPT_CFG_STILL_T : Fld := ⟨CKPT_CFG, 24, 8⟩
def CKPT_CFG_STILL_V : Fld := ⟨CKPT_CFG, 16, 8⟩
def CKPT_CFG_AUTO : Fld := ⟨CKPT_CFG, 15, 1⟩
def CKPT_CFG_RET_UNC : Fld := ⟨CKPT_CFG, 0, 15⟩
def CKPT_STS : Nat := 0x40070708
def CKPT_STS_VALID : Fld := ⟨CKPT_STS, 31, 1⟩
def CKPT_STS_MIS : Fld := ⟨CKPT_STS, 30, 1⟩
def CKPT_STS_RESTORED : Fld := ⟨CKPT_STS, 29, 1⟩
def CKPT_STS_WRITES : Fld := ⟨CKPT_STS, 0, 16⟩
def CKPT_POS_LO : Nat := 0x4007070C
def CKPT_POS_HI : Nat := 0x40070710
def CKPT_CONF : Nat := 0x40070714
end POS

namespace MOTION
def AX_CFG (a : Nat) : Nat := 0x40080000 + 0x100 * a
def AX_CFG_EN (a : Nat) : Fld := ⟨AX_CFG a, 31, 1⟩
def AX_CFG_SYNC (a : Nat) : Fld := ⟨AX_CFG a, 30, 1⟩
def AX_CFG_FERR_EN (a : Nat) : Fld := ⟨AX_CFG a, 29, 1⟩
def AX_CFG_FB_SRC (a : Nat) : Fld := ⟨AX_CFG a, 24, 4⟩
def AX_VMAX (a : Nat) : Nat := 0x40080004 + 0x100 * a
def AX_AMAX (a : Nat) : Nat := 0x40080008 + 0x100 * a
def AX_JMAX (a : Nat) : Nat := 0x4008000C + 0x100 * a
def AX_DEF_V (a : Nat) : Nat := 0x40080010 + 0x100 * a
def AX_DEF_A (a : Nat) : Nat := 0x40080014 + 0x100 * a
def AX_DEF_D (a : Nat) : Nat := 0x40080018 + 0x100 * a
def AX_DEF_J (a : Nat) : Nat := 0x4008001C + 0x100 * a
def AX_QS_D (a : Nat) : Nat := 0x40080020 + 0x100 * a
def AX_QS_J (a : Nat) : Nat := 0x40080024 + 0x100 * a
def AX_FERR_MAX (a : Nat) : Nat := 0x40080028 + 0x100 * a
def AX_FBSCALE (a : Nat) : Nat := 0x4008002C + 0x100 * a
def AX_SWLN_LO (a : Nat) : Nat := 0x40080030 + 0x100 * a
def AX_SWLN_HI (a : Nat) : Nat := 0x40080034 + 0x100 * a
def AX_SWLP_LO (a : Nat) : Nat := 0x40080038 + 0x100 * a
def AX_SWLP_HI (a : Nat) : Nat := 0x4008003C + 0x100 * a
def MQ_TGT_LO (a : Nat) : Nat := 0x40080040 + 0x100 * a
def MQ_TGT_HI (a : Nat) : Nat := 0x40080044 + 0x100 * a
def MQ_V (a : Nat) : Nat := 0x40080048 + 0x100 * a
def MQ_A (a : Nat) : Nat := 0x4008004C + 0x100 * a
def MQ_D (a : Nat) : Nat := 0x40080050 + 0x100 * a
def MQ_J (a : Nat) : Nat := 0x40080054 + 0x100 * a
def MQ_FLAGS (a : Nat) : Nat := 0x40080058 + 0x100 * a
def MQ_FLAGS_TAG (a : Nat) : Fld := ⟨MQ_FLAGS a, 24, 8⟩
def MQ_FLAGS_BLEND (a : Nat) : Fld := ⟨MQ_FLAGS a, 23, 1⟩
def MQ_FLAGS_LANDING (a : Nat) : Fld := ⟨MQ_FLAGS a, 16, 7⟩
def MQ_FLAGS_MODE (a : Nat) : Fld := ⟨MQ_FLAGS a, 0, 3⟩
def MQ_CMD (a : Nat) : Nat := 0x4008005C + 0x100 * a
def MQ_CMD_CLR_FAULT (a : Nat) : Fld := ⟨MQ_CMD a, 7, 1⟩
def MQ_CMD_CLR_FLAGS (a : Nat) : Fld := ⟨MQ_CMD a, 6, 1⟩
def MQ_CMD_HOME (a : Nat) : Fld := ⟨MQ_CMD a, 5, 1⟩
def MQ_CMD_QSTOP (a : Nat) : Fld := ⟨MQ_CMD a, 4, 1⟩
def MQ_CMD_STOP (a : Nat) : Fld := ⟨MQ_CMD a, 3, 1⟩
def MQ_CMD_FLUSH (a : Nat) : Fld := ⟨MQ_CMD a, 2, 1⟩
def MQ_CMD_REPLACE (a : Nat) : Fld := ⟨MQ_CMD a, 1, 1⟩
def MQ_CMD_PUSH (a : Nat) : Fld := ⟨MQ_CMD a, 0, 1⟩
def SP_POS_LO (a : Nat) : Nat := 0x40080060 + 0x100 * a
def SP_POS_HI (a : Nat) : Nat := 0x40080064 + 0x100 * a
def SP_VEL (a : Nat) : Nat := 0x40080068 + 0x100 * a
def SP_ACC (a : Nat) : Nat := 0x4008006C + 0x100 * a
def FB_POS_LO (a : Nat) : Nat := 0x40080070 + 0x100 * a
def FB_POS_HI (a : Nat) : Nat := 0x40080074 + 0x100 * a
def FERR (a : Nat) : Nat := 0x40080078 + 0x100 * a
def STOP_POS_LO (a : Nat) : Nat := 0x40080080 + 0x100 * a
def STOP_POS_HI (a : Nat) : Nat := 0x40080084 + 0x100 * a
def AX_STS (a : Nat) : Nat := 0x4008007C + 0x100 * a
def AX_STS_TAG (a : Nat) : Fld := ⟨AX_STS a, 24, 8⟩
def AX_STS_QCNT (a : Nat) : Fld := ⟨AX_STS a, 19, 5⟩
def AX_STS_SEG (a : Nat) : Fld := ⟨AX_STS a, 16, 3⟩
def AX_STS_REV_ARMED (a : Nat) : Fld := ⟨AX_STS a, 11, 1⟩
def AX_STS_DIR (a : Nat) : Fld := ⟨AX_STS a, 8, 1⟩
def AX_STS_STATE (a : Nat) : Fld := ⟨AX_STS a, 0, 4⟩
def AX_FLAGS (a : Nat) : Nat := 0x40080088 + 0x100 * a
def AX_FLAGS_FAULT (a : Nat) : Fld := ⟨AX_FLAGS a, 12, 4⟩
def AX_FLAGS_CHATTER (a : Nat) : Fld := ⟨AX_FLAGS a, 6, 1⟩
def AX_FLAGS_GEAR_FAST (a : Nat) : Fld := ⟨AX_FLAGS a, 5, 1⟩
def AX_FLAGS_RELEV_REQ (a : Nat) : Fld := ⟨AX_FLAGS a, 4, 1⟩
def AX_FLAGS_LATE_LIMIT (a : Nat) : Fld := ⟨AX_FLAGS a, 3, 1⟩
def AX_FLAGS_BLEND_LATE (a : Nat) : Fld := ⟨AX_FLAGS a, 2, 1⟩
def AX_FLAGS_SOFTLIM (a : Nat) : Fld := ⟨AX_FLAGS a, 1, 1⟩
def AX_FLAGS_LIMITED (a : Nat) : Fld := ⟨AX_FLAGS a, 0, 1⟩
def AX_DONE (a : Nat) : Nat := 0x4008008C + 0x100 * a
def AX_DONE_TAG (a : Nat) : Fld := ⟨AX_DONE a, 24, 8⟩
def AX_DONE_CNT (a : Nat) : Fld := ⟨AX_DONE a, 0, 16⟩
def HOME_CFG (a : Nat) : Nat := 0x40080090 + 0x100 * a
def HOME_CFG_DIR (a : Nat) : Fld := ⟨HOME_CFG a, 31, 1⟩
def HOME_CFG_METHOD (a : Nat) : Fld := ⟨HOME_CFG a, 28, 3⟩
def HOME_CFG_EXP_POL (a : Nat) : Fld := ⟨HOME_CFG a, 27, 1⟩
def HOME_CFG_OPP_POL (a : Nat) : Fld := ⟨HOME_CFG a, 26, 1⟩
def HOME_CFG_OPP_EN (a : Nat) : Fld := ⟨HOME_CFG a, 25, 1⟩
def HOME_CFG_EXP_CH (a : Nat) : Fld := ⟨HOME_CFG a, 16, 6⟩
def HOME_CFG_OPP_CH (a : Nat) : Fld := ⟨HOME_CFG a, 8, 6⟩
def HOME_V (a : Nat) : Nat := 0x40080094 + 0x100 * a
def HOME_V_V1 (a : Nat) : Fld := ⟨HOME_V a, 16, 16⟩
def HOME_V_V2 (a : Nat) : Fld := ⟨HOME_V a, 0, 16⟩
def HOME_MAXD (a : Nat) : Nat := 0x40080098 + 0x100 * a
def HOME_OFF_LO (a : Nat) : Nat := 0x4008009C + 0x100 * a
def HOME_OFF_HI (a : Nat) : Nat := 0x400800A0 + 0x100 * a
def HOME_CAP_LO (a : Nat) : Nat := 0x400800A4 + 0x100 * a
def HOME_CAP_HI (a : Nat) : Nat := 0x400800A8 + 0x100 * a
def HOME_STS (a : Nat) : Nat := 0x400800AC + 0x100 * a
def HOME_STS_STEP (a : Nat) : Fld := ⟨HOME_STS a, 28, 4⟩
def HOME_STS_IGNORED (a : Nat) : Fld := ⟨HOME_STS a, 24, 4⟩
def HOME_STS_HOMED (a : Nat) : Fld := ⟨HOME_STS a, 0, 1⟩
def REV_TGT_LO (a : Nat) : Nat := 0x400800B0 + 0x100 * a
def REV_TGT_HI (a : Nat) : Nat := 0x400800B4 + 0x100 * a
def REV_V (a : Nat) : Nat := 0x400800B8 + 0x100 * a
def REV_D (a : Nat) : Nat := 0x400800BC + 0x100 * a
def REV_CFG (a : Nat) : Nat := 0x400800C0 + 0x100 * a
def REV_CFG_ARM (a : Nat) : Fld := ⟨REV_CFG a, 31, 1⟩
def HREF_CFG : Nat := 0x40080800
def HREF_CFG_MODE : Fld := ⟨HREF_CFG, 30, 2⟩
def HREF_CFG_PORT : Fld := ⟨HREF_CFG, 28, 2⟩
def HREF_CFG_DUAL : Fld := ⟨HREF_CFG, 27, 1⟩
def HREF_CFG_VLAN : Fld := ⟨HREF_CFG, 26, 1⟩
def HREF_CFG_PCP : Fld := ⟨HREF_CFG, 23, 3⟩
def HREF_CFG_PER : Fld := ⟨HREF_CFG, 18, 5⟩
def HREF_CFG_VID : Fld := ⟨HREF_CFG, 0, 12⟩
def HREF_MAC_LO : Nat := 0x40080804
def HREF_MAC_HI : Nat := 0x40080808
def DAC_CFG : Nat := 0x4008080C
def DAC_CFG_FS : Fld := ⟨DAC_CFG, 16, 16⟩
def DAC_CFG_ZERO : Fld := ⟨DAC_CFG, 0, 16⟩
def STEP_CFG : Nat := 0x40080810
def LEVEL_CFG : Nat := 0x40080814
def LEVEL_CFG_RELEV_V : Fld := ⟨LEVEL_CFG, 16, 16⟩
def LEVEL_CFG_RELEV_THR : Fld := ⟨LEVEL_CFG, 0, 16⟩
def RELEV_CFG : Nat := 0x40080818
def RELEV_CFG_EN : Fld := ⟨RELEV_CFG, 31, 1⟩
def RELEV_CFG_MAXD : Fld := ⟨RELEV_CFG, 16, 8⟩
def RELEV_CFG_T : Fld := ⟨RELEV_CFG, 0, 16⟩
def LEVEL_ERR : Nat := 0x4008081C
def GEAR_CFG : Nat := 0x40080900
def GEAR_CFG_EN : Fld := ⟨GEAR_CFG, 31, 1⟩
def GEAR_CFG_MASTER : Fld := ⟨GEAR_CFG, 24, 4⟩
def GEAR_MSCALE : Nat := 0x40080904
def GEAR_RATIO : Nat := 0x40080908
def GEAR_RATIO_NUM : Fld := ⟨GEAR_RATIO, 16, 16⟩
def GEAR_RATIO_DEN : Fld := ⟨GEAR_RATIO, 0, 16⟩
def GEAR_NEXT : Nat := 0x4008090C
def GEAR_NEXT_NUM : Fld := ⟨GEAR_NEXT, 16, 16⟩
def GEAR_NEXT_DEN : Fld := ⟨GEAR_NEXT, 0, 16⟩
def GEAR_AT_LO : Nat := 0x40080910
def GEAR_AT_HI : Nat := 0x40080914
def GEAR_SW : Nat := 0x40080918
def GEAR_SW_ARM : Fld := ⟨GEAR_SW, 0, 1⟩
def GEAR_STS : Nat := 0x4008091C
def GEAR_STS_ENGAGED : Fld := ⟨GEAR_STS, 31, 1⟩
def GEAR_STS_SW_ARMED : Fld := ⟨GEAR_STS, 30, 1⟩
def GEAR_STS_SWITCHES : Fld := ⟨GEAR_STS, 0, 16⟩
end MOTION

namespace CTRL
def SL_CFG (l s : Nat) : Nat := 0x40090000 + 0x100000000 * (l + 1) + 0x100 * s
def SL_CFG_EN (l s : Nat) : Fld := ⟨SL_CFG l s, 31, 1⟩
def SL_CFG_DIV (l s : Nat) : Fld := ⟨SL_CFG l s, 28, 3⟩
def SL_CFG_PHASE (l s : Nat) : Fld := ⟨SL_CFG l s, 24, 4⟩
def SL_CFG_BQ0_EN (l s : Nat) : Fld := ⟨SL_CFG l s, 23, 1⟩
def SL_CFG_BQ0_ERR (l s : Nat) : Fld := ⟨SL_CFG l s, 22, 1⟩
def SL_CFG_BQ1_EN (l s : Nat) : Fld := ⟨SL_CFG l s, 21, 1⟩
def SL_CFG_RC_EN (l s : Nat) : Fld := ⟨SL_CFG l s, 20, 1⟩
def SL_CFG_RAMP_EN (l s : Nat) : Fld := ⟨SL_CFG l s, 19, 1⟩
def SL_CFG_DMEAS (l s : Nat) : Fld := ⟨SL_CFG l s, 18, 1⟩
def SL_CFG_AW (l s : Nat) : Fld := ⟨SL_CFG l s, 17, 1⟩
def SL_CFG_ILIM_EN (l s : Nat) : Fld := ⟨SL_CFG l s, 16, 1⟩
def SL_CFG_OUT_PHASE (l s : Nat) : Fld := ⟨SL_CFG l s, 0, 7⟩
def SL_SRC (l s : Nat) : Nat := 0x40090004 + 0x100000000 * (l + 1) + 0x100 * s
def SL_SRC_MEAS (l s : Nat) : Fld := ⟨SL_SRC l s, 24, 8⟩
def SL_SRC_SP (l s : Nat) : Fld := ⟨SL_SRC l s, 16, 8⟩
def SL_SRC_FF (l s : Nat) : Fld := ⟨SL_SRC l s, 8, 8⟩
def SL_SRC_IDX (l s : Nat) : Fld := ⟨SL_SRC l s, 0, 8⟩
def SL_SHIFT (l s : Nat) : Nat := 0x40090008 + 0x100000000 * (l + 1) + 0x100 * s
def SL_SHIFT_SHIFT (l s : Nat) : Fld := ⟨SL_SHIFT l s, 24, 5⟩
def SL_SHIFT_FFSHIFT (l s : Nat) : Fld := ⟨SL_SHIFT l s, 16, 5⟩
def SL_DST (l s : Nat) : Nat := 0x4009000C + 0x100000000 * (l + 1) + 0x100 * s
def SL_DST_DST (l s : Nat) : Fld := ⟨SL_DST l s, 0, 8⟩
def KP (l s : Nat) : Nat := 0x40090010 + 0x100000000 * (l + 1) + 0x100 * s
def KI (l s : Nat) : Nat := 0x40090014 + 0x100000000 * (l + 1) + 0x100 * s
def KD (l s : Nat) : Nat := 0x40090018 + 0x100000000 * (l + 1) + 0x100 * s
def KFF (l s : Nat) : Nat := 0x4009001C + 0x100000000 * (l + 1) + 0x100 * s
def I_LO (l s : Nat) : Nat := 0x40090020 + 0x100000000 * (l + 1) + 0x100 * s
def OUT_LO (l s : Nat) : Nat := 0x4009002C + 0x100000000 * (l + 1) + 0x100 * s
def I_HI (l s : Nat) : Nat := 0x40090024 + 0x100000000 * (l + 1) + 0x100 * s
def OUT_HI (l s : Nat) : Nat := 0x40090030 + 0x100000000 * (l + 1) + 0x100 * s
def I_PRESET (l s : Nat) : Nat := 0x40090028 + 0x100000000 * (l + 1) + 0x100 * s
def OUT_SAFE (l s : Nat) : Nat := 0x40090034 + 0x100000000 * (l + 1) + 0x100 * s
def SP_CONST (l s : Nat) : Nat := 0x40090038 + 0x100000000 * (l + 1) + 0x100 * s
def RAMP_RATE (l s : Nat) : Nat := 0x4009003C + 0x100000000 * (l + 1) + 0x100 * s
def BQ0_B0 (l s : Nat) : Nat := 0x40090040 + 0x100000000 * (l + 1) + 0x100 * s
def BQ0_B1 (l s : Nat) : Nat := 0x40090044 + 0x100000000 * (l + 1) + 0x100 * s
def BQ0_B2 (l s : Nat) : Nat := 0x40090048 + 0x100000000 * (l + 1) + 0x100 * s
def BQ0_A1 (l s : Nat) : Nat := 0x4009004C + 0x100000000 * (l + 1) + 0x100 * s
def BQ0_A2 (l s : Nat) : Nat := 0x40090050 + 0x100000000 * (l + 1) + 0x100 * s
def BQ1_B0 (l s : Nat) : Nat := 0x40090054 + 0x100000000 * (l + 1) + 0x100 * s
def BQ1_B1 (l s : Nat) : Nat := 0x40090058 + 0x100000000 * (l + 1) + 0x100 * s
def BQ1_B2 (l s : Nat) : Nat := 0x4009005C + 0x100000000 * (l + 1) + 0x100 * s
def BQ1_A1 (l s : Nat) : Nat := 0x40090060 + 0x100000000 * (l + 1) + 0x100 * s
def BQ1_A2 (l s : Nat) : Nat := 0x40090064 + 0x100000000 * (l + 1) + 0x100 * s
def RC_CFG (l s : Nat) : Nat := 0x40090068 + 0x100000000 * (l + 1) + 0x100 * s
def RC_CFG_MODE (l s : Nat) : Fld := ⟨RC_CFG l s, 30, 2⟩
def RC_CFG_CELLS (l s : Nat) : Fld := ⟨RC_CFG l s, 29, 1⟩
def RC_CFG_FREEZE (l s : Nat) : Fld := ⟨RC_CFG l s, 28, 1⟩
def RC_CFG_APPLY (l s : Nat) : Fld := ⟨RC_CFG l s, 27, 1⟩
def RC_CFG_LEAD (l s : Nat) : Fld := ⟨RC_CFG l s, 16, 10⟩
def RC_CFG_FORGET (l s : Nat) : Fld := ⟨RC_CFG l s, 8, 5⟩
def RC_GAIN (l s : Nat) : Nat := 0x4009006C + 0x100000000 * (l + 1) + 0x100 * s
def RC_SPAN (l s : Nat) : Nat := 0x40090070 + 0x100000000 * (l + 1) + 0x100 * s
def RC_ORG_LO (l s : Nat) : Nat := 0x40090074 + 0x100000000 * (l + 1) + 0x100 * s
def RC_ORG_HI (l s : Nat) : Nat := 0x40090078 + 0x100000000 * (l + 1) + 0x100 * s
def RC_EMAX (l s : Nat) : Nat := 0x4009007C + 0x100000000 * (l + 1) + 0x100 * s
def SL_CMD (l s : Nat) : Nat := 0x40090080 + 0x100000000 * (l + 1) + 0x100 * s
def SL_CMD_CLR_I (l s : Nat) : Fld := ⟨SL_CMD l s, 4, 1⟩
def SL_CMD_CLR_CELLS (l s : Nat) : Fld := ⟨SL_CMD l s, 3, 1⟩
def SL_CMD_CLR_FLAGS (l s : Nat) : Fld := ⟨SL_CMD l s, 2, 1⟩
def SL_CMD_RESTART (l s : Nat) : Fld := ⟨SL_CMD l s, 1, 1⟩
def SL_CMD_CLR_FAULT (l s : Nat) : Fld := ⟨SL_CMD l s, 0, 1⟩
def SL_STS (l s : Nat) : Nat := 0x40090084 + 0x100000000 * (l + 1) + 0x100 * s
def SL_STS_FRZ_CAUSE (l s : Nat) : Fld := ⟨SL_STS l s, 12, 3⟩
def SL_STS_FROZEN (l s : Nat) : Fld := ⟨SL_STS l s, 11, 1⟩
def SL_STS_MINOR (l s : Nat) : Fld := ⟨SL_STS l s, 10, 1⟩
def SL_STS_MIS (l s : Nat) : Fld := ⟨SL_STS l s, 9, 1⟩
def SL_STS_ILIMIT (l s : Nat) : Fld := ⟨SL_STS l s, 8, 1⟩
def SL_STS_WRAP (l s : Nat) : Fld := ⟨SL_STS l s, 7, 1⟩
def SL_STS_LIMITED (l s : Nat) : Fld := ⟨SL_STS l s, 6, 1⟩
def SL_STS_STATE (l s : Nat) : Fld := ⟨SL_STS l s, 0, 4⟩
def SL_OUT (l s : Nat) : Nat := 0x40090088 + 0x100000000 * (l + 1) + 0x100 * s
def SL_ERR (l s : Nat) : Nat := 0x4009008C + 0x100000000 * (l + 1) + 0x100 * s
def SL_I (l s : Nat) : Nat := 0x40090090 + 0x100000000 * (l + 1) + 0x100 * s
def SL_RCIDX (l s : Nat) : Nat := 0x40090094 + 0x100000000 * (l + 1) + 0x100 * s
def SL_RUNS (l s : Nat) : Nat := 0x40090098 + 0x100000000 * (l + 1) + 0x100 * s
def ENG_LOAD (l : Nat) : Nat := 0x40090C00 + 0x100000000 * (l + 1)
def ENG_LOAD_WORST_P (l : Nat) : Fld := ⟨ENG_LOAD l, 16, 4⟩
def ENG_LOAD_CYCLES (l : Nat) : Fld := ⟨ENG_LOAD l, 0, 16⟩
def ENG_MIS (l : Nat) : Nat := 0x40090C04 + 0x100000000 * (l + 1)
def CELL (l s i : Nat) : Nat := 0x40092000 + 0x100000000 * (l + 1) + 0x1000 * s + 0x4 * i
end CTRL

namespace DOOR
def DRV_CFG (d : Nat) : Nat := 0x400A0000 + 0x100 * d
def DRV_CFG_EN (d : Nat) : Fld := ⟨DRV_CFG d, 31, 1⟩
def DRV_CFG_MODE (d : Nat) : Fld := ⟨DRV_CFG d, 29, 2⟩
def DRV_CFG_SYNC (d : Nat) : Fld := ⟨DRV_CFG d, 28, 1⟩
def DRV_CFG_TRIP_EN (d : Nat) : Fld := ⟨DRV_CFG d, 27, 1⟩
def DRV_CFG_TRIP_POL (d : Nat) : Fld := ⟨DRV_CFG d, 26, 1⟩
def DRV_CFG_ADV (d : Nat) : Fld := ⟨DRV_CFG d, 25, 1⟩
def PWM_CFG (d : Nat) : Nat := 0x400A0004 + 0x100 * d
def PWM_CFG_PER (d : Nat) : Fld := ⟨PWM_CFG d, 16, 14⟩
def PWM_CFG_DT (d : Nat) : Fld := ⟨PWM_CFG d, 0, 10⟩
def ANG_CFG (d : Nat) : Nat := 0x400A0008 + 0x100 * d
def ANG_CFG_SRC (d : Nat) : Fld := ⟨ANG_CFG d, 24, 4⟩
def ANG_CFG_PP (d : Nat) : Fld := ⟨ANG_CFG d, 0, 8⟩
def ANG_CPR (d : Nat) : Nat := 0x400A000C + 0x100 * d
def ANG_CPR_CPR (d : Nat) : Fld := ⟨ANG_CPR d, 0, 20⟩
def ANG_OFF (d : Nat) : Nat := 0x400A0010 + 0x100 * d
def SENSE_CFG (d : Nat) : Nat := 0x400A0014 + 0x100 * d
def SENSE_CFG_CH_U (d : Nat) : Fld := ⟨SENSE_CFG d, 28, 4⟩
def SENSE_CFG_CH_V (d : Nat) : Fld := ⟨SENSE_CFG d, 24, 4⟩
def SENSE_CFG_CH_VBUS (d : Nat) : Fld := ⟨SENSE_CFG d, 20, 4⟩
def ELEC1 (d : Nat) : Nat := 0x400A0018 + 0x100 * d
def ELEC1_CUR_FS (d : Nat) : Fld := ⟨ELEC1 d, 16, 16⟩
def ELEC1_VBUS_FS (d : Nat) : Fld := ⟨ELEC1 d, 0, 16⟩
def ELEC2 (d : Nat) : Nat := 0x400A001C + 0x100 * d
def ELEC2_MOT_R (d : Nat) : Fld := ⟨ELEC2 d, 16, 16⟩
def ELEC2_MOT_L (d : Nat) : Fld := ⟨ELEC2 d, 0, 16⟩
def FORCE_K (d : Nat) : Nat := 0x400A0020 + 0x100 * d
def STP_PI (d : Nat) : Nat := 0x400A0024 + 0x100 * d
def STP_PI_KP (d : Nat) : Fld := ⟨STP_PI d, 16, 16⟩
def STP_PI_KI (d : Nat) : Fld := ⟨STP_PI d, 0, 16⟩
def STP_IAMP (d : Nat) : Nat := 0x400A0028 + 0x100 * d
def MASS_CFG (d : Nat) : Nat := 0x400A002C + 0x100 * d
def MASS_CFG_MASS (d : Nat) : Fld := ⟨MASS_CFG d, 16, 16⟩
def MASS_CFG_AUX (d : Nat) : Fld := ⟨MASS_CFG d, 0, 16⟩
def INERTIA (d : Nat) : Nat := 0x400A0030 + 0x100 * d
def INERTIA_MASS (d : Nat) : Fld := ⟨INERTIA d, 0, 16⟩
def OBS_CFG (d : Nat) : Nat := 0x400A0034 + 0x100 * d
def OBS_CFG_FORCE_EN (d : Nat) : Fld := ⟨OBS_CFG d, 31, 1⟩
def OBS_CFG_LA_EN (d : Nat) : Fld := ⟨OBS_CFG d, 30, 1⟩
def OBS_CFG_EDGE_EN (d : Nat) : Fld := ⟨OBS_CFG d, 29, 1⟩
def OBS_CFG_STALL_EN (d : Nat) : Fld := ⟨OBS_CFG d, 28, 1⟩
def OBS_CFG_NUDGE (d : Nat) : Fld := ⟨OBS_CFG d, 27, 1⟩
def OBS_CFG_AUX (d : Nat) : Fld := ⟨OBS_CFG d, 26, 1⟩
def OBS_CFG_KE_ACT (d : Nat) : Fld := ⟨OBS_CFG d, 24, 2⟩
def OBS_CFG_EDGE_POL (d : Nat) : Fld := ⟨OBS_CFG d, 23, 1⟩
def OBS_CFG_EDGE_CH (d : Nat) : Fld := ⟨OBS_CFG d, 16, 6⟩
def OBS_CFG_OBS_T (d : Nat) : Fld := ⟨OBS_CFG d, 0, 8⟩
def OBS_F (d : Nat) : Nat := 0x400A0038 + 0x100 * d
def OBS_F_CLOSE (d : Nat) : Fld := ⟨OBS_F d, 16, 16⟩
def OBS_F_OPEN (d : Nat) : Fld := ⟨OBS_F d, 0, 16⟩
def KE_LIM (d : Nat) : Nat := 0x400A003C + 0x100 * d
def KE_LIM_NORMAL (d : Nat) : Fld := ⟨KE_LIM d, 16, 16⟩
def KE_LIM_NUDGE (d : Nat) : Fld := ⟨KE_LIM d, 0, 16⟩
def BLANK (d : Nat) : Nat := 0x400A0040 + 0x100 * d
def BLANK_FORCE (d : Nat) : Fld := ⟨BLANK d, 16, 16⟩
def BLANK_EDGE (d : Nat) : Fld := ⟨BLANK d, 0, 16⟩
def TOL (d : Nat) : Nat := 0x400A0054 + 0x100 * d
def TOL_CLOSED (d : Nat) : Fld := ⟨TOL d, 16, 16⟩
def TOL_OPEN (d : Nat) : Fld := ⟨TOL d, 0, 16⟩
def LA_CFG (d : Nat) : Nat := 0x400A0044 + 0x100 * d
def LA_CFG_LA_OBS (d : Nat) : Fld := ⟨LA_CFG d, 22, 10⟩
def LA_CFG_LA_STALL (d : Nat) : Fld := ⟨LA_CFG d, 12, 10⟩
def LA_CFG_STALL_T (d : Nat) : Fld := ⟨LA_CFG d, 0, 8⟩
def STALL_CFG (d : Nat) : Nat := 0x400A0048 + 0x100 * d
def STALL_CFG_VMIN (d : Nat) : Fld := ⟨STALL_CFG d, 16, 16⟩
def STALL_CFG_IQ (d : Nat) : Fld := ⟨STALL_CFG d, 0, 16⟩
def FR_CFG (d : Nat) : Nat := 0x400A004C + 0x100 * d
def FR_CFG_LEARN (d : Nat) : Fld := ⟨FR_CFG d, 31, 1⟩
def FR_CFG_GAIN (d : Nat) : Fld := ⟨FR_CFG d, 24, 4⟩
def FR_CFG_VMIN (d : Nat) : Fld := ⟨FR_CFG d, 0, 16⟩
def STROKE (d : Nat) : Nat := 0x400A0050 + 0x100 * d
def DOOR_CMD (d : Nat) : Nat := 0x400A0058 + 0x100 * d
def DOOR_CMD_TBL_SWAP (d : Nat) : Fld := ⟨DOOR_CMD d, 4, 1⟩
def DOOR_CMD_FR_CLR (d : Nat) : Fld := ⟨DOOR_CMD d, 3, 1⟩
def DOOR_CMD_CLR_FLAGS (d : Nat) : Fld := ⟨DOOR_CMD d, 2, 1⟩
def DOOR_CMD_CLR_OBS (d : Nat) : Fld := ⟨DOOR_CMD d, 1, 1⟩
def DOOR_CMD_CLR_TRIP (d : Nat) : Fld := ⟨DOOR_CMD d, 0, 1⟩
def DOOR_STS (d : Nat) : Nat := 0x400A005C + 0x100 * d
def DOOR_STS_DSTATE (d : Nat) : Fld := ⟨DOOR_STS d, 28, 4⟩
def DOOR_STS_OBS_CAUSE (d : Nat) : Fld := ⟨DOOR_STS d, 24, 4⟩
def DOOR_STS_TRIP_CAUSE (d : Nat) : Fld := ⟨DOOR_STS d, 20, 4⟩
def DOOR_STS_TRIP_CH (d : Nat) : Fld := ⟨DOOR_STS d, 16, 4⟩
def DOOR_STS_TRIP_NOW (d : Nat) : Fld := ⟨DOOR_STS d, 5, 1⟩
def DOOR_STS_TRIP (d : Nat) : Fld := ⟨DOOR_STS d, 4, 1⟩
def DOOR_STS_PERM (d : Nat) : Fld := ⟨DOOR_STS d, 3, 1⟩
def DOOR_STS_RUNNING (d : Nat) : Fld := ⟨DOOR_STS d, 2, 1⟩
def DOOR_STS_UNSURE (d : Nat) : Fld := ⟨DOOR_STS d, 0, 1⟩
def DOOR_FLAGS (d : Nat) : Nat := 0x400A0060 + 0x100 * d
def DOOR_FLAGS_PERMIT_DROP (d : Nat) : Fld := ⟨DOOR_FLAGS d, 5, 1⟩
def DOOR_FLAGS_KE_OVER (d : Nat) : Fld := ⟨DOOR_FLAGS d, 4, 1⟩
def DOOR_FLAGS_STALL (d : Nat) : Fld := ⟨DOOR_FLAGS d, 3, 1⟩
def DOOR_FLAGS_OVERMOD (d : Nat) : Fld := ⟨DOOR_FLAGS d, 2, 1⟩
def DOOR_FLAGS_STP_FAST (d : Nat) : Fld := ⟨DOOR_FLAGS d, 1, 1⟩
def DOOR_FLAGS_OBS (d : Nat) : Fld := ⟨DOOR_FLAGS d, 0, 1⟩
def OBS_CAP_LO (d : Nat) : Nat := 0x400A0064 + 0x100 * d
def OBS_CAP_HI (d : Nat) : Nat := 0x400A0068 + 0x100 * d
def OBS_CAP_F (d : Nat) : Nat := 0x400A006C + 0x100 * d
def MS_CNT (d : Nat) : Nat := 0x400A0070 + 0x100 * d
def Q (d n : Nat) : Nat := 0x400A0080 + 0x100 * d + 0x4 * n
def ADC_CFG : Nat := 0x400A0800
def ADC_CFG_EN : Fld := ⟨ADC_CFG, 0, 16⟩
def ADC_STS : Nat := 0x400A0804
def ADC_STS_SAT : Fld := ⟨ADC_STS, 16, 16⟩
def ADC_STS_INVALID : Fld := ⟨ADC_STS, 0, 16⟩
def ADC_CLR : Nat := 0x400A0808
def ADC_CLR_SAT : Fld := ⟨ADC_CLR, 0, 1⟩
def ADC_ZERO (n : Nat) : Nat := 0x400A0840 + 0x4 * n
def ADC_ZERO_CODE (n : Nat) : Fld := ⟨ADC_ZERO n, 0, 16⟩
def ADC_RAW (n : Nat) : Nat := 0x400A0880 + 0x4 * n
def ADC_RAW_CODE (n : Nat) : Fld := ⟨ADC_RAW n, 0, 16⟩
def ADC_LIM (n : Nat) : Nat := 0x400A08C0 + 0x4 * n
def ADC_LIM_HI (n : Nat) : Fld := ⟨ADC_LIM n, 16, 16⟩
def ADC_LIM_LO (n : Nat) : Fld := ⟨ADC_LIM n, 0, 16⟩
def ADC_LIMACT : Nat := 0x400A0900
def PROF_CTL : Nat := 0x400A0940
def PROF_CTL_GO : Fld := ⟨PROF_CTL, 31, 1⟩
def PROF_CTL_OP : Fld := ⟨PROF_CTL, 30, 1⟩
def PROF_CTL_KIND : Fld := ⟨PROF_CTL, 28, 2⟩
def PROF_CTL_TARGET : Fld := ⟨PROF_CTL, 24, 4⟩
def PROF_CTL_REC : Fld := ⟨PROF_CTL, 0, 5⟩
def PROF_STS : Nat := 0x400A0944
def PROF_STS_STATE : Fld := ⟨PROF_STS, 30, 2⟩
def PROF_STS_CAUSE : Fld := ⟨PROF_STS, 26, 4⟩
def PROF_STS_REC : Fld := ⟨PROF_STS, 21, 5⟩
def PROF_STS_SEQ : Fld := ⟨PROF_STS, 0, 16⟩
def STEP_TBL (d i : Nat) : Nat := 0x400A1000 + 0x1000 * d + 0x4 * i
def STEP_TBL_T (d i : Nat) : Fld := ⟨STEP_TBL d i, 0, 16⟩
def FRIC (d r i : Nat) : Nat := 0x400A3000 + 0x800 * d + 0x400 * r + 0x4 * i
end DOOR

namespace DISPATCH
def DSP_CFG : Nat := 0x400B0000
def DSP_CFG_EN : Fld := ⟨DSP_CFG, 31, 1⟩
def DSP_CFG_PARK_BID : Fld := ⟨DSP_CFG, 30, 1⟩
def DSP_CFG_VLAN : Fld := ⟨DSP_CFG, 29, 1⟩
def DSP_CFG_PCP : Fld := ⟨DSP_CFG, 26, 3⟩
def DSP_CFG_NET : Fld := ⟨DSP_CFG, 24, 2⟩
def DSP_CFG_CAR : Fld := ⟨DSP_CFG, 20, 4⟩
def DSP_CFG_ANN_REP : Fld := ⟨DSP_CFG, 16, 4⟩
def DSP_CFG_DFREEZE : Fld := ⟨DSP_CFG, 15, 1⟩
def DSP_CFG_NARROW : Fld := ⟨DSP_CFG, 14, 1⟩
def DSP_CFG_VID : Fld := ⟨DSP_CFG, 0, 12⟩
def DSP_GROUP : Nat := 0x400B0004
def DSP_MASK : Nat := 0x400B0008
def DSP_MASK_CARS : Fld := ⟨DSP_MASK, 0, 16⟩
def DSP_MAC_LO : Nat := 0x400B000C
def DSP_MAC_HI : Nat := 0x400B0010
def DSP_V : Nat := 0x400B0014
def DSP_A : Nat := 0x400B0018
def DSP_J : Nat := 0x400B001C
def DSP_TIM : Nat := 0x400B0020
def DSP_TIM_START : Fld := ⟨DSP_TIM, 16, 16⟩
def DSP_TIM_WAKE : Fld := ⟨DSP_TIM, 0, 16⟩
def DSP_DWELL : Nat := 0x400B0024
def DSP_DWELL_HALL : Fld := ⟨DSP_DWELL, 16, 16⟩
def DSP_DWELL_CAR : Fld := ⟨DSP_DWELL, 0, 16⟩
def DSP_DOOR_INIT : Nat := 0x400B0028
def DSP_DOOR_INIT_OPEN : Fld := ⟨DSP_DOOR_INIT, 16, 16⟩
def DSP_DOOR_INIT_CLOSE : Fld := ⟨DSP_DOOR_INIT, 0, 16⟩
def DSP_W1 : Nat := 0x400B002C
def DSP_W1_W_WAIT : Fld := ⟨DSP_W1, 16, 16⟩
def DSP_W1_W_RIDE : Fld := ⟨DSP_W1, 0, 16⟩
def DSP_W2 : Nat := 0x400B0030
def DSP_W2_W_DELAY : Fld := ⟨DSP_W2, 16, 16⟩
def DSP_W2_W_ENERGY : Fld := ⟨DSP_W2, 0, 16⟩
def DSP_W3 : Nat := 0x400B0034
def DSP_W3_W_LOAD : Fld := ⟨DSP_W3, 16, 16⟩
def DSP_W3_MARGIN : Fld := ⟨DSP_W3, 0, 16⟩
def DSP_LOAD : Nat := 0x400B0038
def DSP_LOAD_FULL : Fld := ⟨DSP_LOAD, 24, 8⟩
def DSP_LOAD_THR : Fld := ⟨DSP_LOAD, 16, 8⟩
def DSP_LOAD_LOAD : Fld := ⟨DSP_LOAD, 0, 8⟩
def CALL_WIN : Nat := 0x400B0040
def CALL_WIN_OP : Fld := ⟨CALL_WIN, 28, 4⟩
def CALL_WIN_ACCESS : Fld := ⟨CALL_WIN, 26, 1⟩
def CALL_WIN_REAR : Fld := ⟨CALL_WIN, 25, 1⟩
def CALL_WIN_FRONT : Fld := ⟨CALL_WIN, 24, 1⟩
def CALL_WIN_ORIGIN : Fld := ⟨CALL_WIN, 16, 7⟩
def CALL_WIN_DIR : Fld := ⟨CALL_WIN, 15, 1⟩
def CALL_WIN_DEST : Fld := ⟨CALL_WIN, 8, 7⟩
def CALL_WIN_PAX : Fld := ⟨CALL_WIN, 0, 8⟩
def CALL_REC : Nat := 0x400B0044
def CALL_REC_REC : Fld := ⟨CALL_REC, 0, 10⟩
def CALL_CMD : Nat := 0x400B0048
def CALL_CMD_GO : Fld := ⟨CALL_CMD, 0, 1⟩
def DSP_STS : Nat := 0x400B0050
def DSP_STS_GSTATE : Fld := ⟨DSP_STS, 28, 4⟩
def DSP_STS_EVAL_BUSY : Fld := ⟨DSP_STS, 27, 1⟩
def DSP_STS_DIVERGE : Fld := ⟨DSP_STS, 26, 1⟩
def DSP_STS_ANN_FULL : Fld := ⟨DSP_STS, 25, 1⟩
def DSP_STS_STOPS : Fld := ⟨DSP_STS, 8, 8⟩
def DSP_STS_ANN : Fld := ⟨DSP_STS, 0, 8⟩
def DSP_MEMB : Nat := 0x400B0054
def DSP_MEMB_HEARD : Fld := ⟨DSP_MEMB, 16, 16⟩
def DSP_MEMB_MEMBER : Fld := ⟨DSP_MEMB, 0, 16⟩
def DSP_EPOCH : Nat := 0x400B0058
def DSP_EVAL : Nat := 0x400B005C
def DSP_EVAL_N : Fld := ⟨DSP_EVAL, 21, 11⟩
def DSP_EVAL_EVAL_US : Fld := ⟨DSP_EVAL, 0, 16⟩
def DSP_BANK : Nat := 0x400B0060
def DSP_BANK_BANK : Fld := ⟨DSP_BANK, 29, 3⟩
def DSP_BANK_CNT : Fld := ⟨DSP_BANK, 16, 11⟩
def DSP_ERR : Nat := 0x400B0064
def DSP_ERR_CRC : Fld := ⟨DSP_ERR, 26, 6⟩
def DSP_ERR_LATE : Fld := ⟨DSP_ERR, 20, 6⟩
def DSP_ERR_EPOCH : Fld := ⟨DSP_ERR, 14, 6⟩
def DSP_ERR_DUP : Fld := ⟨DSP_ERR, 8, 6⟩
def DSP_ERR_BIAS : Fld := ⟨DSP_ERR, 4, 4⟩
def DSP_ERR_UNKNOWN : Fld := ⟨DSP_ERR, 0, 4⟩
def DSP_CLR : Nat := 0x400B0068
def DSP_CLR_MISS : Fld := ⟨DSP_CLR, 2, 1⟩
def DSP_CLR_ERR : Fld := ⟨DSP_CLR, 1, 1⟩
def DSP_CLR_DIVERGE : Fld := ⟨DSP_CLR, 0, 1⟩
def STOP_NEXT : Nat := 0x400B006C
def STOP_NEXT_VALID : Fld := ⟨STOP_NEXT, 31, 1⟩
def STOP_NEXT_COMMITTED : Fld := ⟨STOP_NEXT, 30, 1⟩
def STOP_NEXT_PHASE : Fld := ⟨STOP_NEXT, 28, 2⟩
def STOP_NEXT_LANDING : Fld := ⟨STOP_NEXT, 16, 7⟩
def STOP_NEXT_FLAGS : Fld := ⟨STOP_NEXT, 8, 8⟩
def DSP_DOORL (d : Nat) : Nat := 0x400B0070 + 0x4 * d
def DSP_DOORL_OPEN (d : Nat) : Fld := ⟨DSP_DOORL d, 16, 16⟩
def DSP_DOORL_CLOSE (d : Nat) : Fld := ⟨DSP_DOORL d, 0, 16⟩
def TBL_STS : Nat := 0x400B0078
def TBL_STS_BANK : Fld := ⟨TBL_STS, 0, 1⟩
def DSP_MISS (c : Nat) : Nat := 0x400B0080 + 0x4 * c
def DSP_MISS_RUN (c : Nat) : Fld := ⟨DSP_MISS c, 24, 8⟩
def DSP_MISS_TOTAL (c : Nat) : Fld := ⟨DSP_MISS c, 0, 24⟩
end DISPATCH

namespace SAFE
def CTL (l : Nat) : Nat := 0x400C0000 + 0x100000000 * (l + 1)
def CTL_ARM (l : Nat) : Fld := ⟨CTL l, 31, 1⟩
def CTL_LOCK (l : Nat) : Fld := ⟨CTL l, 30, 1⟩
def CTL_RELEASE (l : Nat) : Fld := ⟨CTL l, 29, 1⟩
def CTL_RESET (l : Nat) : Fld := ⟨CTL l, 28, 1⟩
def STS (l : Nat) : Nat := 0x400C0004 + 0x100000000 * (l + 1)
def STS_ARMED (l : Nat) : Fld := ⟨STS l, 31, 1⟩
def STS_LOCKED (l : Nat) : Fld := ⟨STS l, 30, 1⟩
def STS_STOP (l : Nat) : Fld := ⟨STS l, 29, 1⟩
def STS_STOP_MAJ (l : Nat) : Fld := ⟨STS l, 28, 1⟩
def STS_DCL (l : Nat) : Fld := ⟨STS l, 27, 1⟩
def STS_FOREIGN (l : Nat) : Fld := ⟨STS l, 26, 1⟩
def STS_OPEN_F (l : Nat) : Fld := ⟨STS l, 25, 1⟩
def STS_OPEN_R (l : Nat) : Fld := ⟨STS l, 24, 1⟩
def STS_ZONE_F (l : Nat) : Fld := ⟨STS l, 23, 1⟩
def STS_ZONE_R (l : Nat) : Fld := ⟨STS l, 22, 1⟩
def STS_PERM_F (l : Nat) : Fld := ⟨STS l, 21, 1⟩
def STS_PERM_R (l : Nat) : Fld := ⟨STS l, 20, 1⟩
def STS_PRE (l : Nat) : Fld := ⟨STS l, 19, 1⟩
def STS_AT_REST (l : Nat) : Fld := ⟨STS l, 18, 1⟩
def STS_GATE (l : Nat) : Fld := ⟨STS l, 12, 4⟩
def STS_GATE_MAJ (l : Nat) : Fld := ⟨STS l, 8, 4⟩
def TRIP (l : Nat) : Nat := 0x400C0008 + 0x100000000 * (l + 1)
def TRIP_DISC (l : Nat) : Fld := ⟨TRIP l, 7, 1⟩
def TRIP_SPEED (l : Nat) : Fld := ⟨TRIP l, 6, 1⟩
def TRIP_BRAKE (l : Nat) : Fld := ⟨TRIP l, 5, 1⟩
def TRIP_UCM (l : Nat) : Fld := ⟨TRIP l, 4, 1⟩
def TRIP_OVERSPEED (l : Nat) : Fld := ⟨TRIP l, 3, 1⟩
def TRIP_DOOR_MOVE (l : Nat) : Fld := ⟨TRIP l, 2, 1⟩
def FIRST (l : Nat) : Nat := 0x400C000C + 0x100000000 * (l + 1)
def FIRST_CAUSE (l : Nat) : Fld := ⟨FIRST l, 28, 4⟩
def FIRST_SRC (l : Nat) : Fld := ⟨FIRST l, 24, 4⟩
def FIRST_NODE (l : Nat) : Fld := ⟨FIRST l, 16, 8⟩
def FIRST_STAMP (l : Nat) : Nat := 0x400C0010 + 0x100000000 * (l + 1)
def SPD_CFG (l : Nat) : Nat := 0x400C0020 + 0x100000000 * (l + 1)
def SPD_CFG_EN (l : Nat) : Fld := ⟨SPD_CFG l, 31, 1⟩
def SPD_CFG_INV (l : Nat) : Fld := ⟨SPD_CFG l, 30, 1⟩
def SPD_CFG_ENC (l : Nat) : Fld := ⟨SPD_CFG l, 27, 3⟩
def SPD_CFG_FILT (l : Nat) : Fld := ⟨SPD_CFG l, 8, 8⟩
def SPD_CFG_OS_CONF (l : Nat) : Fld := ⟨SPD_CFG l, 0, 8⟩
def SPD_SCALE (l : Nat) : Nat := 0x400C0024 + 0x100000000 * (l + 1)
def OS_NORM (l : Nat) : Nat := 0x400C0028 + 0x100000000 * (l + 1)
def OS_INSP (l : Nat) : Nat := 0x400C002C + 0x100000000 * (l + 1)
def OS_RESC (l : Nat) : Nat := 0x400C0030 + 0x100000000 * (l + 1)
def DOOR_CFG (l : Nat) : Nat := 0x400C0034 + 0x100000000 * (l + 1)
def DOOR_CFG_PRE_V (l : Nat) : Fld := ⟨DOOR_CFG l, 16, 16⟩
def DOOR_CFG_PERM_V (l : Nat) : Fld := ⟨DOOR_CFG l, 0, 16⟩
def DOOR_CFG2 (l : Nat) : Nat := 0x400C0038 + 0x100000000 * (l + 1)
def DOOR_CFG2_PRE_EN (l : Nat) : Fld := ⟨DOOR_CFG2 l, 31, 1⟩
def DOOR_CFG2_PRE_HYST (l : Nat) : Fld := ⟨DOOR_CFG2 l, 16, 8⟩
def DOOR_CFG2_DC_CONF (l : Nat) : Fld := ⟨DOOR_CFG2 l, 8, 8⟩
def DOOR_CFG2_UCM_CONF (l : Nat) : Fld := ⟨DOOR_CFG2 l, 0, 8⟩
def REST (l : Nat) : Nat := 0x400C003C + 0x100000000 * (l + 1)
def REST_REST_T (l : Nat) : Fld := ⟨REST l, 16, 16⟩
def REST_REST_V (l : Nat) : Fld := ⟨REST l, 0, 16⟩
def BRK_CFG (l : Nat) : Nat := 0x400C0040 + 0x100000000 * (l + 1)
def BRK_CFG_BRK_T (l : Nat) : Fld := ⟨BRK_CFG l, 0, 16⟩
def PLAUS (l : Nat) : Nat := 0x400C0044 + 0x100000000 * (l + 1)
def PLAUS_PLAUS_V (l : Nat) : Fld := ⟨PLAUS l, 16, 16⟩
def PLAUS_PLAUS_T (l : Nat) : Fld := ⟨PLAUS l, 0, 16⟩
def IN (l r : Nat) : Nat := 0x400C0080 + 0x100000000 * (l + 1) + 0x4 * r
def IN_EN (l r : Nat) : Fld := ⟨IN l r, 31, 1⟩
def IN_POL (l r : Nat) : Fld := ⟨IN l r, 30, 1⟩
def IN_TESTED (l r : Nat) : Fld := ⟨IN l r, 29, 1⟩
def IN_PULSE_CH (l r : Nat) : Fld := ⟨IN l r, 16, 6⟩
def IN_CH (l r : Nat) : Fld := ⟨IN l r, 8, 6⟩
def IN_FILT (l r : Nat) : Fld := ⟨IN l r, 0, 8⟩
def GRP (l k : Nat) : Nat := 0x400C00A0 + 0x100000000 * (l + 1) + 0x4 * k
def BUOY_EN (l k : Nat) : Nat := 0x400C00B0 + 0x100000000 * (l + 1) + 0x4 * k
def SPEED (l : Nat) : Nat := 0x400C00C0 + 0x100000000 * (l + 1)
def VMIN (l : Nat) : Nat := 0x400C00C4 + 0x100000000 * (l + 1)
def VMIN_R (l : Nat) : Nat := 0x400C00CC + 0x100000000 * (l + 1)
def IN_LVL (l : Nat) : Nat := 0x400C00C8 + 0x100000000 * (l + 1)
def IN_LVL_LVL (l : Nat) : Fld := ⟨IN_LVL l, 0, 8⟩
end SAFE

namespace FIELD
def CH_CFG (n : Nat) : Nat := 0x400D0000 + 0x20 * n
def CH_CFG_MODE (n : Nat) : Fld := ⟨CH_CFG n, 30, 2⟩
def CH_CFG_TYPE (n : Nat) : Fld := ⟨CH_CFG n, 29, 1⟩
def CH_CFG_POL (n : Nat) : Fld := ⟨CH_CFG n, 28, 1⟩
def CH_CFG_WB_EN (n : Nat) : Fld := ⟨CH_CFG n, 27, 1⟩
def CH_CFG_OL_EN (n : Nat) : Fld := ⟨CH_CFG n, 26, 1⟩
def CH_CFG_PAIR (n : Nat) : Fld := ⟨CH_CFG n, 24, 2⟩
def CH_CFG_TOL_ON (n : Nat) : Fld := ⟨CH_CFG n, 23, 1⟩
def CH_CFG_CNT (n : Nat) : Fld := ⟨CH_CFG n, 21, 2⟩
def CH_CFG_PER_EN (n : Nat) : Fld := ⟨CH_CFG n, 20, 1⟩
def CH_CFG_CAP (n : Nat) : Fld := ⟨CH_CFG n, 18, 2⟩
def CH_CFG_CHG_EV (n : Nat) : Fld := ⟨CH_CFG n, 17, 1⟩
def CH_CFG_FILT (n : Nat) : Fld := ⟨CH_CFG n, 8, 8⟩
def CH_CFG_CFILT (n : Nat) : Fld := ⟨CH_CFG n, 0, 8⟩
def CH_OUT (n : Nat) : Nat := 0x400D0004 + 0x20 * n
def CH_OUT_ON (n : Nat) : Fld := ⟨CH_OUT n, 0, 1⟩
def CH_TEST (n : Nat) : Nat := 0x400D0008 + 0x20 * n
def CH_TEST_OFF_EN (n : Nat) : Fld := ⟨CH_TEST n, 31, 1⟩
def CH_TEST_ON_EN (n : Nat) : Fld := ⟨CH_TEST n, 30, 1⟩
def CH_TEST_OFF_W (n : Nat) : Fld := ⟨CH_TEST n, 24, 6⟩
def CH_TEST_ON_W (n : Nat) : Fld := ⟨CH_TEST n, 18, 6⟩
def CH_TEST_INTERVAL (n : Nat) : Fld := ⟨CH_TEST n, 0, 6⟩
def CH_STS (n : Nat) : Nat := 0x400D000C + 0x20 * n
def CH_STS_IN (n : Nat) : Fld := ⟨CH_STS n, 31, 1⟩
def CH_STS_RB (n : Nat) : Fld := ⟨CH_STS n, 30, 1⟩
def CH_STS_SW (n : Nat) : Fld := ⟨CH_STS n, 29, 1⟩
def CH_STS_VALID (n : Nat) : Fld := ⟨CH_STS n, 28, 1⟩
def CH_STS_QUEUED (n : Nat) : Fld := ⟨CH_STS n, 27, 1⟩
def CH_STS_HELD (n : Nat) : Fld := ⟨CH_STS n, 26, 1⟩
def CH_STS_DENIED (n : Nat) : Fld := ⟨CH_STS n, 25, 1⟩
def CH_STS_LATCHED (n : Nat) : Fld := ⟨CH_STS n, 24, 1⟩
def CH_STS_WB (n : Nat) : Fld := ⟨CH_STS n, 23, 1⟩
def CH_STS_OPEN (n : Nat) : Fld := ⟨CH_STS n, 22, 1⟩
def CH_STS_STV (n : Nat) : Fld := ⟨CH_STS n, 21, 1⟩
def CH_STS_STG (n : Nat) : Fld := ⟨CH_STS n, 20, 1⟩
def CH_STS_THERM (n : Nat) : Fld := ⟨CH_STS n, 19, 1⟩
def CH_STS_XSHORT (n : Nat) : Fld := ⟨CH_STS n, 18, 1⟩
def CH_STS_TEST_FAIL (n : Nat) : Fld := ⟨CH_STS n, 17, 1⟩
def CH_STS_TCYC (n : Nat) : Fld := ⟨CH_STS n, 12, 4⟩
def CH_STS_TRES (n : Nat) : Fld := ⟨CH_STS n, 8, 4⟩
def CH_STS_XCH (n : Nat) : Fld := ⟨CH_STS n, 0, 6⟩
def CH_CNT (n : Nat) : Nat := 0x400D0010 + 0x20 * n
def CH_PER (n : Nat) : Nat := 0x400D0014 + 0x20 * n
def CH_CLR (n : Nat) : Nat := 0x400D0018 + 0x20 * n
def CH_CLR_REQ (n : Nat) : Fld := ⟨CH_CLR n, 3, 1⟩
def CH_CLR_FAULT (n : Nat) : Fld := ⟨CH_CLR n, 2, 1⟩
def CH_CLR_CNT (n : Nat) : Fld := ⟨CH_CLR n, 1, 1⟩
def CH_CLR_FLAGS (n : Nat) : Fld := ⟨CH_CLR n, 0, 1⟩
def DIE_STS (k : Nat) : Nat := 0x400D0800 + 0x20 * k
def DIE_STS_VF_OK (k : Nat) : Fld := ⟨DIE_STS k, 31, 1⟩
def DIE_STS_WARN (k : Nat) : Fld := ⟨DIE_STS k, 30, 1⟩
def DIE_STS_IN_INV (k : Nat) : Fld := ⟨DIE_STS k, 29, 1⟩
def DIE_STS_UVL (k : Nat) : Fld := ⟨DIE_STS k, 28, 1⟩
def DIE_STS_REV (k : Nat) : Fld := ⟨DIE_STS k, 27, 1⟩
def DIE_STS_LINK (k : Nat) : Fld := ⟨DIE_STS k, 24, 3⟩
def DIE_VF (k : Nat) : Nat := 0x400D0804 + 0x20 * k
def DIE_VF_VFIELD (k : Nat) : Fld := ⟨DIE_VF k, 16, 16⟩
def DIE_VF_TEMP (k : Nat) : Fld := ⟨DIE_VF k, 0, 16⟩
def DIE_CTL (k : Nat) : Nat := 0x400D0808 + 0x20 * k
def DIE_CTL_RESTART (k : Nat) : Fld := ⟨DIE_CTL k, 0, 1⟩
def DIE_ERR (k : Nat) : Nat := 0x400D080C + 0x20 * k
def DIE_ERR_LINK_C (k : Nat) : Fld := ⟨DIE_ERR k, 24, 8⟩
def DIE_ERR_LINK_B (k : Nat) : Fld := ⟨DIE_ERR k, 16, 8⟩
def DIE_ERR_LINK_A (k : Nat) : Fld := ⟨DIE_ERR k, 8, 8⟩
def DIE_ERR_UVL_CNT (k : Nat) : Fld := ⟨DIE_ERR k, 0, 8⟩
def IN_LVL0 : Nat := 0x400D0900
def IN_LVL1 : Nat := 0x400D0904
def SW_LVL : Nat := 0x400D0908
end FIELD

namespace LEDGER
def DECL (n : Nat) : Nat := 0x400E0000 + 0x4 * n
def DECL_INR (n : Nat) : Fld := ⟨DECL n, 16, 16⟩
def DECL_NOM (n : Nat) : Fld := ⟨DECL n, 0, 16⟩
def DECL_T (n : Nat) : Nat := 0x400E0080 + 0x4 * n
def DECL_T_T (n : Nat) : Fld := ⟨DECL_T n, 0, 8⟩
def CFG : Nat := 0x400E0100
def CFG_WAIT_MAX : Fld := ⟨CFG, 0, 16⟩
def STS (k : Nat) : Nat := 0x400E0110 + 0x4 * k
def STS_INST (k : Nat) : Fld := ⟨STS k, 16, 16⟩
def STS_CONT (k : Nat) : Fld := ⟨STS k, 0, 16⟩
def QUEUE (k : Nat) : Nat := 0x400E0120 + 0x4 * k
def QUEUE_OVER (k : Nat) : Fld := ⟨QUEUE k, 31, 1⟩
def QUEUE_DEPTH (k : Nat) : Fld := ⟨QUEUE k, 16, 8⟩
def QUEUE_HEAD (k : Nat) : Fld := ⟨QUEUE k, 8, 6⟩
def OVER_LEFT (k : Nat) : Nat := 0x400E0130 + 0x4 * k
def OVER_LEFT_LEFT (k : Nat) : Fld := ⟨OVER_LEFT k, 0, 14⟩
def CNT (k : Nat) : Nat := 0x400E0140 + 0x4 * k
def CNT_DENIED (k : Nat) : Fld := ⟨CNT k, 16, 16⟩
def CNT_WAITED (k : Nat) : Fld := ⟨CNT k, 0, 16⟩
def CLR : Nat := 0x400E0150
def CLR_CNT : Fld := ⟨CLR, 0, 1⟩
end LEDGER

namespace RANGE
def CFG : Nat := 0x400F0000
def CFG_EN : Fld := ⟨CFG, 31, 1⟩
def CFG_AUTO : Fld := ⟨CFG, 30, 1⟩
def CFG_PARTNER : Fld := ⟨CFG, 27, 3⟩
def CFG_HB_LLP_N : Fld := ⟨CFG, 20, 4⟩
def CTL : Nat := 0x400F0004
def CTL_TAKE : Fld := ⟨CTL, 31, 1⟩
def CTL_HANDOVER : Fld := ⟨CTL, 30, 1⟩
def CTL_CLR : Fld := ⟨CTL, 29, 1⟩
def STS : Nat := 0x400F0008
def STS_STATE : Fld := ⟨STS, 28, 4⟩
def STS_HOLDS_CLAIM : Fld := ⟨STS, 27, 1⟩
def STS_HOLDS_HF : Fld := ⟨STS, 26, 1⟩
def STS_HF_SEEN : Fld := ⟨STS, 25, 1⟩
def STS_READY : Fld := ⟨STS, 24, 1⟩
def STS_P_READY : Fld := ⟨STS, 23, 1⟩
def STS_LINK_LOST : Fld := ⟨STS, 22, 1⟩
def STS_LLP_LOST : Fld := ⟨STS, 21, 1⟩
def STS_BUS : Fld := ⟨STS, 8, 8⟩
def STS_BASE : Fld := ⟨STS, 0, 7⟩
def PARTNER : Nat := 0x400F000C
def PARTNER_CLAIM : Fld := ⟨PARTNER, 24, 8⟩
def PARTNER_MODE : Fld := ⟨PARTNER, 20, 4⟩
def PARTNER_STATE : Fld := ⟨PARTNER, 16, 4⟩
def PARTNER_FLAGS : Fld := ⟨PARTNER, 8, 8⟩
def PTIDE : Nat := 0x400F0010
def MIRROR : Nat := 0x400F0014
def ERR : Nat := 0x400F0018
def ERR_CRC : Fld := ⟨ERR, 24, 8⟩
def ERR_GAP : Fld := ⟨ERR, 16, 8⟩
def ERR_ROUND : Fld := ⟨ERR, 8, 8⟩
def ERR_HF : Fld := ⟨ERR, 0, 8⟩
def GAP : Nat := 0x400F001C
def GAP_NONSAFE : Fld := ⟨GAP, 16, 16⟩
def GAP_SAFE : Fld := ⟨GAP, 0, 16⟩
def XFER (k : Nat) : Nat := 0x400F0040 + 0x4 * k
end RANGE

namespace HEALTH
def CNT_SEL (i : Nat) : Nat := 0x40100000 + 0x10 * i
def CNT_SEL_EN (i : Nat) : Fld := ⟨CNT_SEL i, 31, 1⟩
def CNT_SEL_SRC (i : Nat) : Fld := ⟨CNT_SEL i, 0, 8⟩
def CNT_LO (i : Nat) : Nat := 0x40100004 + 0x10 * i
def CNT_HI (i : Nat) : Nat := 0x40100008 + 0x10 * i
def CNT_CMP (i : Nat) : Nat := 0x4010000C + 0x10 * i
def LCNT_SEL (l j : Nat) : Nat := 0x40100400 + 0x80 * l + 0x10 * j
def LCNT_SEL_EN (l j : Nat) : Fld := ⟨LCNT_SEL l j, 31, 1⟩
def LCNT_SEL_SRC (l j : Nat) : Fld := ⟨LCNT_SEL l j, 0, 4⟩
def LCNT_LO (l j : Nat) : Nat := 0x40100404 + 0x80 * l + 0x10 * j
def LCNT_HI (l j : Nat) : Nat := 0x40100408 + 0x80 * l + 0x10 * j
def CNT_CLR : Nat := 0x40100600
def LCNT_CLR : Nat := 0x40100604
def CNT_SNAP : Nat := 0x40100608
def ST_CFG : Nat := 0x40100700
def ST_CFG_EN : Fld := ⟨ST_CFG, 31, 1⟩
def ST_REQ : Nat := 0x40100704
def ST_REQ_GO : Fld := ⟨ST_REQ, 31, 1⟩
def ST_REQ_KIND : Fld := ⟨ST_REQ, 28, 3⟩
def ST_REQ_LANE : Fld := ⟨ST_REQ, 24, 2⟩
def ST_STS : Nat := 0x40100708
def ST_STS_SLOT : Fld := ⟨ST_STS, 30, 2⟩
def ST_STS_DEFERRED : Fld := ⟨ST_STS, 29, 1⟩
def ST_STS_QUEUED : Fld := ⟨ST_STS, 28, 1⟩
def ST_STS_LATE : Fld := ⟨ST_STS, 27, 1⟩
def ST_STS_IMG_BAD : Fld := ⟨ST_STS, 26, 1⟩
def ST_STS_PROG_C : Fld := ⟨ST_STS, 16, 8⟩
def ST_STS_PROG_B : Fld := ⟨ST_STS, 8, 8⟩
def ST_STS_PROG_A : Fld := ⟨ST_STS, 0, 8⟩
def ST_PASS : Nat := 0x4010070C
def ST_PASS_PASSES : Fld := ⟨ST_PASS, 16, 16⟩
def ST_PASS_LAST_S : Fld := ⟨ST_PASS, 0, 16⟩
def ST_FAIL : Nat := 0x40100710
def ST_FAIL_CNT : Fld := ⟨ST_FAIL, 24, 8⟩
def ST_FAIL_AREA : Fld := ⟨ST_FAIL, 20, 4⟩
def ST_FAIL_LANE : Fld := ⟨ST_FAIL, 18, 2⟩
def PROG (k : Nat) : Nat := 0x40100800 + 0x4 * k
def RPT_STS : Nat := 0x40100900
def RPT_STS_SEQ : Fld := ⟨RPT_STS, 16, 16⟩
def RPT_STS_BANK : Fld := ⟨RPT_STS, 0, 1⟩
end HEALTH

namespace LINK
def CAN_CFG (c : Nat) : Nat := 0x40110000 + 0x100 * c
def CAN_CFG_EN (c : Nat) : Fld := ⟨CAN_CFG c, 31, 1⟩
def CAN_CFG_MODE (c : Nat) : Fld := ⟨CAN_CFG c, 29, 2⟩
def CAN_CFG_FD_EN (c : Nat) : Fld := ⟨CAN_CFG c, 28, 1⟩
def CAN_CFG_AUTO_REC (c : Nat) : Fld := ⟨CAN_CFG c, 27, 1⟩
def CAN_CFG_TDCO (c : Nat) : Fld := ⟨CAN_CFG c, 0, 7⟩
def CAN_NBT (c : Nat) : Nat := 0x40110004 + 0x100 * c
def CAN_NBT_BRP (c : Nat) : Fld := ⟨CAN_NBT c, 24, 8⟩
def CAN_NBT_TSEG1 (c : Nat) : Fld := ⟨CAN_NBT c, 16, 8⟩
def CAN_NBT_TSEG2 (c : Nat) : Fld := ⟨CAN_NBT c, 8, 7⟩
def CAN_NBT_SJW (c : Nat) : Fld := ⟨CAN_NBT c, 0, 7⟩
def CAN_DBT (c : Nat) : Nat := 0x40110008 + 0x100 * c
def CAN_DBT_BRP (c : Nat) : Fld := ⟨CAN_DBT c, 24, 8⟩
def CAN_DBT_TSEG1 (c : Nat) : Fld := ⟨CAN_DBT c, 16, 5⟩
def CAN_DBT_TSEG2 (c : Nat) : Fld := ⟨CAN_DBT c, 8, 4⟩
def CAN_DBT_SJW (c : Nat) : Fld := ⟨CAN_DBT c, 0, 4⟩
def CAN_STS (c : Nat) : Nat := 0x4011000C + 0x100 * c
def CAN_STS_TEC (c : Nat) : Fld := ⟨CAN_STS c, 24, 8⟩
def CAN_STS_REC (c : Nat) : Fld := ⟨CAN_STS c, 16, 8⟩
def CAN_STS_STATE (c : Nat) : Fld := ⟨CAN_STS c, 14, 2⟩
def CAN_STS_WARN (c : Nat) : Fld := ⟨CAN_STS c, 13, 1⟩
def CAN_STS_TX_BUSY (c : Nat) : Fld := ⟨CAN_STS c, 12, 1⟩
def CAN_STS_LEC (c : Nat) : Fld := ⟨CAN_STS c, 8, 4⟩
def CAN_ERR (c : Nat) : Nat := 0x40110010 + 0x100 * c
def CAN_ERR_BUSOFF (c : Nat) : Fld := ⟨CAN_ERR c, 24, 8⟩
def CAN_ERR_RETX (c : Nat) : Fld := ⟨CAN_ERR c, 16, 8⟩
def CAN_ERR_ERRFR (c : Nat) : Fld := ⟨CAN_ERR c, 8, 8⟩
def CAN_ERR_ABORT (c : Nat) : Fld := ⟨CAN_ERR c, 0, 8⟩
def CAN_CLR (c : Nat) : Nat := 0x40110014 + 0x100 * c
def CAN_CLR_REC (c : Nat) : Fld := ⟨CAN_CLR c, 1, 1⟩
def CAN_CLR_ERR (c : Nat) : Fld := ⟨CAN_CLR c, 0, 1⟩
def CAN_FLT_ID (c f : Nat) : Nat := 0x40110020 + 0x100 * c + 0x4 * f
def CAN_FLT_ID_EN (c f : Nat) : Fld := ⟨CAN_FLT_ID c f, 31, 1⟩
def CAN_FLT_ID_IDE (c f : Nat) : Fld := ⟨CAN_FLT_ID c f, 30, 1⟩
def CAN_FLT_ID_ID (c f : Nat) : Fld := ⟨CAN_FLT_ID c f, 0, 29⟩
def CAN_FLT_MASK (c f : Nat) : Nat := 0x40110060 + 0x100 * c + 0x4 * f
def CAN_FLT_MASK_IDE_M (c f : Nat) : Fld := ⟨CAN_FLT_MASK c f, 29, 1⟩
def CAN_FLT_MASK_MASK (c f : Nat) : Fld := ⟨CAN_FLT_MASK c f, 0, 29⟩
def UART_CFG (u : Nat) : Nat := 0x40110400 + 0x20 * u
def UART_CFG_EN (u : Nat) : Fld := ⟨UART_CFG u, 31, 1⟩
def UART_CFG_RS485 (u : Nat) : Fld := ⟨UART_CFG u, 30, 1⟩
def UART_CFG_DE_POL (u : Nat) : Fld := ⟨UART_CFG u, 29, 1⟩
def UART_CFG_ECHO (u : Nat) : Fld := ⟨UART_CFG u, 28, 1⟩
def UART_CFG_PARITY (u : Nat) : Fld := ⟨UART_CFG u, 26, 2⟩
def UART_CFG_STOP2 (u : Nat) : Fld := ⟨UART_CFG u, 25, 1⟩
def UART_CFG_BITS7 (u : Nat) : Fld := ⟨UART_CFG u, 24, 1⟩
def UART_CFG_DE_LEAD (u : Nat) : Fld := ⟨UART_CFG u, 16, 8⟩
def UART_CFG_DE_LAG (u : Nat) : Fld := ⟨UART_CFG u, 8, 8⟩
def UART_CFG_IDLE (u : Nat) : Fld := ⟨UART_CFG u, 0, 8⟩
def UART_BAUD (u : Nat) : Nat := 0x40110404 + 0x20 * u
def UART_BAUD_DIV (u : Nat) : Fld := ⟨UART_BAUD u, 0, 22⟩
def UART_STS (u : Nat) : Nat := 0x40110408 + 0x20 * u
def UART_STS_TX_BUSY (u : Nat) : Fld := ⟨UART_STS u, 31, 1⟩
def UART_STS_DE (u : Nat) : Fld := ⟨UART_STS u, 30, 1⟩
def UART_STS_BREAK (u : Nat) : Fld := ⟨UART_STS u, 29, 1⟩
def UART_ERR (u : Nat) : Nat := 0x4011040C + 0x20 * u
def UART_ERR_PARITY (u : Nat) : Fld := ⟨UART_ERR u, 24, 8⟩
def UART_ERR_FRAMING (u : Nat) : Fld := ⟨UART_ERR u, 16, 8⟩
def UART_ERR_BREAK (u : Nat) : Fld := ⟨UART_ERR u, 8, 8⟩
def UART_ERR_OVERRUN (u : Nat) : Fld := ⟨UART_ERR u, 0, 8⟩
def UART_CLR (u : Nat) : Nat := 0x40110410 + 0x20 * u
def UART_CLR_ERR (u : Nat) : Fld := ⟨UART_CLR u, 0, 1⟩
def SPI_CFG : Nat := 0x40110600
def SPI_CFG_MODE : Fld := ⟨SPI_CFG, 30, 2⟩
def SPI_CFG_LSB_FIRST : Fld := ⟨SPI_CFG, 29, 1⟩
def SPI_CFG_DIV : Fld := ⟨SPI_CFG, 0, 8⟩
def SPI_CMD : Nat := 0x40110604
def SPI_CMD_GO : Fld := ⟨SPI_CMD, 31, 1⟩
def SPI_CMD_CS : Fld := ⟨SPI_CMD, 24, 2⟩
def SPI_CMD_LEN : Fld := ⟨SPI_CMD, 0, 4⟩
def SPI_TX0 : Nat := 0x40110608
def SPI_TX1 : Nat := 0x4011060C
def SPI_RX0 : Nat := 0x40110610
def SPI_RX1 : Nat := 0x40110614
def SPI_STS : Nat := 0x40110618
def SPI_STS_BUSY : Fld := ⟨SPI_STS, 31, 1⟩
def SPI_STS_DONE : Fld := ⟨SPI_STS, 30, 1⟩
def SPI_STS_COUNT : Fld := ⟨SPI_STS, 0, 16⟩
end LINK

namespace HOSTIF
def IRQ_CFG : Nat := 0x40120000
def IRQ_CFG_EN : Fld := ⟨IRQ_CFG, 0, 12⟩
def HSTS : Nat := 0x40120004
def HSTS_PROV : Fld := ⟨HSTS, 31, 1⟩
def HSTS_ACTIVE : Fld := ⟨HSTS, 30, 1⟩
def HSTS_HIRQ : Fld := ⟨HSTS, 29, 1⟩
def HSTS_TRANS : Fld := ⟨HSTS, 0, 16⟩
def HERR : Nat := 0x40120008
def HERR_ALIGN : Fld := ⟨HERR, 24, 8⟩
def HERR_DENIED : Fld := ⟨HERR, 16, 8⟩
def HERR_RING : Fld := ⟨HERR, 8, 8⟩
def HCLR : Nat := 0x4012000C
def HCLR_ERR : Fld := ⟨HCLR, 0, 1⟩
end HOSTIF

namespace KEEPER
def STS : Nat := 0x40130000
def STS_VBAT_OK : Fld := ⟨STS, 31, 1⟩
def STS_VBAT_LOW : Fld := ⟨STS, 30, 1⟩
def STS_VBAT_LOST : Fld := ⟨STS, 29, 1⟩
def STS_RTC_VALID : Fld := ⟨STS, 28, 1⟩
def STS_FOG_ARMED : Fld := ⟨STS, 27, 1⟩
def STS_FOG_BITE : Fld := ⟨STS, 26, 1⟩
def STS_STUCK : Fld := ⟨STS, 25, 1⟩
def STS_VBAT : Fld := ⟨STS, 0, 16⟩
def CFG : Nat := 0x40130004
def CFG_RTC_SYNC : Fld := ⟨CFG, 31, 1⟩
def CFG_ALARM_EN : Fld := ⟨CFG, 30, 1⟩
def CTL : Nat := 0x40130008
def CTL_CLR : Fld := ⟨CTL, 1, 1⟩
def CTL_RTC_SET : Fld := ⟨CTL, 0, 1⟩
def RTC_SEC_LO : Nat := 0x40130010
def RTC_SEC_HI : Nat := 0x40130014
def RTC_SUB : Nat := 0x40130018
def RTC_SET_LO : Nat := 0x40130020
def RTC_SET_HI : Nat := 0x40130024
def ALARM_LO : Nat := 0x40130028
def ALARM_HI : Nat := 0x4013002C
def FOG_CFG : Nat := 0x40130030
def FOG_CFG_EN : Fld := ⟨FOG_CFG, 31, 1⟩
def FOG_CFG_ACT : Fld := ⟨FOG_CFG, 29, 2⟩
def FOG_CFG_MIN : Fld := ⟨FOG_CFG, 16, 12⟩
def FOG_CFG_T : Fld := ⟨FOG_CFG, 0, 12⟩
def FOG_FEED : Nat := 0x40130034
def FOG_FEED_KEY : Fld := ⟨FOG_FEED, 0, 16⟩
def FOG_STS : Nat := 0x40130038
def FOG_STS_FEEDS : Fld := ⟨FOG_STS, 16, 16⟩
def FOG_STS_LEFT : Fld := ⟨FOG_STS, 0, 12⟩
def LOG_STS : Nat := 0x40130040
def LOG_STS_SEQ : Fld := ⟨LOG_STS, 16, 16⟩
def LOG_STS_FULL : Fld := ⟨LOG_STS, 8, 1⟩
def LOG_STS_NEXT : Fld := ⟨LOG_STS, 0, 8⟩
def LOG_PROG : Nat := 0x40130044
def LOG (w : Nat) : Nat := 0x40131000 + 0x4 * w
end KEEPER

def regRowsSYS : List RegRow :=
  [⟨0x0, 1, 0x10000, 1, 0x10000, 0x4C480C03, 0x0, 0x0, 0xFFFFFFFF, 0x0⟩,
   ⟨0x4, 1, 0x10000, 1, 0x10000, 0xD7FF47, 0x0, 0x0, 0xFFFFFF, 0x0⟩,
   ⟨0x8, 1, 0x10000, 1, 0x10000, 0x0, 0xFFFFFFFF, 0x0, 0xFFFFFFFF, 0x0⟩,
   ⟨0xC, 1, 0x10000, 1, 0x10000, 0x3, 0xF, 0x0, 0xFF0000FF, 0x0⟩,
   ⟨0x10, 1, 0x10000, 1, 0x10000, 0x0, 0x0, 0x0, 0xFFF77, 0x0⟩,
   ⟨0x14, 1, 0x10000, 1, 0x10000, 0x10, 0x800000FF, 0x0, 0x800000FF, 0x0⟩,
   ⟨0x20, 1, 0x10000, 8, 0x4, 0x0, 0xFFFFFFFF, 0x0, 0xFFFFFFFF, 0x0⟩,
   ⟨0x40, 1, 0x10000, 1, 0x10000, 0x0, 0x0, 0x0, 0x7331F, 0x0⟩,
   ⟨0x50, 1, 0x10000, 1, 0x10000, 0x0, 0x0, 0xF03FFFFF, 0xF03FFFFF, 0x0⟩,
   ⟨0x54, 1, 0x10000, 1, 0x10000, 0x0, 0x1FFFFF, 0x0, 0x1FFFFF, 0x0⟩,
   ⟨0x58, 1, 0x10000, 1, 0x10000, 0x0, 0x0, 0x0, 0xCF030000, 0x0⟩]

def regRowsGALLERY : List RegRow :=
  [⟨0x0, 1, 0x10000, 1, 0x10000, 0x1403E8, 0x7F0FFF, 0x0, 0x7F0FFF, 0x0⟩,
   ⟨0x4, 1, 0x10000, 1, 0x10000, 0x0, 0x0, 0x0, 0xFF, 0x18⟩,
   ⟨0x8, 1, 0x10000, 1, 0x10000, 0x0, 0x0, 0x18, 0x18, 0x0⟩,
   ⟨0xC, 1, 0x10000, 1, 0x10000, 0x0, 0x0, 0x0, 0xFFFFFFFF, 0x0⟩,
   ⟨0x10, 1, 0x10000, 1, 0x10000, 0x0, 0x0, 0x0, 0xFFFFFFFF, 0x0⟩,
   ⟨0x40, 1, 0x10000, 8, 0x4, 0x0, 0xFFFFFFFF, 0x0, 0xFFFFFFFF, 0x0⟩,
   ⟨0x60, 1, 0x10000, 8, 0x4, 0x0, 0x0, 0x0, 0xFFFFFFFF, 0x0⟩,
   ⟨0x80, 1, 0x10000, 8, 0x4, 0x0, 0x0, 0x0, 0xFFFFFFFF, 0xFFFFFFFF⟩,
   ⟨0x100, 1, 0x10000, 1, 0x10000, 0x0, 0x0, 0x0, 0xFFFF071F, 0x0⟩,
   ⟨0x104, 1, 0x10000, 1, 0x10000, 0x0, 0x0, 0x0, 0xF0FF03FF, 0x0⟩,
   ⟨0x108, 1, 0x10000, 1, 0x10000, 0x0, 0x0, 0x0, 0xFFFFFFFF, 0x0⟩,
   ⟨0x10C, 1, 0x10000, 1, 0x10000, 0x0, 0x0, 0x0, 0x33777, 0x0⟩,
   ⟨0x110, 1, 0x10000, 3, 0x4, 0x0, 0x0, 0x0, 0xF3FF1F0F, 0x0⟩,
   ⟨0x120, 1, 0x10000, 3, 0x4, 0x0, 0x0, 0x0, 0xFFFFFFFF, 0x0⟩,
   ⟨0x12C, 1, 0x10000, 1, 0x10000, 0x0, 0x0, 0x0, 0xFFFFFFFF, 0x0⟩,
   ⟨0x130, 1, 0x10000, 1, 0x10000, 0x0, 0x0, 0x0, 0x777, 0x0⟩,
   ⟨0x140, 1, 0x10000, 1, 0x10000, 0x1, 0x1, 0x70, 0x71, 0x0⟩,
   ⟨0x144, 1, 0x10000, 1, 0x10000, 0xF, 0x0, 0x0, 0x1FFFFF, 0x0⟩,
   ⟨0x180, 1, 0x10000, 8, 0x4, 0x0, 0x0, 0x0, 0xFFFFFFFF, 0x0⟩]

def regRowsTIME : List RegRow :=
  [⟨0x0, 1, 0x10000, 1, 0x10000, 0x0, 0x0, 0x0, 0xFFFFFFFF, 0x0⟩,
   ⟨0x4, 1, 0x10000, 1, 0x10000, 0x0, 0x0, 0x0, 0xFFFFFFFF, 0x0⟩,
   ⟨0x8, 1, 0x10000, 1, 0x10000, 0x0, 0x0, 0x0, 0xFFFFFFFF, 0x0⟩,
   ⟨0x10, 1, 0x10000, 1, 0x10000, 0x82680064, 0xCFFFFFFF, 0x0, 0xCFFFFFFF, 0x0⟩,
   ⟨0x14, 1, 0x10000, 1, 0x10000, 0x7D0280A, 0xFFFFFFFF, 0x0, 0xFFFFFFFF, 0x0⟩,
   ⟨0x18, 1, 0x10000, 1, 0x10000, 0x0, 0xFFFFFFFF, 0x0, 0xFFFFFFFF, 0x0⟩,
   ⟨0x1C, 1, 0x10000, 1, 0x10000, 0x0, 0x0, 0x0, 0xFFFFFFFF, 0x0⟩,
   ⟨0x20, 1, 0x10000, 1, 0x10000, 0x0, 0x0, 0x0, 0xF81F000F, 0x0⟩,
   ⟨0x24, 1, 0x10000, 1, 0x10000, 0x0, 0x0, 0x0, 0xFFFFFFFF, 0x0⟩,
   ⟨0x28, 1, 0x10000, 1, 0x10000, 0x0, 0x0, 0x0, 0xFFFFFFFF, 0x0⟩,
   ⟨0x2C, 1, 0x10000, 1, 0x10000, 0x0, 0x0, 0x0, 0xFFFFFFFF, 0x0⟩,
   ⟨0x30, 1, 0x10000, 1, 0x10000, 0x0, 0x0, 0x3, 0x3, 0x0⟩,
   ⟨0x34, 1, 0x10000, 1, 0x10000, 0x0, 0x0, 0x0, 0xFFFFFFFF, 0x0⟩]

def regRowsNET : List RegRow :=
  [⟨0x0, 1, 0x10000, 2, 0x100, 0x8000000, 0xFB000000, 0x0, 0xFB000000, 0x0⟩,
   ⟨0x4, 1, 0x10000, 2, 0x100, 0x0, 0xFFFFFFFF, 0x0, 0xFFFFFFFF, 0x0⟩,
   ⟨0x8, 1, 0x10000, 2, 0x100, 0x0, 0xFFFF, 0x0, 0xFFFFFFFF, 0x0⟩,
   ⟨0xC, 1, 0x10000, 2, 0x100, 0xFA50, 0xFFFF, 0x0, 0xFFFF, 0x0⟩,
   ⟨0x10, 1, 0x10000, 2, 0x100, 0x0, 0xFFFFFFFF, 0x0, 0xFFFFFFFF, 0x0⟩,
   ⟨0x14, 1, 0x10000, 2, 0x100, 0x0, 0xFFFFFFFF, 0x0, 0xFFFFFFFF, 0x0⟩,
   ⟨0x1C, 1, 0x10000, 2, 0x100, 0x0, 0x0, 0x0, 0xFFFFFFFF, 0x0⟩,
   ⟨0x18, 1, 0x10000, 2, 0x100, 0x0, 0x0, 0x0, 0xE0000000, 0x0⟩,
   ⟨0x20, 1, 0x10000, 2, 0x100, 0x0, 0x0, 0x0, 0xFFFFFFFF, 0x0⟩,
   ⟨0x24, 1, 0x10000, 2, 0x100, 0x0, 0x0, 0x0, 0xFFFFFFFF, 0x0⟩,
   ⟨0x28, 1, 0x10000, 2, 0x100, 0x0, 0x0, 0x0, 0xFFFFFFFF, 0x0⟩,
   ⟨0x2C, 1, 0x10000, 2, 0x100, 0x0, 0xF01FFFFF, 0x0, 0xF01FFFFF, 0x0⟩,
   ⟨0x200, 1, 0x10000, 1, 0x10000, 0x4800CD03, 0xFCFFFFFF, 0x0, 0xFCFFFFFF, 0x0⟩,
   ⟨0x204, 1, 0x10000, 1, 0x10000, 0x8080F8FE, 0xFFFFFFFF, 0x0, 0xFFFFFFFF, 0x0⟩,
   ⟨0x208, 1, 0x10000, 1, 0x10000, 0xA0FFFF, 0xFFFFFF, 0x0, 0xFFFFFF, 0x0⟩,
   ⟨0x20C, 1, 0x10000, 1, 0x10000, 0xF9000000, 0xFF000000, 0x0, 0xFF000000, 0x0⟩,
   ⟨0x210, 1, 0x10000, 1, 0x10000, 0x0, 0x0, 0x0, 0xF8000000, 0x0⟩,
   ⟨0x214, 1, 0x10000, 1, 0x10000, 0x0, 0x0, 0x0, 0xFFFFFFFF, 0x0⟩,
   ⟨0x218, 1, 0x10000, 1, 0x10000, 0x0, 0x0, 0x0, 0xFFFFFFFF, 0x0⟩,
   ⟨0x21C, 1, 0x10000, 1, 0x10000, 0x0, 0x0, 0x0, 0xFFFFFFFF, 0x0⟩,
   ⟨0x220, 1, 0x10000, 1, 0x10000, 0x0, 0x0, 0x0, 0xFFFFFFFF, 0x0⟩,
   ⟨0x224, 1, 0x10000, 1, 0x10000, 0x0, 0x0, 0x0, 0xFFFFFFFF, 0x0⟩,
   ⟨0x228, 1, 0x10000, 1, 0x10000, 0x0, 0x0, 0x0, 0xFFFFFFFF, 0x0⟩,
   ⟨0x22C, 1, 0x10000, 1, 0x10000, 0x0, 0x0, 0x0, 0xFFFFFFFF, 0x0⟩,
   ⟨0x230, 1, 0x10000, 1, 0x10000, 0x80000100, 0x80001F1F, 0x0, 0x80001F1F, 0x0⟩,
   ⟨0x234, 1, 0x10000, 1, 0x10000, 0x0, 0x0, 0xC3FFFFFF, 0xC3FFFFFF, 0x0⟩,
   ⟨0x238, 1, 0x10000, 1, 0x10000, 0x0, 0x0, 0x0, 0xC000FFFF, 0x0⟩,
   ⟨0x23C, 1, 0x10000, 1, 0x10000, 0x0, 0x0, 0x3, 0x3, 0x0⟩]

def regRowsLLP : List RegRow :=
  [⟨0x0, 1, 0x10000, 1, 0x10000, 0x30000, 0xFFCF0FFF, 0x0, 0xFFCF0FFF, 0x0⟩,
   ⟨0x4, 1, 0x10000, 1, 0x10000, 0x3E8, 0x3FFF, 0x0, 0x3FFF, 0x0⟩,
   ⟨0x8, 1, 0x10000, 1, 0x10000, 0x19005DC, 0xFFFFFFFF, 0x0, 0xFFFFFFFF, 0x0⟩,
   ⟨0xC, 1, 0x10000, 1, 0x10000, 0x30BB8, 0xFFFFF, 0x0, 0xFFFFF, 0x0⟩,
   ⟨0x10, 1, 0x10000, 1, 0x10000, 0x1D0F3A5C, 0xFFFFFFFF, 0x0, 0xFFFFFFFF, 0x0⟩,
   ⟨0x14, 1, 0x10000, 1, 0x10000, 0x5EC27B91, 0xFFFFFFFF, 0x0, 0xFFFFFFFF, 0x0⟩,
   ⟨0x18, 1, 0x10000, 1, 0x10000, 0x0, 0xFFFFFFFF, 0x0, 0xFFFFFFFF, 0x0⟩,
   ⟨0x1C, 1, 0x10000, 1, 0x10000, 0x0, 0xFFFF, 0x0, 0xFFFFFFFF, 0x0⟩,
   ⟨0x20, 1, 0x10000, 4, 0x4, 0x0, 0xFFFFFFFF, 0x0, 0xFFFFFFFF, 0x0⟩,
   ⟨0x30, 1, 0x10000, 1, 0x10000, 0x0, 0xFF, 0x0, 0xFF, 0x0⟩,
   ⟨0x40, 1, 0x10000, 1, 0x10000, 0x0, 0x0, 0x0, 0x8000FFFF, 0x0⟩,
   ⟨0x44, 1, 0x10000, 1, 0x10000, 0x0, 0x0, 0x0, 0xFFFFFFFF, 0x0⟩,
   ⟨0x48, 1, 0x10000, 1, 0x10000, 0x0, 0x0, 0x0, 0xFFFFFFFF, 0x0⟩,
   ⟨0x4C, 1, 0x10000, 1, 0x10000, 0x0, 0x0, 0x1, 0x1, 0x0⟩,
   ⟨0x100, 1, 0x10000, 136, 0x4, 0x0, 0x0, 0x0, 0xFFFFFFFF, 0x0⟩]

def regRowsRINGS : List RegRow :=
  [⟨0x0, 1, 0x10000, 64, 0x20, 0x0, 0x1FFFFF, 0x0, 0x1FFFFF, 0x0⟩,
   ⟨0x4, 1, 0x10000, 64, 0x20, 0x0, 0x8000C37F, 0x0, 0xC0FFC37F, 0x0⟩,
   ⟨0x8, 1, 0x10000, 64, 0x20, 0x0, 0x0, 0x0, 0xFFFF, 0x0⟩,
   ⟨0xC, 1, 0x10000, 64, 0x20, 0x0, 0x0, 0x0, 0xFFFF, 0x0⟩,
   ⟨0x10, 1, 0x10000, 64, 0x20, 0x0, 0x1FFF, 0x0, 0x1FFF, 0x0⟩,
   ⟨0x14, 1, 0x10000, 64, 0x20, 0x1, 0x0, 0x0, 0xF, 0x4⟩,
   ⟨0x18, 1, 0x10000, 64, 0x20, 0x0, 0x0, 0x0, 0xFFFFFFFF, 0x0⟩,
   ⟨0x1C, 1, 0x10000, 64, 0x20, 0x0, 0x0, 0x3, 0x3, 0x0⟩]

def regRowsPOS : List RegRow :=
  [⟨0x0, 1, 0x10000, 6, 0x20, 0x1, 0xF3FFC03F, 0x0, 0xF3FFC03F, 0x0⟩,
   ⟨0x4, 1, 0x10000, 6, 0x20, 0x0, 0x0, 0x0, 0xFFFFFFFF, 0x0⟩,
   ⟨0x8, 1, 0x10000, 6, 0x20, 0x0, 0x0, 0x0, 0xFFFFFFFF, 0x0⟩,
   ⟨0xC, 1, 0x10000, 6, 0x20, 0x0, 0x0, 0x0, 0xFFFFFFFF, 0x0⟩,
   ⟨0x10, 1, 0x10000, 6, 0x20, 0x0, 0xFFFFF, 0x0, 0xFFFFF, 0x0⟩,
   ⟨0x14, 1, 0x10000, 6, 0x20, 0x0, 0x0, 0x0, 0x7E, 0x58⟩,
   ⟨0x18, 1, 0x10000, 6, 0x20, 0x0, 0x0, 0x0, 0xFFFFFFFF, 0x0⟩,
   ⟨0x1C, 1, 0x10000, 6, 0x20, 0x0, 0x0, 0x1F, 0x1F, 0x0⟩,
   ⟨0x100, 1, 0x10000, 2, 0x20, 0x193100, 0xFFFFFFC0, 0x0, 0xFFFFFFC0, 0x0⟩,
   ⟨0x104, 1, 0x10000, 2, 0x20, 0x100000, 0xFFFFFF, 0x0, 0xFFFFFF, 0x0⟩,
   ⟨0x108, 1, 0x10000, 2, 0x20, 0x0, 0x0, 0x0, 0xFFFFFFFF, 0x0⟩,
   ⟨0x10C, 1, 0x10000, 2, 0x20, 0x0, 0x0, 0x0, 0xFFFFFFFF, 0x0⟩,
   ⟨0x110, 1, 0x10000, 2, 0x20, 0x1, 0x0, 0x0, 0x1F, 0x1E⟩,
   ⟨0x114, 1, 0x10000, 2, 0x20, 0x0, 0x0, 0x0, 0xFFFFFFFF, 0x0⟩,
   ⟨0x118, 1, 0x10000, 2, 0x20, 0x0, 0x0, 0x3, 0x3, 0x0⟩,
   ⟨0x200, 1, 0x10000, 16, 0x4, 0x14, 0xC70000FF, 0x0, 0xC70000FF, 0x0⟩,
   ⟨0x240, 1, 0x10000, 1, 0x10000, 0x0, 0x0, 0x0, 0xFFFF, 0x0⟩,
   ⟨0x300, 1, 0x10000, 4, 0x4, 0x0, 0x7CF, 0x0, 0x7CF, 0x0⟩,
   ⟨0x310, 1, 0x10000, 4, 0x4, 0x10000, 0xFFFFFFFF, 0x0, 0xFFFFFFFF, 0x0⟩,
   ⟨0x320, 1, 0x10000, 1, 0x10000, 0x0, 0xFFFFFFFF, 0x0, 0xFFFFFFFF, 0x0⟩,
   ⟨0x324, 1, 0x10000, 1, 0x10000, 0x0, 0xFFFFFFFF, 0x0, 0xFFFFFFFF, 0x0⟩,
   ⟨0x328, 1, 0x10000, 1, 0x10000, 0x6080008, 0xF0FFFFF, 0x0, 0xF0FFFFF, 0x0⟩,
   ⟨0x32C, 1, 0x10000, 1, 0x10000, 0x324320C8, 0xFFFFFFFF, 0x0, 0xFFFFFFFF, 0x0⟩,
   ⟨0x330, 1, 0x10000, 1, 0x10000, 0x1F401F4, 0xFFFFFFFF, 0x0, 0xFFFFFFFF, 0x0⟩,
   ⟨0x334, 1, 0x10000, 1, 0x10000, 0x140A0064, 0xFFFFFFFF, 0x0, 0xFFFFFFFF, 0x0⟩,
   ⟨0x338, 1, 0x10000, 1, 0x10000, 0x0, 0x0, 0x1FE, 0x1FE, 0x0⟩,
   ⟨0x340, 1, 0x10000, 1, 0x10000, 0x0, 0x0, 0x0, 0xFFFFFFFF, 0x0⟩,
   ⟨0x344, 1, 0x10000, 1, 0x10000, 0x0, 0x0, 0x0, 0xFFFFFFFF, 0x0⟩,
   ⟨0x348, 1, 0x10000, 1, 0x10000, 0x0, 0x0, 0x0, 0xFFFFFFFF, 0x0⟩,
   ⟨0x34C, 1, 0x10000, 1, 0x10000, 0x0, 0x0, 0x0, 0xFFFFFFFF, 0x0⟩,
   ⟨0x35C, 1, 0x10000, 1, 0x10000, 0x0, 0x0, 0x0, 0xFFFFFFFF, 0x0⟩,
   ⟨0x350, 1, 0x10000, 1, 0x10000, 0xFFFFFFFF, 0x0, 0x0, 0xFFFFFFFF, 0x0⟩,
   ⟨0x354, 1, 0x10000, 1, 0x10000, 0x0, 0x0, 0x0, 0xFFFFFFFF, 0x0⟩,
   ⟨0x358, 1, 0x10000, 1, 0x10000, 0xFF00000, 0x0, 0x0, 0xFF30F0F, 0x400⟩,
   ⟨0x360, 1, 0x10000, 4, 0x4, 0x0, 0x0, 0x0, 0xFFFFFFFF, 0x0⟩,
   ⟨0x370, 1, 0x10000, 1, 0x10000, 0x0, 0x0, 0x0, 0xFFFFFFFF, 0x0⟩,
   ⟨0x400, 1, 0x10000, 1, 0x10000, 0x0, 0x0, 0x0, 0x7F007F, 0x0⟩,
   ⟨0x404, 1, 0x10000, 1, 0x10000, 0x0, 0x0, 0x0, 0xFFFFFFFF, 0x0⟩,
   ⟨0x408, 1, 0x10000, 1, 0x10000, 0x0, 0xFF, 0x0, 0xFF, 0x0⟩,
   ⟨0x410, 1, 0x10000, 16, 0x4, 0x0, 0xFFFFFFFF, 0x0, 0xFFFFFFFF, 0x0⟩]
  ++ [⟨0x450, 1, 0x10000, 1, 0x10000, 0x0, 0x1FF, 0xC0000000, 0xC00001FF, 0x0⟩,
   ⟨0x460, 1, 0x10000, 1, 0x10000, 0x11E0000, 0xFFFFFFFF, 0x0, 0xFFFFFFFF, 0x0⟩,
   ⟨0x464, 1, 0x10000, 1, 0x10000, 0x0, 0x0, 0x1F, 0x1F, 0x0⟩,
   ⟨0x468, 1, 0x10000, 1, 0x10000, 0x0, 0x0, 0x0, 0xFFFF07FF, 0x0⟩,
   ⟨0x470, 1, 0x10000, 1, 0x10000, 0x0, 0x0, 0x0, 0xFFFFFFFF, 0x0⟩,
   ⟨0x474, 1, 0x10000, 1, 0x10000, 0x0, 0x0, 0x0, 0xFFFFFFFF, 0x0⟩,
   ⟨0x500, 1, 0x10000, 16, 0x20, 0x0, 0xFFFFFFFF, 0x0, 0xFFFFFFFF, 0x0⟩,
   ⟨0x504, 1, 0x10000, 16, 0x20, 0x0, 0xFFFFFFFF, 0x0, 0xFFFFFFFF, 0x0⟩,
   ⟨0x508, 1, 0x10000, 16, 0x20, 0x0, 0xFC, 0x80000000, 0x800000FC, 0x0⟩,
   ⟨0x50C, 1, 0x10000, 16, 0x20, 0x0, 0xFFFFFFFF, 0x0, 0xFFFFFFFF, 0x0⟩,
   ⟨0x510, 1, 0x10000, 16, 0x20, 0x0, 0xFFFF, 0x0, 0xFFFF, 0x0⟩,
   ⟨0x514, 1, 0x10000, 16, 0x20, 0x0, 0x0, 0x0, 0xFFFFFFFF, 0xC0000000⟩,
   ⟨0x518, 1, 0x10000, 16, 0x20, 0x0, 0x0, 0x0, 0xFFFFFFFF, 0x0⟩,
   ⟨0x51C, 1, 0x10000, 16, 0x20, 0x0, 0x0, 0x0, 0xFFFFFFFF, 0x0⟩,
   ⟨0x700, 1, 0x10000, 1, 0x10000, 0x0, 0xFFFF003F, 0x0, 0xFFFF003F, 0x0⟩,
   ⟨0x704, 1, 0x10000, 1, 0x10000, 0xA058032, 0xFFFFFFFF, 0x0, 0xFFFFFFFF, 0x0⟩,
   ⟨0x708, 1, 0x10000, 1, 0x10000, 0x0, 0x0, 0x0, 0xE000FFFF, 0x40000000⟩,
   ⟨0x70C, 1, 0x10000, 1, 0x10000, 0x0, 0x0, 0x0, 0xFFFFFFFF, 0x0⟩,
   ⟨0x710, 1, 0x10000, 1, 0x10000, 0x0, 0x0, 0x0, 0xFFFFFFFF, 0x0⟩,
   ⟨0x714, 1, 0x10000, 1, 0x10000, 0x0, 0x0, 0x0, 0xFFFFFFFF, 0x0⟩]

def regRowsMOTION : List RegRow :=
  [⟨0x0, 1, 0x10000, 4, 0x100, 0x0, 0xEF000000, 0x0, 0xEF000000, 0x0⟩,
   ⟨0x4, 1, 0x10000, 4, 0x100, 0x0, 0xFFFFFFFF, 0x0, 0xFFFFFFFF, 0x0⟩,
   ⟨0x8, 1, 0x10000, 4, 0x100, 0x0, 0xFFFFFFFF, 0x0, 0xFFFFFFFF, 0x0⟩,
   ⟨0xC, 1, 0x10000, 4, 0x100, 0x0, 0xFFFFFFFF, 0x0, 0xFFFFFFFF, 0x0⟩,
   ⟨0x10, 1, 0x10000, 4, 0x100, 0x0, 0xFFFFFFFF, 0x0, 0xFFFFFFFF, 0x0⟩,
   ⟨0x14, 1, 0x10000, 4, 0x100, 0x0, 0xFFFFFFFF, 0x0, 0xFFFFFFFF, 0x0⟩,
   ⟨0x18, 1, 0x10000, 4, 0x100, 0x0, 0xFFFFFFFF, 0x0, 0xFFFFFFFF, 0x0⟩,
   ⟨0x1C, 1, 0x10000, 4, 0x100, 0x0, 0xFFFFFFFF, 0x0, 0xFFFFFFFF, 0x0⟩,
   ⟨0x20, 1, 0x10000, 4, 0x100, 0x0, 0xFFFFFFFF, 0x0, 0xFFFFFFFF, 0x0⟩,
   ⟨0x24, 1, 0x10000, 4, 0x100, 0x0, 0xFFFFFFFF, 0x0, 0xFFFFFFFF, 0x0⟩,
   ⟨0x28, 1, 0x10000, 4, 0x100, 0x0, 0xFFFFFFFF, 0x0, 0xFFFFFFFF, 0x0⟩,
   ⟨0x2C, 1, 0x10000, 4, 0x100, 0x10000, 0xFFFFFFFF, 0x0, 0xFFFFFFFF, 0x0⟩,
   ⟨0x30, 1, 0x10000, 4, 0x100, 0x0, 0xFFFFFFFF, 0x0, 0xFFFFFFFF, 0x0⟩,
   ⟨0x34, 1, 0x10000, 4, 0x100, 0xFFFF8000, 0xFFFFFFFF, 0x0, 0xFFFFFFFF, 0x0⟩,
   ⟨0x38, 1, 0x10000, 4, 0x100, 0xFFFFFFFF, 0xFFFFFFFF, 0x0, 0xFFFFFFFF, 0x0⟩,
   ⟨0x3C, 1, 0x10000, 4, 0x100, 0x7FFF, 0xFFFFFFFF, 0x0, 0xFFFFFFFF, 0x0⟩,
   ⟨0x40, 1, 0x10000, 4, 0x100, 0x0, 0xFFFFFFFF, 0x0, 0xFFFFFFFF, 0x0⟩,
   ⟨0x44, 1, 0x10000, 4, 0x100, 0x0, 0xFFFFFFFF, 0x0, 0xFFFFFFFF, 0x0⟩,
   ⟨0x48, 1, 0x10000, 4, 0x100, 0x0, 0xFFFFFFFF, 0x0, 0xFFFFFFFF, 0x0⟩,
   ⟨0x4C, 1, 0x10000, 4, 0x100, 0x0, 0xFFFFFFFF, 0x0, 0xFFFFFFFF, 0x0⟩,
   ⟨0x50, 1, 0x10000, 4, 0x100, 0x0, 0xFFFFFFFF, 0x0, 0xFFFFFFFF, 0x0⟩,
   ⟨0x54, 1, 0x10000, 4, 0x100, 0x0, 0xFFFFFFFF, 0x0, 0xFFFFFFFF, 0x0⟩,
   ⟨0x58, 1, 0x10000, 4, 0x100, 0x0, 0xFFFF0007, 0x0, 0xFFFF0007, 0x0⟩,
   ⟨0x5C, 1, 0x10000, 4, 0x100, 0x0, 0x0, 0xFF, 0xFF, 0x0⟩,
   ⟨0x60, 1, 0x10000, 4, 0x100, 0x0, 0x0, 0x0, 0xFFFFFFFF, 0x0⟩,
   ⟨0x64, 1, 0x10000, 4, 0x100, 0x0, 0x0, 0x0, 0xFFFFFFFF, 0x0⟩,
   ⟨0x68, 1, 0x10000, 4, 0x100, 0x0, 0x0, 0x0, 0xFFFFFFFF, 0x0⟩,
   ⟨0x6C, 1, 0x10000, 4, 0x100, 0x0, 0x0, 0x0, 0xFFFFFFFF, 0x0⟩,
   ⟨0x70, 1, 0x10000, 4, 0x100, 0x0, 0x0, 0x0, 0xFFFFFFFF, 0x0⟩,
   ⟨0x74, 1, 0x10000, 4, 0x100, 0x0, 0x0, 0x0, 0xFFFFFFFF, 0x0⟩,
   ⟨0x78, 1, 0x10000, 4, 0x100, 0x0, 0x0, 0x0, 0xFFFFFFFF, 0x0⟩,
   ⟨0x80, 1, 0x10000, 4, 0x100, 0x0, 0x0, 0x0, 0xFFFFFFFF, 0x0⟩,
   ⟨0x84, 1, 0x10000, 4, 0x100, 0x0, 0x0, 0x0, 0xFFFFFFFF, 0x0⟩,
   ⟨0x7C, 1, 0x10000, 4, 0x100, 0x0, 0x0, 0x0, 0xFFFF090F, 0x0⟩,
   ⟨0x88, 1, 0x10000, 4, 0x100, 0x0, 0x0, 0x0, 0xF07F, 0x7F⟩,
   ⟨0x8C, 1, 0x10000, 4, 0x100, 0x0, 0x0, 0x0, 0xFF00FFFF, 0x0⟩,
   ⟨0x90, 1, 0x10000, 4, 0x100, 0x0, 0xFE3F3F00, 0x0, 0xFE3F3F00, 0x0⟩,
   ⟨0x94, 1, 0x10000, 4, 0x100, 0x0, 0xFFFFFFFF, 0x0, 0xFFFFFFFF, 0x0⟩,
   ⟨0x98, 1, 0x10000, 4, 0x100, 0x0, 0xFFFFFFFF, 0x0, 0xFFFFFFFF, 0x0⟩,
   ⟨0x9C, 1, 0x10000, 4, 0x100, 0x0, 0xFFFFFFFF, 0x0, 0xFFFFFFFF, 0x0⟩]
  ++ [⟨0xA0, 1, 0x10000, 4, 0x100, 0x0, 0xFFFFFFFF, 0x0, 0xFFFFFFFF, 0x0⟩,
   ⟨0xA4, 1, 0x10000, 4, 0x100, 0x0, 0x0, 0x0, 0xFFFFFFFF, 0x0⟩,
   ⟨0xA8, 1, 0x10000, 4, 0x100, 0x0, 0x0, 0x0, 0xFFFFFFFF, 0x0⟩,
   ⟨0xAC, 1, 0x10000, 4, 0x100, 0x0, 0x0, 0x0, 0xFF000001, 0x0⟩,
   ⟨0xB0, 1, 0x10000, 4, 0x100, 0x0, 0xFFFFFFFF, 0x0, 0xFFFFFFFF, 0x0⟩,
   ⟨0xB4, 1, 0x10000, 4, 0x100, 0x0, 0xFFFFFFFF, 0x0, 0xFFFFFFFF, 0x0⟩,
   ⟨0xB8, 1, 0x10000, 4, 0x100, 0x0, 0xFFFFFFFF, 0x0, 0xFFFFFFFF, 0x0⟩,
   ⟨0xBC, 1, 0x10000, 4, 0x100, 0x0, 0xFFFFFFFF, 0x0, 0xFFFFFFFF, 0x0⟩,
   ⟨0xC0, 1, 0x10000, 4, 0x100, 0x0, 0x80000000, 0x0, 0x80000000, 0x0⟩,
   ⟨0x800, 1, 0x10000, 1, 0x10000, 0x0, 0xFFFC0FFF, 0x0, 0xFFFC0FFF, 0x0⟩,
   ⟨0x804, 1, 0x10000, 1, 0x10000, 0x0, 0xFFFFFFFF, 0x0, 0xFFFFFFFF, 0x0⟩,
   ⟨0x808, 1, 0x10000, 1, 0x10000, 0x0, 0xFFFF, 0x0, 0xFFFFFFFF, 0x0⟩,
   ⟨0x80C, 1, 0x10000, 1, 0x10000, 0x8000, 0xFFFFFFFF, 0x0, 0xFFFFFFFF, 0x0⟩,
   ⟨0x810, 1, 0x10000, 1, 0x10000, 0x10000, 0xFFFFFFFF, 0x0, 0xFFFFFFFF, 0x0⟩,
   ⟨0x814, 1, 0x10000, 1, 0x10000, 0x12C03E8, 0xFFFFFFFF, 0x0, 0xFFFFFFFF, 0x0⟩,
   ⟨0x818, 1, 0x10000, 1, 0x10000, 0x140064, 0x80FFFFFF, 0x0, 0x80FFFFFF, 0x0⟩,
   ⟨0x81C, 1, 0x10000, 1, 0x10000, 0x0, 0x0, 0x0, 0xFFFFFFFF, 0x0⟩,
   ⟨0x900, 1, 0x10000, 1, 0x10000, 0x0, 0x8F000000, 0x0, 0x8F000000, 0x0⟩,
   ⟨0x904, 1, 0x10000, 1, 0x10000, 0x10000, 0xFFFFFFFF, 0x0, 0xFFFFFFFF, 0x0⟩,
   ⟨0x908, 1, 0x10000, 1, 0x10000, 0x10001, 0xFFFFFFFF, 0x0, 0xFFFFFFFF, 0x0⟩,
   ⟨0x90C, 1, 0x10000, 1, 0x10000, 0x10001, 0xFFFFFFFF, 0x0, 0xFFFFFFFF, 0x0⟩,
   ⟨0x910, 1, 0x10000, 1, 0x10000, 0x0, 0xFFFFFFFF, 0x0, 0xFFFFFFFF, 0x0⟩,
   ⟨0x914, 1, 0x10000, 1, 0x10000, 0x0, 0xFFFFFFFF, 0x0, 0xFFFFFFFF, 0x0⟩,
   ⟨0x918, 1, 0x10000, 1, 0x10000, 0x0, 0x0, 0x1, 0x1, 0x0⟩,
   ⟨0x91C, 1, 0x10000, 1, 0x10000, 0x0, 0x0, 0x0, 0xC000FFFF, 0x0⟩]

def regRowsCTRL : List RegRow :=
  [⟨0x0, 1, 0x10000, 12, 0x100, 0x7C, 0xFFFF007F, 0x0, 0xFFFF007F, 0x0⟩,
   ⟨0x4, 1, 0x10000, 12, 0x100, 0x0, 0xFFFFFFFF, 0x0, 0xFFFFFFFF, 0x0⟩,
   ⟨0x8, 1, 0x10000, 12, 0x100, 0x0, 0x1F1F0000, 0x0, 0x1F1F0000, 0x0⟩,
   ⟨0xC, 1, 0x10000, 12, 0x100, 0x0, 0xFF, 0x0, 0xFF, 0x0⟩,
   ⟨0x10, 1, 0x10000, 12, 0x100, 0x0, 0xFFFFFFFF, 0x0, 0xFFFFFFFF, 0x0⟩,
   ⟨0x14, 1, 0x10000, 12, 0x100, 0x0, 0xFFFFFFFF, 0x0, 0xFFFFFFFF, 0x0⟩,
   ⟨0x18, 1, 0x10000, 12, 0x100, 0x0, 0xFFFFFFFF, 0x0, 0xFFFFFFFF, 0x0⟩,
   ⟨0x1C, 1, 0x10000, 12, 0x100, 0x0, 0xFFFFFFFF, 0x0, 0xFFFFFFFF, 0x0⟩,
   ⟨0x20, 1, 0x10000, 12, 0x100, 0x80000000, 0xFFFFFFFF, 0x0, 0xFFFFFFFF, 0x0⟩,
   ⟨0x2C, 1, 0x10000, 12, 0x100, 0x80000000, 0xFFFFFFFF, 0x0, 0xFFFFFFFF, 0x0⟩,
   ⟨0x24, 1, 0x10000, 12, 0x100, 0x7FFFFFFF, 0xFFFFFFFF, 0x0, 0xFFFFFFFF, 0x0⟩,
   ⟨0x30, 1, 0x10000, 12, 0x100, 0x7FFFFFFF, 0xFFFFFFFF, 0x0, 0xFFFFFFFF, 0x0⟩,
   ⟨0x28, 1, 0x10000, 12, 0x100, 0x0, 0xFFFFFFFF, 0x0, 0xFFFFFFFF, 0x0⟩,
   ⟨0x34, 1, 0x10000, 12, 0x100, 0x0, 0xFFFFFFFF, 0x0, 0xFFFFFFFF, 0x0⟩,
   ⟨0x38, 1, 0x10000, 12, 0x100, 0x0, 0xFFFFFFFF, 0x0, 0xFFFFFFFF, 0x0⟩,
   ⟨0x3C, 1, 0x10000, 12, 0x100, 0x0, 0xFFFFFFFF, 0x0, 0xFFFFFFFF, 0x0⟩,
   ⟨0x40, 1, 0x10000, 12, 0x100, 0x20000000, 0xFFFFFFFF, 0x0, 0xFFFFFFFF, 0x0⟩,
   ⟨0x44, 1, 0x10000, 12, 0x100, 0x0, 0xFFFFFFFF, 0x0, 0xFFFFFFFF, 0x0⟩,
   ⟨0x48, 1, 0x10000, 12, 0x100, 0x0, 0xFFFFFFFF, 0x0, 0xFFFFFFFF, 0x0⟩,
   ⟨0x4C, 1, 0x10000, 12, 0x100, 0x0, 0xFFFFFFFF, 0x0, 0xFFFFFFFF, 0x0⟩,
   ⟨0x50, 1, 0x10000, 12, 0x100, 0x0, 0xFFFFFFFF, 0x0, 0xFFFFFFFF, 0x0⟩,
   ⟨0x54, 1, 0x10000, 12, 0x100, 0x20000000, 0xFFFFFFFF, 0x0, 0xFFFFFFFF, 0x0⟩,
   ⟨0x58, 1, 0x10000, 12, 0x100, 0x0, 0xFFFFFFFF, 0x0, 0xFFFFFFFF, 0x0⟩,
   ⟨0x5C, 1, 0x10000, 12, 0x100, 0x0, 0xFFFFFFFF, 0x0, 0xFFFFFFFF, 0x0⟩,
   ⟨0x60, 1, 0x10000, 12, 0x100, 0x0, 0xFFFFFFFF, 0x0, 0xFFFFFFFF, 0x0⟩,
   ⟨0x64, 1, 0x10000, 12, 0x100, 0x0, 0xFFFFFFFF, 0x0, 0xFFFFFFFF, 0x0⟩,
   ⟨0x68, 1, 0x10000, 12, 0x100, 0x0, 0xFBFF1F00, 0x0, 0xFBFF1F00, 0x0⟩,
   ⟨0x6C, 1, 0x10000, 12, 0x100, 0x0, 0xFFFFFFFF, 0x0, 0xFFFFFFFF, 0x0⟩,
   ⟨0x70, 1, 0x10000, 12, 0x100, 0x0, 0xFFFFFFFF, 0x0, 0xFFFFFFFF, 0x0⟩,
   ⟨0x74, 1, 0x10000, 12, 0x100, 0x0, 0xFFFFFFFF, 0x0, 0xFFFFFFFF, 0x0⟩,
   ⟨0x78, 1, 0x10000, 12, 0x100, 0x0, 0xFFFFFFFF, 0x0, 0xFFFFFFFF, 0x0⟩,
   ⟨0x7C, 1, 0x10000, 12, 0x100, 0x0, 0xFFFFFFFF, 0x0, 0xFFFFFFFF, 0x0⟩,
   ⟨0x80, 1, 0x10000, 12, 0x100, 0x0, 0x0, 0x1F, 0x1F, 0x0⟩,
   ⟨0x84, 1, 0x10000, 12, 0x100, 0x0, 0x0, 0x0, 0x7FCF, 0x7C0⟩,
   ⟨0x88, 1, 0x10000, 12, 0x100, 0x0, 0x0, 0x0, 0xFFFFFFFF, 0x0⟩,
   ⟨0x8C, 1, 0x10000, 12, 0x100, 0x0, 0x0, 0x0, 0xFFFFFFFF, 0x0⟩,
   ⟨0x90, 1, 0x10000, 12, 0x100, 0x0, 0x0, 0x0, 0xFFFFFFFF, 0x0⟩,
   ⟨0x94, 1, 0x10000, 12, 0x100, 0x0, 0x0, 0x0, 0xFFFFFFFF, 0x0⟩,
   ⟨0x98, 1, 0x10000, 12, 0x100, 0x0, 0x0, 0x0, 0xFFFFFFFF, 0x0⟩,
   ⟨0xC00, 1, 0x10000, 1, 0x10000, 0x0, 0x0, 0x0, 0xFFFFF, 0x0⟩]
  ++ [⟨0xC04, 1, 0x10000, 1, 0x10000, 0x0, 0x0, 0x0, 0xFFFFFFFF, 0x0⟩,
   ⟨0x2000, 1, 0x10000, 12288, 0x4, 0x0, 0xFFFFFFFF, 0x0, 0xFFFFFFFF, 0x0⟩]

def regRowsDOOR : List RegRow :=
  [⟨0x0, 1, 0x10000, 2, 0x100, 0x0, 0xFE000000, 0x0, 0xFE000000, 0x0⟩,
   ⟨0x4, 1, 0x10000, 2, 0x100, 0x186A00A0, 0x3FFF03FF, 0x0, 0x3FFF03FF, 0x0⟩,
   ⟨0x8, 1, 0x10000, 2, 0x100, 0x1, 0xF0000FF, 0x0, 0xF0000FF, 0x0⟩,
   ⟨0xC, 1, 0x10000, 2, 0x100, 0x1000, 0xFFFFF, 0x0, 0xFFFFF, 0x0⟩,
   ⟨0x10, 1, 0x10000, 2, 0x100, 0x0, 0xFFFFFFFF, 0x0, 0xFFFFFFFF, 0x0⟩,
   ⟨0x14, 1, 0x10000, 2, 0x100, 0x0, 0xFFF00000, 0x0, 0xFFF00000, 0x0⟩,
   ⟨0x18, 1, 0x10000, 2, 0x100, 0x0, 0xFFFFFFFF, 0x0, 0xFFFFFFFF, 0x0⟩,
   ⟨0x1C, 1, 0x10000, 2, 0x100, 0x0, 0xFFFFFFFF, 0x0, 0xFFFFFFFF, 0x0⟩,
   ⟨0x20, 1, 0x10000, 2, 0x100, 0x0, 0xFFFFFFFF, 0x0, 0xFFFFFFFF, 0x0⟩,
   ⟨0x24, 1, 0x10000, 2, 0x100, 0x0, 0xFFFFFFFF, 0x0, 0xFFFFFFFF, 0x0⟩,
   ⟨0x28, 1, 0x10000, 2, 0x100, 0x0, 0xFFFFFFFF, 0x0, 0xFFFFFFFF, 0x0⟩,
   ⟨0x2C, 1, 0x10000, 2, 0x100, 0x0, 0xFFFFFFFF, 0x0, 0xFFFFFFFF, 0x0⟩,
   ⟨0x30, 1, 0x10000, 2, 0x100, 0x0, 0xFFFF, 0x0, 0xFFFF, 0x0⟩,
   ⟨0x34, 1, 0x10000, 2, 0x100, 0x8, 0xFFBF00FF, 0x0, 0xFFBF00FF, 0x0⟩,
   ⟨0x38, 1, 0x10000, 2, 0x100, 0x3A983A98, 0xFFFFFFFF, 0x0, 0xFFFFFFFF, 0x0⟩,
   ⟨0x3C, 1, 0x10000, 2, 0x100, 0x27100FA0, 0xFFFFFFFF, 0x0, 0xFFFFFFFF, 0x0⟩,
   ⟨0x40, 1, 0x10000, 2, 0x100, 0xC800C8, 0xFFFFFFFF, 0x0, 0xFFFFFFFF, 0x0⟩,
   ⟨0x54, 1, 0x10000, 2, 0x100, 0x320032, 0xFFFFFFFF, 0x0, 0xFFFFFFFF, 0x0⟩,
   ⟨0x44, 1, 0x10000, 2, 0x100, 0xC03C0010, 0xFFFFF0FF, 0x0, 0xFFFFF0FF, 0x0⟩,
   ⟨0x48, 1, 0x10000, 2, 0x100, 0x144000, 0xFFFFFFFF, 0x0, 0xFFFFFFFF, 0x0⟩,
   ⟨0x4C, 1, 0x10000, 2, 0x100, 0x6000032, 0x8F00FFFF, 0x0, 0x8F00FFFF, 0x0⟩,
   ⟨0x50, 1, 0x10000, 2, 0x100, 0x0, 0xFFFFFFFF, 0x0, 0xFFFFFFFF, 0x0⟩,
   ⟨0x58, 1, 0x10000, 2, 0x100, 0x0, 0x0, 0x1F, 0x1F, 0x0⟩,
   ⟨0x5C, 1, 0x10000, 2, 0x100, 0x0, 0x0, 0x0, 0xFFFF003D, 0x10⟩,
   ⟨0x60, 1, 0x10000, 2, 0x100, 0x0, 0x0, 0x0, 0x3F, 0x3F⟩,
   ⟨0x64, 1, 0x10000, 2, 0x100, 0x0, 0x0, 0x0, 0xFFFFFFFF, 0x0⟩,
   ⟨0x68, 1, 0x10000, 2, 0x100, 0x0, 0x0, 0x0, 0xFFFFFFFF, 0x0⟩,
   ⟨0x6C, 1, 0x10000, 2, 0x100, 0x0, 0x0, 0x0, 0xFFFFFFFF, 0x0⟩,
   ⟨0x70, 1, 0x10000, 2, 0x100, 0x0, 0x0, 0x0, 0xFFFFFFFF, 0x0⟩,
   ⟨0x80, 2, 0x100, 8, 0x4, 0x0, 0x0, 0x0, 0xFFFFFFFF, 0x0⟩,
   ⟨0x800, 1, 0x10000, 1, 0x10000, 0x0, 0xFFFF, 0x0, 0xFFFF, 0x0⟩,
   ⟨0x804, 1, 0x10000, 1, 0x10000, 0xFFFF, 0x0, 0x0, 0xFFFFFFFF, 0xFFFF0000⟩,
   ⟨0x808, 1, 0x10000, 1, 0x10000, 0x0, 0x0, 0x1, 0x1, 0x0⟩,
   ⟨0x840, 1, 0x10000, 16, 0x4, 0x0, 0xFFFF, 0x0, 0xFFFF, 0x0⟩,
   ⟨0x880, 1, 0x10000, 16, 0x4, 0x0, 0x0, 0x0, 0xFFFF, 0x0⟩,
   ⟨0x8C0, 1, 0x10000, 16, 0x4, 0xFFFF0000, 0xFFFFFFFF, 0x0, 0xFFFFFFFF, 0x0⟩,
   ⟨0x900, 1, 0x10000, 1, 0x10000, 0x0, 0xFFFFFFFF, 0x0, 0xFFFFFFFF, 0x0⟩,
   ⟨0x940, 1, 0x10000, 1, 0x10000, 0x0, 0x0, 0xFF00001F, 0xFF00001F, 0x0⟩,
   ⟨0x944, 1, 0x10000, 1, 0x10000, 0x0, 0x0, 0x0, 0xFFE0FFFF, 0x0⟩,
   ⟨0x1000, 1, 0x10000, 2048, 0x4, 0x0, 0xFFFF, 0x0, 0xFFFF, 0x0⟩]
  ++ [⟨0x3000, 1, 0x10000, 1024, 0x4, 0x0, 0xFFFFFFFF, 0x0, 0xFFFFFFFF, 0x0⟩]

def regRowsDISPATCH : List RegRow :=
  [⟨0x0, 1, 0x10000, 1, 0x10000, 0x3030000, 0xFFFFCFFF, 0x0, 0xFFFFCFFF, 0x0⟩,
   ⟨0x4, 1, 0x10000, 1, 0x10000, 0x0, 0xFFFFFFFF, 0x0, 0xFFFFFFFF, 0x0⟩,
   ⟨0x8, 1, 0x10000, 1, 0x10000, 0x1, 0xFFFF, 0x0, 0xFFFF, 0x0⟩,
   ⟨0xC, 1, 0x10000, 1, 0x10000, 0x0, 0xFFFFFFFF, 0x0, 0xFFFFFFFF, 0x0⟩,
   ⟨0x10, 1, 0x10000, 1, 0x10000, 0x0, 0xFFFF, 0x0, 0xFFFFFFFF, 0x0⟩,
   ⟨0x14, 1, 0x10000, 1, 0x10000, 0x0, 0xFFFFFFFF, 0x0, 0xFFFFFFFF, 0x0⟩,
   ⟨0x18, 1, 0x10000, 1, 0x10000, 0x0, 0xFFFFFFFF, 0x0, 0xFFFFFFFF, 0x0⟩,
   ⟨0x1C, 1, 0x10000, 1, 0x10000, 0x0, 0xFFFFFFFF, 0x0, 0xFFFFFFFF, 0x0⟩,
   ⟨0x20, 1, 0x10000, 1, 0x10000, 0x5DC0BB8, 0xFFFFFFFF, 0x0, 0xFFFFFFFF, 0x0⟩,
   ⟨0x24, 1, 0x10000, 1, 0x10000, 0xFA00BB8, 0xFFFFFFFF, 0x0, 0xFFFFFFFF, 0x0⟩,
   ⟨0x28, 1, 0x10000, 1, 0x10000, 0x9C40BB8, 0xFFFFFFFF, 0x0, 0xFFFFFFFF, 0x0⟩,
   ⟨0x2C, 1, 0x10000, 1, 0x10000, 0x1000100, 0xFFFFFFFF, 0x0, 0xFFFFFFFF, 0x0⟩,
   ⟨0x30, 1, 0x10000, 1, 0x10000, 0x800000, 0xFFFFFFFF, 0x0, 0xFFFFFFFF, 0x0⟩,
   ⟨0x34, 1, 0x10000, 1, 0x10000, 0x10007D0, 0xFFFFFFFF, 0x0, 0xFFFFFFFF, 0x0⟩,
   ⟨0x38, 1, 0x10000, 1, 0x10000, 0x5A500000, 0xFFFF00FF, 0x0, 0xFFFF00FF, 0x0⟩,
   ⟨0x40, 1, 0x10000, 1, 0x10000, 0x0, 0xF77FFFFF, 0x0, 0xF77FFFFF, 0x0⟩,
   ⟨0x44, 1, 0x10000, 1, 0x10000, 0x0, 0x3FF, 0x0, 0x3FF, 0x0⟩,
   ⟨0x48, 1, 0x10000, 1, 0x10000, 0x0, 0x0, 0x1, 0x1, 0x0⟩,
   ⟨0x50, 1, 0x10000, 1, 0x10000, 0x0, 0x0, 0x0, 0xFE00FFFF, 0x4000000⟩,
   ⟨0x54, 1, 0x10000, 1, 0x10000, 0x0, 0x0, 0x0, 0xFFFFFFFF, 0x0⟩,
   ⟨0x58, 1, 0x10000, 1, 0x10000, 0x0, 0x0, 0x0, 0xFFFFFFFF, 0x0⟩,
   ⟨0x5C, 1, 0x10000, 1, 0x10000, 0x0, 0x0, 0x0, 0xFFE0FFFF, 0x0⟩,
   ⟨0x60, 1, 0x10000, 1, 0x10000, 0x0, 0x0, 0x0, 0xE7FF0000, 0x0⟩,
   ⟨0x64, 1, 0x10000, 1, 0x10000, 0x0, 0x0, 0x0, 0xFFFFFFFF, 0x0⟩,
   ⟨0x68, 1, 0x10000, 1, 0x10000, 0x0, 0x0, 0x7, 0x7, 0x0⟩,
   ⟨0x6C, 1, 0x10000, 1, 0x10000, 0x0, 0x0, 0x0, 0xF07FFF00, 0x0⟩,
   ⟨0x70, 1, 0x10000, 2, 0x4, 0x9C40BB8, 0x0, 0x0, 0xFFFFFFFF, 0x0⟩,
   ⟨0x78, 1, 0x10000, 1, 0x10000, 0x0, 0x0, 0x0, 0x1, 0x0⟩,
   ⟨0x80, 1, 0x10000, 16, 0x4, 0x0, 0x0, 0x0, 0xFFFFFFFF, 0x0⟩]

def regRowsSAFE : List RegRow :=
  [⟨0x0, 1, 0x10000, 1, 0x10000, 0x0, 0x0, 0xF0000000, 0xF0000000, 0x0⟩,
   ⟨0x4, 1, 0x10000, 1, 0x10000, 0x0, 0x0, 0x0, 0xFFFCFF00, 0x0⟩,
   ⟨0x8, 1, 0x10000, 1, 0x10000, 0x0, 0x0, 0x0, 0xFC, 0xFC⟩,
   ⟨0xC, 1, 0x10000, 1, 0x10000, 0x0, 0x0, 0x0, 0xFFFF0000, 0x0⟩,
   ⟨0x10, 1, 0x10000, 1, 0x10000, 0x0, 0x0, 0x0, 0xFFFFFFFF, 0x0⟩,
   ⟨0x20, 1, 0x10000, 1, 0x10000, 0xA06, 0xF800FFFF, 0x0, 0xF800FFFF, 0x0⟩,
   ⟨0x24, 1, 0x10000, 1, 0x10000, 0x10000, 0xFFFFFFFF, 0x0, 0xFFFFFFFF, 0x0⟩,
   ⟨0x28, 1, 0x10000, 1, 0x10000, 0x0, 0xFFFFFFFF, 0x0, 0xFFFFFFFF, 0x0⟩,
   ⟨0x2C, 1, 0x10000, 1, 0x10000, 0x0, 0xFFFFFFFF, 0x0, 0xFFFFFFFF, 0x0⟩,
   ⟨0x30, 1, 0x10000, 1, 0x10000, 0x0, 0xFFFFFFFF, 0x0, 0xFFFFFFFF, 0x0⟩,
   ⟨0x34, 1, 0x10000, 1, 0x10000, 0x320012C, 0xFFFFFFFF, 0x0, 0xFFFFFFFF, 0x0⟩,
   ⟨0x38, 1, 0x10000, 1, 0x10000, 0x14061A, 0x80FFFFFF, 0x0, 0x80FFFFFF, 0x0⟩,
   ⟨0x3C, 1, 0x10000, 1, 0x10000, 0x1F4000A, 0xFFFFFFFF, 0x0, 0xFFFFFFFF, 0x0⟩,
   ⟨0x40, 1, 0x10000, 1, 0x10000, 0x1F4, 0xFFFF, 0x0, 0xFFFF, 0x0⟩,
   ⟨0x44, 1, 0x10000, 1, 0x10000, 0x640032, 0xFFFFFFFF, 0x0, 0xFFFFFFFF, 0x0⟩,
   ⟨0x80, 1, 0x10000, 8, 0x4, 0x14, 0xE03F3FFF, 0x0, 0xE03F3FFF, 0x0⟩,
   ⟨0xA0, 1, 0x10000, 4, 0x4, 0x0, 0xFFFFFFFF, 0x0, 0xFFFFFFFF, 0x0⟩,
   ⟨0xB0, 1, 0x10000, 4, 0x4, 0x0, 0xFFFFFFFF, 0x0, 0xFFFFFFFF, 0x0⟩,
   ⟨0xC0, 1, 0x10000, 1, 0x10000, 0x0, 0x0, 0x0, 0xFFFFFFFF, 0x0⟩,
   ⟨0xC4, 1, 0x10000, 1, 0x10000, 0x0, 0x0, 0x0, 0xFFFFFFFF, 0x0⟩,
   ⟨0xCC, 1, 0x10000, 1, 0x10000, 0x0, 0x0, 0x0, 0xFFFFFFFF, 0x0⟩,
   ⟨0xC8, 1, 0x10000, 1, 0x10000, 0x0, 0x0, 0x0, 0xFF, 0x0⟩]

def regRowsFIELD : List RegRow :=
  [⟨0x0, 1, 0x10000, 48, 0x20, 0x4, 0xFFFEFFFF, 0x0, 0xFFFEFFFF, 0x0⟩,
   ⟨0x4, 1, 0x10000, 48, 0x20, 0x0, 0x1, 0x0, 0x1, 0x0⟩,
   ⟨0x8, 1, 0x10000, 48, 0x20, 0x0, 0xFFFC003F, 0x0, 0xFFFC003F, 0x0⟩,
   ⟨0xC, 1, 0x10000, 48, 0x20, 0x0, 0x0, 0x0, 0xFFFEFF3F, 0x2060000⟩,
   ⟨0x10, 1, 0x10000, 48, 0x20, 0x0, 0x0, 0x0, 0xFFFFFFFF, 0x0⟩,
   ⟨0x14, 1, 0x10000, 48, 0x20, 0x0, 0x0, 0x0, 0xFFFFFFFF, 0x0⟩,
   ⟨0x18, 1, 0x10000, 48, 0x20, 0x0, 0x0, 0xF, 0xF, 0x0⟩,
   ⟨0x800, 1, 0x10000, 2, 0x20, 0x0, 0x0, 0x0, 0xFF000000, 0x0⟩,
   ⟨0x804, 1, 0x10000, 2, 0x20, 0x0, 0x0, 0x0, 0xFFFFFFFF, 0x0⟩,
   ⟨0x808, 1, 0x10000, 2, 0x20, 0x0, 0x0, 0x1, 0x1, 0x0⟩,
   ⟨0x80C, 1, 0x10000, 2, 0x20, 0x0, 0x0, 0x0, 0xFFFFFFFF, 0x0⟩,
   ⟨0x900, 1, 0x10000, 1, 0x10000, 0x0, 0x0, 0x0, 0xFFFFFFFF, 0x0⟩,
   ⟨0x904, 1, 0x10000, 1, 0x10000, 0x0, 0x0, 0x0, 0xFFFFFFFF, 0x0⟩,
   ⟨0x908, 1, 0x10000, 1, 0x10000, 0x0, 0x0, 0x0, 0xFFFFFFFF, 0x0⟩]

def regRowsLEDGER : List RegRow :=
  [⟨0x0, 1, 0x10000, 32, 0x4, 0x0, 0xFFFFFFFF, 0x0, 0xFFFFFFFF, 0x0⟩,
   ⟨0x80, 1, 0x10000, 32, 0x4, 0x0, 0xFF, 0x0, 0xFF, 0x0⟩,
   ⟨0x100, 1, 0x10000, 1, 0x10000, 0x0, 0xFFFF, 0x0, 0xFFFF, 0x0⟩,
   ⟨0x110, 1, 0x10000, 2, 0x4, 0x0, 0x0, 0x0, 0xFFFFFFFF, 0x0⟩,
   ⟨0x120, 1, 0x10000, 2, 0x4, 0x3F00, 0x0, 0x0, 0x80FF3F00, 0x0⟩,
   ⟨0x130, 1, 0x10000, 2, 0x4, 0x0, 0x0, 0x0, 0x3FFF, 0x0⟩,
   ⟨0x140, 1, 0x10000, 2, 0x4, 0x0, 0x0, 0x0, 0xFFFFFFFF, 0x0⟩,
   ⟨0x150, 1, 0x10000, 1, 0x10000, 0x0, 0x0, 0x1, 0x1, 0x0⟩]

def regRowsRANGE : List RegRow :=
  [⟨0x0, 1, 0x10000, 1, 0x10000, 0x100000, 0xF8F00000, 0x0, 0xF8F00000, 0x0⟩,
   ⟨0x4, 1, 0x10000, 1, 0x10000, 0x0, 0x0, 0xE0000000, 0xE0000000, 0x0⟩,
   ⟨0x8, 1, 0x10000, 1, 0x10000, 0x0, 0x0, 0x0, 0xFFE0FF7F, 0x0⟩,
   ⟨0xC, 1, 0x10000, 1, 0x10000, 0x0, 0x0, 0x0, 0xFFFFFF00, 0x0⟩,
   ⟨0x10, 1, 0x10000, 1, 0x10000, 0x0, 0x0, 0x0, 0xFFFFFFFF, 0x0⟩,
   ⟨0x14, 1, 0x10000, 1, 0x10000, 0x0, 0x0, 0x0, 0xFFFFFFFF, 0x0⟩,
   ⟨0x18, 1, 0x10000, 1, 0x10000, 0x0, 0x0, 0x0, 0xFFFFFFFF, 0x0⟩,
   ⟨0x1C, 1, 0x10000, 1, 0x10000, 0x0, 0x0, 0x0, 0xFFFFFFFF, 0x0⟩,
   ⟨0x40, 1, 0x10000, 14, 0x4, 0x0, 0xFFFFFFFF, 0x0, 0xFFFFFFFF, 0x0⟩]

def regRowsHEALTH : List RegRow :=
  [⟨0x0, 1, 0x10000, 32, 0x10, 0x0, 0x800000FF, 0x0, 0x800000FF, 0x0⟩,
   ⟨0x4, 1, 0x10000, 32, 0x10, 0x0, 0x0, 0x0, 0xFFFFFFFF, 0x0⟩,
   ⟨0x8, 1, 0x10000, 32, 0x10, 0x0, 0x0, 0x0, 0xFFFFFFFF, 0x0⟩,
   ⟨0xC, 1, 0x10000, 32, 0x10, 0x0, 0xFFFFFFFF, 0x0, 0xFFFFFFFF, 0x0⟩,
   ⟨0x400, 1, 0x10000, 24, 0x10, 0x0, 0x8000000F, 0x0, 0x8000000F, 0x0⟩,
   ⟨0x404, 1, 0x10000, 24, 0x10, 0x0, 0x0, 0x0, 0xFFFFFFFF, 0x0⟩,
   ⟨0x408, 1, 0x10000, 24, 0x10, 0x0, 0x0, 0x0, 0xFFFFFFFF, 0x0⟩,
   ⟨0x600, 1, 0x10000, 1, 0x10000, 0x0, 0x0, 0xFFFFFFFF, 0xFFFFFFFF, 0x0⟩,
   ⟨0x604, 1, 0x10000, 1, 0x10000, 0x0, 0x0, 0xFFFFFF, 0xFFFFFF, 0x0⟩,
   ⟨0x608, 1, 0x10000, 1, 0x10000, 0x0, 0x0, 0xFFFFFFFF, 0xFFFFFFFF, 0x0⟩,
   ⟨0x700, 1, 0x10000, 1, 0x10000, 0x80000000, 0x80000000, 0x0, 0x80000000, 0x0⟩,
   ⟨0x704, 1, 0x10000, 1, 0x10000, 0x0, 0x0, 0xF3000000, 0xF3000000, 0x0⟩,
   ⟨0x708, 1, 0x10000, 1, 0x10000, 0xC0000000, 0x0, 0x0, 0xFCFFFFFF, 0x8000000⟩,
   ⟨0x70C, 1, 0x10000, 1, 0x10000, 0x0, 0x0, 0x0, 0xFFFFFFFF, 0x0⟩,
   ⟨0x710, 1, 0x10000, 1, 0x10000, 0x0, 0x0, 0x0, 0xFFFC0000, 0x0⟩,
   ⟨0x800, 1, 0x10000, 24, 0x4, 0x0, 0xFFFFFFFF, 0x0, 0xFFFFFFFF, 0x0⟩,
   ⟨0x900, 1, 0x10000, 1, 0x10000, 0x0, 0x0, 0x0, 0xFFFF0001, 0x0⟩]

def regRowsLINK : List RegRow :=
  [⟨0x0, 1, 0x10000, 2, 0x100, 0x0, 0xF800007F, 0x0, 0xF800007F, 0x0⟩,
   ⟨0x4, 1, 0x10000, 2, 0x100, 0x31E0707, 0xFFFF7F7F, 0x0, 0xFFFF7F7F, 0x0⟩,
   ⟨0x8, 1, 0x10000, 2, 0x100, 0x10E0303, 0xFF1F0F0F, 0x0, 0xFF1F0F0F, 0x0⟩,
   ⟨0xC, 1, 0x10000, 2, 0x100, 0x0, 0x0, 0x0, 0xFFFFFF00, 0x0⟩,
   ⟨0x10, 1, 0x10000, 2, 0x100, 0x0, 0x0, 0x0, 0xFFFFFFFF, 0x0⟩,
   ⟨0x14, 1, 0x10000, 2, 0x100, 0x0, 0x0, 0x3, 0x3, 0x0⟩,
   ⟨0x20, 2, 0x100, 16, 0x4, 0x0, 0xDFFFFFFF, 0x0, 0xDFFFFFFF, 0x0⟩,
   ⟨0x60, 2, 0x100, 16, 0x4, 0x0, 0x3FFFFFFF, 0x0, 0x3FFFFFFF, 0x0⟩,
   ⟨0x400, 1, 0x10000, 4, 0x20, 0x101014, 0xFFFFFFFF, 0x0, 0xFFFFFFFF, 0x0⟩,
   ⟨0x404, 1, 0x10000, 4, 0x20, 0x6C82, 0x3FFFFF, 0x0, 0x3FFFFF, 0x0⟩,
   ⟨0x408, 1, 0x10000, 4, 0x20, 0x0, 0x0, 0x0, 0xE0000000, 0x0⟩,
   ⟨0x40C, 1, 0x10000, 4, 0x20, 0x0, 0x0, 0x0, 0xFFFFFFFF, 0x0⟩,
   ⟨0x410, 1, 0x10000, 4, 0x20, 0x0, 0x0, 0x1, 0x1, 0x0⟩,
   ⟨0x600, 1, 0x10000, 1, 0x10000, 0x9, 0xE00000FF, 0x0, 0xE00000FF, 0x0⟩,
   ⟨0x604, 1, 0x10000, 1, 0x10000, 0x0, 0x0, 0x8300000F, 0x8300000F, 0x0⟩,
   ⟨0x608, 1, 0x10000, 1, 0x10000, 0x0, 0xFFFFFFFF, 0x0, 0xFFFFFFFF, 0x0⟩,
   ⟨0x60C, 1, 0x10000, 1, 0x10000, 0x0, 0xFFFFFFFF, 0x0, 0xFFFFFFFF, 0x0⟩,
   ⟨0x610, 1, 0x10000, 1, 0x10000, 0x0, 0x0, 0x0, 0xFFFFFFFF, 0x0⟩,
   ⟨0x614, 1, 0x10000, 1, 0x10000, 0x0, 0x0, 0x0, 0xFFFFFFFF, 0x0⟩,
   ⟨0x618, 1, 0x10000, 1, 0x10000, 0x0, 0x0, 0x0, 0xC000FFFF, 0x0⟩]

def regRowsHOSTIF : List RegRow :=
  [⟨0x0, 1, 0x10000, 1, 0x10000, 0x0, 0xFFF, 0x0, 0xFFF, 0x0⟩,
   ⟨0x4, 1, 0x10000, 1, 0x10000, 0x0, 0x0, 0x0, 0xE000FFFF, 0x0⟩,
   ⟨0x8, 1, 0x10000, 1, 0x10000, 0x0, 0x0, 0x0, 0xFFFFFF00, 0x0⟩,
   ⟨0xC, 1, 0x10000, 1, 0x10000, 0x0, 0x0, 0x1, 0x1, 0x0⟩]

def regRowsKEEPER : List RegRow :=
  [⟨0x0, 1, 0x10000, 1, 0x10000, 0x0, 0x0, 0x0, 0xFE00FFFF, 0x26000000⟩,
   ⟨0x4, 1, 0x10000, 1, 0x10000, 0x0, 0xC0000000, 0x0, 0xC0000000, 0x0⟩,
   ⟨0x8, 1, 0x10000, 1, 0x10000, 0x0, 0x0, 0x3, 0x3, 0x0⟩,
   ⟨0x10, 1, 0x10000, 1, 0x10000, 0x0, 0x0, 0x0, 0xFFFFFFFF, 0x0⟩,
   ⟨0x14, 1, 0x10000, 1, 0x10000, 0x0, 0x0, 0x0, 0xFFFFFFFF, 0x0⟩,
   ⟨0x18, 1, 0x10000, 1, 0x10000, 0x0, 0x0, 0x0, 0xFFFFFFFF, 0x0⟩,
   ⟨0x20, 1, 0x10000, 1, 0x10000, 0x0, 0xFFFFFFFF, 0x0, 0xFFFFFFFF, 0x0⟩,
   ⟨0x24, 1, 0x10000, 1, 0x10000, 0x0, 0xFFFFFFFF, 0x0, 0xFFFFFFFF, 0x0⟩,
   ⟨0x28, 1, 0x10000, 1, 0x10000, 0x0, 0xFFFFFFFF, 0x0, 0xFFFFFFFF, 0x0⟩,
   ⟨0x2C, 1, 0x10000, 1, 0x10000, 0x0, 0xFFFFFFFF, 0x0, 0xFFFFFFFF, 0x0⟩,
   ⟨0x30, 1, 0x10000, 1, 0x10000, 0x0, 0xEFFF0FFF, 0x0, 0xEFFF0FFF, 0x0⟩,
   ⟨0x34, 1, 0x10000, 1, 0x10000, 0x0, 0x0, 0xFFFF, 0xFFFF, 0x0⟩,
   ⟨0x38, 1, 0x10000, 1, 0x10000, 0x0, 0x0, 0x0, 0xFFFF0FFF, 0x0⟩,
   ⟨0x40, 1, 0x10000, 1, 0x10000, 0x0, 0x0, 0x0, 0xFFFF01FF, 0x0⟩,
   ⟨0x44, 1, 0x10000, 1, 0x10000, 0x0, 0x0, 0xFFFFFFFF, 0xFFFFFFFF, 0x0⟩,
   ⟨0x1000, 1, 0x10000, 1024, 0x4, 0x0, 0x0, 0x0, 0xFFFFFFFF, 0x0⟩]

/-- The register rows of block `k`, counted from 0x4000_0000 in steps of 64 KiB (R46). -/
def regRows : Nat → List RegRow
  | 0 => regRowsSYS
  | 1 => regRowsGALLERY
  | 2 => regRowsTIME
  | 3 => regRowsNET
  | 4 => regRowsNET
  | 5 => regRowsLLP
  | 6 => regRowsRINGS
  | 7 => regRowsPOS
  | 8 => regRowsMOTION
  | 9 => regRowsCTRL
  | 10 => regRowsDOOR
  | 11 => regRowsDISPATCH
  | 12 => regRowsSAFE
  | 13 => regRowsFIELD
  | 14 => regRowsLEDGER
  | 15 => regRowsRANGE
  | 16 => regRowsHEALTH
  | 17 => regRowsLINK
  | 18 => regRowsHOSTIF
  | 19 => regRowsKEEPER
  | _ => []

end Sys2Proof.Machine
end

