-- ==== Sys2Proof/Syntax.lean ====
section
/-! DEFINITION. The commands of the part, one constructor per row of spec/opcode_table.json: the instructions of the lanes
(with the lane that executes them), and the events, commits and host accesses (with the instant, in ns of device time, and
the values that come from outside where the effect needs them). -/

namespace Sys2Proof

/-- The ECC condition that a read of a RAM meets (R27, R51). -/
inductive Ecc where
  | clean
  | single
  | double
  deriving DecidableEq, Repr

/-- How the snapshot digests of the three gallery copies compare (R38): all equal, one copy differs, or no two agree. -/
inductive SnapDigests where
  | agree
  | differs (copy : Lane)
  | none
  deriving DecidableEq, Repr

/-- What is read through ECC, and what ECC finds; for a read by a block or by the host, the instant of the row that reads (R51). -/
structure Through (α : Type) where
  what : α
  ecc  : Ecc
  deriving DecidableEq, Repr

/-- A lane's request to another block: when it reaches the block, and what the answer takes (R37, R92, R93). -/
structure Request where
  t      : Nat
  waitNs : Nat
  deriving DecidableEq, Repr

/-- A fold of the tide, and when the gallery looks at it (R93). -/
structure FoldAt where
  k : Fin 64
  t : Nat
  deriving DecidableEq, Repr

/-- What a deadline finds: a shared block to which the two sets were delivered differently (R126), and an uncorrectable error of the donor
in the copy's pass (R147). -/
structure DeadlineErr where
  delivMis : Bool
  copyBad  : Bool
  deriving DecidableEq, Repr

/-- A line of an encoder input: A, B, Z (R162). -/
structure EncLine where
  n    : Fin 6
  line : Fin 3
  deriving DecidableEq, Repr

/-- A port of a network: X0 or X1 of A or B (R432). -/
structure NetPort where
  k : Fin 2
  p : Fin 2
  deriving DecidableEq, Repr

/-- A level that has lasted from `since` on, seen at `t`. -/
structure Span where
  since : Nat
  t     : Nat
  deriving DecidableEq, Repr

/-- The source port and the sequenceId of a PTP request (R427). -/
structure PtpId where
  src : BitVec 80
  seq : BitVec 16
  deriving DecidableEq, Repr

/-- A PTP request with its correctionField, ns × 2^16 (R427, R431). -/
structure PtpReq where
  id   : PtpId
  corr : Int
  deriving DecidableEq, Repr

/-- An instant at which a start-up may begin, with the levels of the BOOT_SEL and base-claim balls there (R106, R455, R497). -/
structure Strapped where
  sel  : BitVec 2
  base : BitVec 7
  t    : Nat
  deriving DecidableEq, Repr

/-- A fall of a supply of the device, and whether VDD_IO is out of range (R516, R518). -/
structure SupplyOut where
  io : Bool
  t  : Nat
  deriving DecidableEq, Repr

/-- The commands (rows of the opcode table, in its order). -/
inductive Instr where
  | add (l : Lane) (gd gs gt : GReg)
  | sub (l : Lane) (gd gs gt : GReg)
  | adds (l : Lane) (gd gs gt : GReg)
  | subs (l : Lane) (gd gs gt : GReg)
  | and (l : Lane) (gd gs gt : GReg)
  | or (l : Lane) (gd gs gt : GReg)
  | xor (l : Lane) (gd gs gt : GReg)
  | slt (l : Lane) (gd gs gt : GReg)
  | sltu (l : Lane) (gd gs gt : GReg)
  | sll (l : Lane) (gd gs gt : GReg)
  | srl (l : Lane) (gd gs gt : GReg)
  | sra (l : Lane) (gd gs gt : GReg)
  | slli (l : Lane) (gd gs : GReg) (n : BitVec 5)
  | srli (l : Lane) (gd gs : GReg) (n : BitVec 5)
  | srai (l : Lane) (gd gs : GReg) (n : BitVec 5)
  | min (l : Lane) (gd gs gt : GReg)
  | max (l : Lane) (gd gs gt : GReg)
  | minu (l : Lane) (gd gs gt : GReg)
  | maxu (l : Lane) (gd gs gt : GReg)
  | abs (l : Lane) (gd gs : GReg)
  | abss (l : Lane) (gd gs : GReg)
  | neg (l : Lane) (gd gs : GReg)
  | negs (l : Lane) (gd gs : GReg)
  | clz (l : Lane) (gd gs : GReg)
  | shls (l : Lane) (gd gs gt : GReg)
  | extu (l : Lane) (gd gs : GReg) (lsb lenM1 : BitVec 5)
  | exts (l : Lane) (gd gs : GReg) (lsb lenM1 : BitVec 5)
  | ins (l : Lane) (gd gs : GReg) (lsb lenM1 : BitVec 5)
  | clamp (l : Lane) (gd gs gl gh : GReg)
  | clampu (l : Lane) (gd gs gl gh : GReg)
  | addi (l : Lane) (gd gs : GReg) (imm : BitVec 16)
  | addis (l : Lane) (gd gs : GReg) (imm : BitVec 16)
  | slti (l : Lane) (gd gs : GReg) (imm : BitVec 16)
  | sltiu (l : Lane) (gd gs : GReg) (imm : BitVec 16)
  | andi (l : Lane) (gd gs : GReg) (imm : BitVec 16)
  | ori (l : Lane) (gd gs : GReg) (imm : BitVec 16)
  | xori (l : Lane) (gd gs : GReg) (imm : BitVec 16)
  | lui (l : Lane) (gd : GReg) (imm : BitVec 16)
  | mul (l : Lane) (gd gs gt : GReg)
  | mulh (l : Lane) (gd gs gt : GReg)
  | mulhu (l : Lane) (gd gs gt : GReg)
  | mulq31 (l : Lane) (gd gs gt : GReg)
  | div (l : Lane) (gd gs gt : GReg)
  | divu (l : Lane) (gd gs gt : GReg)
  | rem (l : Lane) (gd gs gt : GReg)
  | remu (l : Lane) (gd gs gt : GReg)
  | mac (l : Lane) (ad : AReg) (gs gt : GReg)
  | msu (l : Lane) (ad : AReg) (gs gt : GReg)
  | macq15 (l : Lane) (ad : AReg) (gs gt : GReg)
  | msuq15 (l : Lane) (ad : AReg) (gs gt : GReg)
  | macq31 (l : Lane) (ad : AReg) (gs gt : GReg)
  | msuq31 (l : Lane) (ad : AReg) (gs gt : GReg)
  | mta (l : Lane) (ad : AReg) (gs : GReg)
  | mtai (l : Lane) (ad : AReg) (gs : GReg)
  | mtah (l : Lane) (ad : AReg) (gs : GReg)
  | mtal (l : Lane) (ad : AReg) (gs : GReg)
  | mfa (l : Lane) (gd : GReg) (ad : AReg)
  | mfai (l : Lane) (gd : GReg) (ad : AReg)
  | mfah (l : Lane) (gd : GReg) (ad : AReg)
  | mfal (l : Lane) (gd : GReg) (ad : AReg)
  | clra (l : Lane) (ad : AReg)
  | adda (l : Lane) (ad ar : AReg)
  | suba (l : Lane) (ad ar : AReg)
  | shra (l : Lane) (ad : AReg) (n : BitVec 5)
  | shla (l : Lane) (ad : AReg) (n : BitVec 5)
  | clampa (l : Lane) (ad : AReg) (gl gh : GReg)
  | lw (l : Lane) (gd gb : GReg) (imm : BitVec 16) (ecc : Ecc)
  | lh (l : Lane) (gd gb : GReg) (imm : BitVec 16) (ecc : Ecc)
  | lhu (l : Lane) (gd gb : GReg) (imm : BitVec 16) (ecc : Ecc)
  | lb (l : Lane) (gd gb : GReg) (imm : BitVec 16) (ecc : Ecc)
  | lbu (l : Lane) (gd gb : GReg) (imm : BitVec 16) (ecc : Ecc)
  | live (l : Lane) (gd gb : GReg) (imm : BitVec 16) (w : Request)
  | sw (l : Lane) (gs gb : GReg) (imm : BitVec 16)
  | sh (l : Lane) (gs gb : GReg) (imm : BitVec 16)
  | sb (l : Lane) (gs gb : GReg) (imm : BitVec 16)
  | beq (l : Lane) (gs gt : GReg) (off : BitVec 16)
  | bne (l : Lane) (gs gt : GReg) (off : BitVec 16)
  | blt (l : Lane) (gs gt : GReg) (off : BitVec 16)
  | bge (l : Lane) (gs gt : GReg) (off : BitVec 16)
  | bltu (l : Lane) (gs gt : GReg) (off : BitVec 16)
  | bgeu (l : Lane) (gs gt : GReg) (off : BitVec 16)
  | j (l : Lane) (off : BitVec 26)
  | jal (l : Lane) (off : BitVec 26)
  | jalr (l : Lane) (gd gb : GReg) (imm : BitVec 16)
  | tbegin (l : Lane)
  | tcommit (l : Lane)
  | tcommitE (l : Lane)
  | tabort (l : Lane)
  | tabortE (l : Lane)
  | tstage (l : Lane) (ga gv gm : GReg)
  | bell (l : Lane) (gd : GReg) (t waitNs : Nat)
  | bellSetAgreed (k : Fin 32)
  | evnext (l : Lane) (gd : GReg)
  | evstamp (l : Lane) (gd : GReg)
  | rpush (l : Lane) (gr : GReg) (gp : Through GReg)
  | rpop (l : Lane) (gr gp : GReg) (ecc : Ecc)
  | rcnt (l : Lane) (gd gr : GReg)
  | tnow (l : Lane) (gd : GReg)
  | tnowL (l : Lane) (gd : GReg) (t frac waitNs : Nat)
  | tshort (l : Lane) (gd : GReg)
  | tshortL (l : Lane) (gd : GReg) (t waitNs : Nat)
  | text (l : Lane) (gd gs : GReg)
  | vfold (l : Lane) (gd gs : GReg) (w : Request)
  | vfoldValueFixed (k : FoldAt)
  | trap (l : Lane) (n : BitVec 5)
  | rdsw (l : Lane) (gd : GReg)
  | wrsw (l : Lane) (gs : GReg)
  | rdtp (l : Lane) (gd : GReg)
  | rdtv (l : Lane) (gd : GReg)
  | illegalWord (l : Lane) (w : Through Word)
  | laneClockLoss (l : Lane)
  | boundary (t frac : Nat) (snap : SnapDigests) (late : BitVec 3)
  | tideDeadline (t : Nat) (bad : DeadlineErr)
  | doubtExpiry (l : Lane)
  | characteristic (l : Lane) (gal wire : Bool) (t : Nat)
  | characteristicTimeout (l : Lane) (path : Fin 2) (t : Nat)
  | pathFaultClear (l : Lane) (path : Fin 2)
  | reliefResetDone (ok : Bool) (t : Nat)
  | reliefSelftestDone (ok : Bool) (t : Nat)
  | bulkPassComplete (donorOk : Bool) (t : Nat)
  | copyCommit (res : Fin 3) (t : Nat)
  | copyAbort (t : Nat)
  | reliefRetry (t : Nat)
  | shadowReturn (l : Lane)
  | snapMis
  | reliefReq (l : Lane)
  | evtEn (k : Fin 8) (v m : Word)
  | ringEn (r : Fin 64) (en : Bool)
  | ringClrDrops (r : Fin 64)
  | ringClrOvf (r : Fin 64)
  | ringProducerResume (r : Fin 64) (t : Nat)
  | tick (t : Nat)
  | encoderEdge (n : Fin 6) (a b : Bool) (h : Span)
  | encoderLoss (n : EncLine) (t : Nat)
  | indexCapture (n : Fin 6) (h : Span)
  | ssiFrameStart (m : Fin 2) (t : Nat)
  | ssiFrameComplete (m : Fin 2) (w w2 : Nat) (lineOk : Bool) (t : Nat)
  | anchorFailed (m : Fin 2) (t : Nat)
  | daymarkEdge (d : Fin 16) (lvl : Bool) (stamp t : Nat)
  | stillTimeout (t : Nat)
  | checkpointWriteComplete (t : Nat)
  | zarm (n : Fin 6)
  | encClrErrcnt (n : Fin 6)
  | encClrIdxErr (n : Fin 6)
  | encClrLoss (n : Fin 6)
  | encClrIllegal (n : Fin 6)
  | encEn (n : Fin 6) (en : Bool)
  | ssiEn (i : Fin 2) (en : Bool)
  | ssiClrErrcnt (i : Fin 2)
  | ssiClrFlags (i : Fin 2)
  | fusSrcConfig (w0 w1 w2 w3 : Word)
  | ckpt
  | clrHealth (slots : BitVec 4)
  | clrMis
  | clrSlip
  | reref
  | mapWin (w : Fin 16) (v m : Word)
  | save
  | mapSaveComplete (ok : Bool) (t : Nat)
  | revert
  | setn (n : Byte)
  | startUp
  | startDn
  | learnStop
  | build
  | cancel
  | cmpArm (c : Fin 16) (viaEn : Bool) (lo hi : Word)
  | cmpClr (c : Fin 16)
  | axEn (a : Fin 4) (en : Bool)
  | push (a : Fin 4)
  | replace (a : Fin 4)
  | flush (a : Fin 4)
  | stop (a : Fin 4)
  | qstop (a : Fin 4)
  | home (a : Fin 4)
  | mqClrFlags (a : Fin 4)
  | mqClrFault (a : Fin 4)
  | ferrFault (a : Fin 4) (t : Nat)
  | homingEdge (a : Fin 4) (c : Fin 48) (lvl : Bool) (stamp t : Nat)
  | relevReq (t : Nat)
  | revArm (a : Fin 4) (arm : Bool)
  | gearEn (en : Bool)
  | gearSwArm (arm : Bool)
  | outPhase (n : Fin 12) (t : Nat)
  | slEn (n : Fin 12) (en : Bool)
  | clrI (n : Fin 12)
  | clrCells (n : Fin 12)
  | slClrFlags (n : Fin 12)
  | restart (n : Fin 12)
  | slClrFault (n : Fin 12)
  | cellPreload (n : Fin 12) (i : Fin 1024) (v : Word)
  | adcGroupSample (g : Fin 4) (c0 c1 c2 c3 : BitVec 16) (t : Nat)
  | adcSaturation (n : Fin 16) (t : Nat)
  | updatePoint (d : Fin 2) (peak : Bool) (t : Nat)
  | tripInput (d : Fin 2) (t : Nat)
  | declaration (d : Fin 2) (cause : Fin 6) (t : Nat)
  | stall (d : Fin 2) (t : Nat)
  | drvEn (d : Fin 2) (en : Bool)
  | doorSlotWriteComplete (d : Fin 2) (t : Nat)
  | tblSwap (d : Fin 2)
  | frClr (d : Fin 2)
  | doorClrFlags (d : Fin 2)
  | clrObs (d : Fin 2)
  | clrTrip (d : Fin 2)
  | fricPreload (d r : Fin 2) (i : Fin 256) (v : Word)
  | adcClrSat
  | profileSave (kind : Fin 4) (tgt : Fin 16) (rec' : Fin 32)
  | profileLoad (kind : Fin 4) (tgt : Fin 16) (rec' : Fin 32)
  | profileComplete (ok : Bool) (t : Nat)
  | epochStart (t : Through Nat)
  | evaluationComplete (t : Nat)
  | fragmentSend (f : Fin 3) (t : Nat)
  | fragmentReceive (x : NetPort) (p : List Byte) (t : Nat)
  | resolution (t : Nat)
  | resolutionComplete (t : Nat)
  | hallOpen (w : Word) (rec' : BitVec 10)
  | hallClose (w : Word) (rec' : BitVec 10)
  | destOpen (w : Word) (rec' : BitVec 10)
  | destClose (w : Word) (rec' : BitVec 10)
  | destPicked (w : Word) (rec' : BitVec 10)
  | carAdd (w : Word) (rec' : BitVec 10)
  | carRemove (w : Word) (rec' : BitVec 10)
  | carClear (w : Word) (rec' : BitVec 10)
  | dspEn (en : Bool)
  | dspClrMiss
  | dspClrErr
  | dspClrDiverge
  | monitorCycle (l : Lane) (broken lv : BitVec 48) (t : Nat)
  | restTimeout (l : Lane) (t : Nat)
  | arm
  | lock
  | release
  | reset
  | llpSlot (t : Through Nat)
  | llpCopyReceive (x : NetPort) (p : List Byte) (t : Nat)
  | llpHoldExpiry (node : Fin 136) (ty : Fin 4) (t : Nat)
  | streamLost (node : Fin 136) (t : Nat)
  | llpClr
  | filteredChange (n : Fin 48) (lvl : Bool) (stamp t : Nat)
  | counterEdge (n : Fin 48) (lvl : Bool) (stamp t : Nat)
  | wireBreak (n : Fin 48) (broken : Bool) (h : Span)
  | stg (n : Fin 32) (rb : Bool) (h : Span)
  | thermalShutdown (n : Fin 32) (t : Nat)
  | thermalRecovery (n : Fin 32) (t : Nat)
  | diagnosisPeriod (n : Fin 32) (rb : Bool) (t : Nat)
  | testSlot (t : Nat)
  | testPulseEnd (n : Fin 32) (held : Bool) (crossed : BitVec 32) (t : Nat)
  | vfieldChange (k : Fin 2) (mv temp : Int) (since t : Nat)
  | uvl (k : Fin 2) (t : Nat)
  | vfOk (k : Fin 2) (t : Nat)
  | startSlot (t : Nat)
  | commandFrame (l : Lane) (k : Fin 2) (good : Bool) (t : Nat)
  | linkFault (l : Lane) (k : Fin 2) (t : Nat)
  | chOut (n : Fin 32) (on : Bool)
  | req (n : Fin 32)
  | chClrFault (n : Fin 32)
  | chClrCnt (n : Fin 48)
  | chClrFlags (n : Fin 48)
  | dieRestart (k : Fin 2)
  | ledgerClrCnt
  | syncReceive (k p : Fin 2) (ok : Bool) (domain : BitVec 8) (src : BitVec 80) (seq : BitVec 16) (two : Bool) (t1 corr : Int) (log : Int) (t : Nat)
  | followUpReceive (x : NetPort) (src : BitVec 80) (seq : BitVec 16) (t1 corr : Int) (t : Nat)
  | delayReqSend (k : Fin 2) (t : Nat)
  | delayRespReceive (x : NetPort) (seq : BitVec 16) (t4 corr : Int) (t : Nat)
  | delayReqLost (k : Fin 2) (t : Nat)
  | announceReceive (x : NetPort) (ok : Bool) (domain : BitVec 8) (src : BitVec 80) (gm : BitVec 64) (p1 cls acc p2 : BitVec 8) (var' steps : BitVec 16) (log : Int) (t : Nat)
  | pdelayReqReceive (k p : Fin 2) (m : PtpReq) (t : Nat)
  | syncSend (k : Fin 2) (t : Nat)
  | masterLoss (k : Fin 2) (sync : Bool) (t : Nat)
  | holdMax (t : Nat)
  | restep
  | timeClrCnt
  | rateInit (v : Word)
  | relayFrame (k p : Fin 2) (f : List Byte) (fcs : Bool) (sfd t : Nat)
  | txFrame (k p : Fin 2) (t : Through Nat)
  | txComplete (k p : Fin 2) (t : Nat)
  | portEn (k p : Fin 2) (en : Bool)
  | mdioPoll (k : Fin 2) (up0 up1 : Bool) (t : Nat)
  | mdioGo (k : Fin 2) (write : Bool) (phy r : Fin 32) (data : BitVec 16)
  | mdioComplete (k : Fin 2) (data : BitVec 16) (t : Nat)
  | netClrCnt (k : Fin 2)
  | netClrErr (k : Fin 2)
  | canFrameReceive (c : Fin 2) (id : BitVec 29) (ide rtr fdf brs esi : Bool) (dlc : BitVec 4) (data : List Byte) (sof t : Nat)
  | canFrameSend (c : Fin 2) (res : Fin 3) (lec : Fin 7) (t : Through Nat)
  | txDone (c : Fin 2) (sof t : Nat)
  | canStateChange (c : Fin 2) (tec rec' : Nat) (lec : Fin 7) (t : Nat)
  | canEn (c : Fin 2) (en : Bool)
  | canClrRec (c : Fin 2)
  | canClrErr (c : Fin 2)
  | uartCharacterReceive (u : Fin 4) (ch : Byte) (parity framing brk : Bool) (stamp t : Nat)
  | uartIdleGap (u : Fin 4) (t : Nat)
  | uartSend (u : Fin 4) (fin : Bool) (t : Through Nat)
  | uartEn (u : Fin 4) (en : Bool)
  | uartClr (u : Fin 4)
  | spiGo (cs : Fin 4) (len : Fin 16)
  | spiComplete (rx : List Byte) (t : Nat)
  | hostRead (a : BitVec 24) (n : Nat) (t : Through Nat)
  | hostWrite (a : BitVec 24) (ws : List Word) (part : Bool) (t : Nat)
  | hostQuadRead (a : BitVec 24) (n : Nat) (t : Through Nat)
  | hostQuadWrite (a : BitVec 24) (ws : List Word) (part : Bool) (t : Nat)
  | hostStatus (t : Nat)
  | hostLtrWrite (v : Word) (t : Nat)
  | hostHeadWrite (r : BitVec 6) (v : Word) (t : Nat)
  | hostTailWrite (r : BitVec 6) (v : Word) (t : Nat)
  | keyWrite (sel : Fin 4) (t : Nat)
  | keyRevoke (sel : Fin 4) (t : Nat)
  | bankWrite (sel : Fin 4) (off : BitVec 22) (t : Nat)
  | bankCheck (sel : Fin 4) (t : Nat)
  | setActive (sel : Fin 4) (t : Nat)
  | provisioningComplete (ok : Bool) (t : Nat)
  | hclr
  | claimRound (rival : BitVec 8) (ok : Bool) (t : Nat)
  | holdfastTake (rival : BitVec 7) (t : Nat)
  | holdfastPass (t : Nat)
  | holdfastIdle (t : Nat)
  | rangeHeartbeat (t : Nat)
  | streamRecord (good : Bool) (tide : Word) (outcome mode st : BitVec 8) (hand : Bool) (mirror : Word) (digest : List Byte) (mask : BitVec 14) (words : List Word) (t : Nat)
  | pathLost (path : Fin 2) (t : Nat)
  | baseClaimExchange (base : BitVec 7) (hash : Word) (t : Nat)
  | take
  | handover
  | rangeClr
  | isolated (t : Nat)
  | segmentComplete (l : Lane) (area : Fin 7) (ok : Bool) (t : Nat)
  | sramScrub (fixed : Nat) (ok : Bool) (t : Nat)
  | mramHash (t : Nat)
  | selftestLate (t : Nat)
  | stReq (kind : BitVec 3) (l : BitVec 2)
  | cntClr (m : Word)
  | lcntClr (m : Word)
  | cntSnap (m : Word)
  | mode (v : BitVec 4)
  | wakeCause (t : Nat)
  | wakeBall (t : Strapped)
  | alarm (t : Strapped)
  | p3ExitComplete (bad : BitVec 3) (t : Nat)
  | powerOn (sel : BitVec 2) (base : BitVec 7) (t : Nat)
  | nrstAssert (t : Nat)
  | nrstRelease (sel : BitVec 2) (base : BitVec 7) (t : Nat)
  | resetStuck (t : Nat)
  | supplyFall (t : SupplyOut)
  | laneRailFall (l : Lane) (t : Nat)
  | boot (cal : Bool) (differs : BitVec 3) (t : Nat)
  | startupSelftestComplete (fails : BitVec 3) (t : Nat)
  | vbatLoss (mv : BitVec 16) (io : Bool) (t : Nat)
  | vbatLow (mv : BitVec 16) (t : Nat)
  | rtcSet (sec : BitVec 48)
  | keeperClr
  | logProg (v : Word)
  | fogCfg (v : Word)
  | fogFeed (key : BitVec 16)
  | fogBite (t : Nat)
  | fogHalfT (t : Nat)
  | imgWrite (off : BitVec 22) (src : BitVec 21)
  | imgCheck
  | imgActivate
  | imgComplete (ok : Bool) (t : Through Nat)
  | encoderLossEnd (n : EncLine) (t : Nat)
  | tripInputRelease (d : Fin 2) (t : Nat)
  | thermalCycleClear (n : Fin 32) (t : Nat)
  | announceSend (k : Fin 2) (t : Nat)
  | delayReqReceive (k p : Fin 2) (domain : BitVec 8) (id : PtpId) (corr : Int) (t : Nat)
  | pdelayReqSend (k p : Fin 2) (t : Nat)
  | pdelayRespReceive (k p : Fin 2) (seq : BitVec 16) (turn : Int) (t : Nat)
  | linkHeartbeatReceive (good ready : Bool) (t : Nat)
  | holdPatternPulse (t : Nat)
  | vbatReturn (mv : BitVec 16) (t : Nat)
  | laneRailReturn (l : Lane) (t : Nat)
  deriving DecidableEq, Repr

end Sys2Proof
end

