-- ==== Sys2Proof/Machine/Types.lean ====
section
/-! DEFINITION. The plain-data records that `State` is made of: lanes, commit items and record elements, the gallery, and
the hidden (not register-visible) state of each block. -/

namespace Sys2Proof.Machine

/-! ### Lanes and commit records (chapters 02 and 03) -/

/-- A staged item of a commit group (R113), with its SEQ (R119). -/
inductive Item where
  | word (seq addr : Nat) (val mask : Word)
  | push (seq ring : Nat) (data : List Byte) (dropOld : Bool)
  | pop (seq ring : Nat)
  | idle (seq ring : Nat)
  deriving DecidableEq, Repr

/-- The SEQ of an item. -/
def Item.seq : Item → Nat
  | .word q _ _ _ => q
  | .push q _ _ _ => q
  | .pop q _ => q
  | .idle q _ => q

/-- The address, or ring number, of an item (REFUSE_ADDR). -/
def Item.place : Item → Nat
  | .word _ a _ _ => a
  | .push _ r _ _ => r
  | .pop _ r => r
  | .idle _ r => r

/-- One 16-byte element of a commit record (R119). -/
structure Elem where
  kind : Nat
  grp  : Nat
  seq  : Nat
  a    : Nat
  v    : Nat
  m    : Nat
  deriving DecidableEq, Repr

/-- A presented event source: its stamp (ns of device time) and its OVR bit (R85). -/
structure Pres where
  stamp : Nat
  ovr   : Bool
  deriving DecidableEq, Repr

/-- What a lane waits for: the set of a bell point (R42) or a fold value (R93); `rd` is the register to write. -/
inductive Wait where
  | bell (rd k : Nat)
  | fold (rd k : Nat)
  deriving DecidableEq, Repr

/-- What a lane's own counters of R481 have counted since they were last added to the LCNT registers. -/
structure Tally where
  cycles : Nat
  insts  : Nat
  waitNs : Nat
  traps  : Nat
  ecc    : Nat
  items  : Nat
  bells  : Nat
  folds  : Nat
  runs   : Nat
  safes  : Nat
  deriving DecidableEq, Repr

def Tally.zero : Tally := ⟨0, 0, 0, 0, 0, 0, 0, 0, 0, 0⟩

/-- The staging part of a lane: the commit record under construction and the groups it closed, each with its index in the order of
TBEGIN (R113 to R123). -/
structure Stage where
  elems  : List Elem
  items  : Nat
  groups : Nat
  opened : Option (List Item)
  closed : List (Nat × List Item)
  bells  : Nat
  folds  : Nat
  abortE : Bool
  done   : Bool
  deriving DecidableEq, Repr

def Stage.empty : Stage := ⟨[], 0, 0, none, [], 0, 0, false, false⟩

/-- The runtime state of a control-engine slot (R246 to R261): last x, limit state, ramp value, the histories of the two
biquads, runs since the start, the last index with the direction of its last change, a start or CLR_I that waits for the next
run, consecutive mismatches, an output that waits for its OUT_PHASE, whether the slot has been enabled and not disabled since; what waits for the
next tick (R254): preloads, a clearing of the cells, CLR_FAULT, and a new count of runs; the cells loaded at the tick; the index of
the last run; the tick of the last run with the destination and the phase that it was fixed with. -/
structure EngSlot where
  xp  : Int
  lim : Int
  q   : Int
  h0  : Int × Int × Int × Int
  h1  : Int × Int × Int × Int
  ph  : Nat
  idx : Option Nat
  up  : Bool
  start : Bool
  clrI  : Bool
  mis   : Nat
  due   : Bool
  live  : Bool
  pre   : List (Nat × Word)
  clrCells : Bool
  clrF  : Bool
  runs0 : Bool
  fresh : List Nat
  ran   : Option Nat
  at'   : Nat
  dst   : Nat
  phase : Nat
  deriving DecidableEq, Repr

def EngSlot.reset : EngSlot := 
  ⟨0, 0, 0, (0, 0, 0, 0), (0, 0, 0, 0), 0, none, true, false, false, 0, false, false, [], false, false, false, [], none, 0, 0, 0⟩

/-- One lane (R62): its registers, its RAMs, its record, its presented set (R85), whether it is running, whether it has no clock, no rail, or has
been held in reset by its rail and not reloaded since (R516), its dirty lines (those of DRAM, and the others as part and line, R148: slots 0 to 11
of the engine, 12 SAFE), and its control engine. -/
structure LaneSt where
  g     : List (Nat × Word)
  acc   : List (Nat × BitVec 64)
  sw    : Word
  pc    : Nat
  tp    : Nat
  tv    : Word
  iram  : List Host.Cell
  dram  : List Host.Cell
  run   : Bool
  wait  : Option Wait
  stage : Stage
  pres  : List (Nat × Pres)
  last  : Nat
  lost  : Nat
  clkLost : Bool
  railLost : Bool
  railHeld : Bool
  dirty : List Nat
  engDirty : List (Nat × Nat)
  tally : Tally
  eng   : List (Nat × EngSlot)
  deriving DecidableEq, Repr

def LaneSt.reset : LaneSt :=
  ⟨[], [], 0, 0, 0, 0, [], [], false, none, Stage.empty, [], 0, 0, false, false, false, [], [], Tally.zero, []⟩

/-! ### The gallery (chapters 01 and 03) -/

/-- A bell point: its cut, once a lane has fixed it, and the set that it presents, once the copies agree (R42). -/
structure BellPt where
  cut : Nat
  set : Option (List (Nat × Pres))
  deriving DecidableEq, Repr

/-- A fold: the submissions so far (lane, value), the instant of the last one and the value, once fixed (R93). -/
structure FoldPt where
  subs  : List (Nat × Word)
  at'   : Nat
  value : Option Word
  deriving DecidableEq, Repr

/-- What a write set did (R117): refused groups as bits, and cause, SEQ, place and group of the lowest refused one. -/
structure Refused where
  mask  : Nat
  cause : Nat
  item  : Nat
  place : Nat
  group : Nat
  deriving DecidableEq, Repr

def Refused.none : Refused := ⟨0, 0, 0, 0, 0⟩

/-- A group that has passed its checks: its index in the order of TBEGIN, its items, and the shadow lanes that leave its lane-private items
out (R116, R151). -/
structure Plan where
  grp   : Nat
  items : List Item
  leave : List Nat
  deriving DecidableEq, Repr

/-- The verdict of a tide, from its deadline to its boundary (R125 to R128). Lane sets are bit masks, lane A bit 0: lanes that
differ, are missing, agree, and are charged; shadow lanes whose record matches, and those whose record does not (R151). `started` tells that the
lanes started the tide (R38). The digest and the number of closed groups are those of the applied record; `plan` and `refused` are what
the checks of R116 hold ready for the boundary (R125). -/
structure Verdict where
  outcome : Nat
  diff    : Nat
  missing : Nat
  agree   : Nat
  charged : Nat
  shadow  : Nat
  shadowBad : Nat
  started : Bool
  digest  : Nat
  groups  : Nat
  plan    : List Plan
  refused : Refused
  deriving DecidableEq, Repr

/-- The lanes that lane-private items reach: those that apply them, voting lanes that only check SAFE items (R358), and shadow lanes
with a matching record (R151). -/
structure Roles where
  own    : List Nat
  check  : List Nat
  shadow : List Nat
  deriving DecidableEq, Repr


/-- The copy of the relief in progress (R149): `phase` 0 awaits its bulk pass, 1 bulk pass under way, 2 bulk pass done, 3 deadline
pass done, 4 waits after an abort, 5 final pass sent; later deadlines judged; when the bulk pass started, or the copy was aborted. -/
structure ReliefSt where
  phase : Nat
  tides : Nat
  at'   : Nat
  deriving DecidableEq, Repr

def ReliefSt.idle : ReliefSt := ⟨0, 0, 0⟩

/-- The boundary generator (R29, R30, R493): the instant of the last boundary, that of the next, the length of the tide, how long before
its boundary the deadline falls (all in ns of device time), whether a wake shortens the tide of P2, and how many lanes voted once the
last boundary had passed (R131). -/
structure EdgeSt where
  last  : Nat
  due   : Nat
  len   : Nat
  guard : Nat
  short : Bool
  voted : Nat
  deriving DecidableEq, Repr

def EdgeSt.reset : EdgeSt := ⟨0, 0, 1000000, 20000, false, 3⟩

/-- The hidden state of the gallery: the verdict that waits for its boundary, the bell points and folds of the tide, what the tide
presented, the stamps of the latches, whether the lanes started the tide, consecutive characteristics by 2 × lane + path and the
instant of the last one, lanes SILENT since the boundary, the relief, failures of relief (lane, instant), lanes whose relief waits, and the boundary generator. -/
structure GalSt where
  verdict  : Option Verdict
  bells    : List BellPt
  folds    : List FoldPt
  tidePres : List (Nat × Pres)
  evtStamp : List (Nat × Nat)
  started  : Bool
  chars    : List (Nat × Nat)
  heard    : List (Nat × Nat)
  silent   : Nat
  relief   : ReliefSt
  fails    : List (Nat × Nat)
  relPend  : Nat
  edge     : EdgeSt
  deriving DecidableEq, Repr

def GalSt.reset : GalSt := ⟨none, [], [], [], [], false, [], [], 0, ReliefSt.idle, [], 0, EdgeSt.reset⟩

/-- The tide snapshot (R34): the register values, lane-private ones included, and device time at the boundary. -/
structure Snap where
  regs : List (Nat × Word)
  time : Nat
  frac : Nat
  deriving DecidableEq, Repr

/-- The fields of the running image's header that the part uses after boot (R104). -/
structure ImgSt where
  valid  : Bool
  bank   : Nat
  entry  : Nat
  trapvec : Nat
  wcet   : Nat
  rollback : Nat
  locked : Bool
  deriving DecidableEq, Repr

def ImgSt.none : ImgSt := ⟨false, 0, 0, 0, 0, 0, false⟩

/-- The straps sampled while NRST is low (R14) and the ordering variant (R1). -/
structure Straps where
  variantC : Bool
  bootSel  : Nat
  base     : Nat
  deriving DecidableEq, Repr

/-! ### POS (chapter 04) -/

/-- An incremental encoder input: the levels of its lines as last accepted (R165), FIRST armed, the extreme count
of R164, the last capture (count, counting down), the count latched at the last tick with its change, the ticks since it last changed (to 255), the lines
below the loss threshold (A, B, Z from bit 0, R162), the last accepted edge of Z with whether it was captured (R166), and the last rise of EN. -/
structure EncSt where
  a     : Bool
  b     : Bool
  armed : Bool
  ext   : Int
  cap   : Option (Int × Bool)
  tick  : Int
  diff  : Int
  quiet : Nat
  low   : Nat
  zAt   : Option (Nat × Bool)
  enAt  : Nat
  deriving DecidableEq, Repr

def EncSt.reset : EncSt := ⟨false, false, true, 0, none, 0, 0, 255, 0, none, 0⟩

/-- An SSI input: the latch instant of the last frame, when the running frame is complete (R167), the read that waits for its tick
(data, usable), consecutive unusable reads. -/
structure SsiSt where
  latch : Nat
  ends  : Option Nat
  read  : Option (Nat × Bool)
  bad   : Nat
  deriving DecidableEq, Repr

def SsiSt.reset : SsiSt := ⟨0, none, none, 0⟩

/-- One tick of the position history (R158): its instant, the free-running count there (R155), position, increments,
correction, last anchor position, speed, and MOVING and turning; positions in units of 2^-16 µm. -/
structure Hist where
  t   : Nat
  ft  : Int
  x   : Int
  dxp : Int
  dxc : Int
  c   : Int
  xa  : Int
  v   : Int
  moving : Bool
  turning : Bool
  deriving DecidableEq, Repr

/-- A daymark edge that waits for its tick: its stamp and the instant of its delivery (R157, R171); `ref` is the instant of the stamp in
present device time, which a step of device time moves (R454). -/
structure DmEdge where
  d      : Nat
  active : Bool
  stamp  : Nat
  at'    : Nat
  ref    : Nat
  deriving DecidableEq, Repr

/-- An index capture that waits for its tick (R163): the input, the count, its stamp, and the same instant in present device time. -/
structure CapEdge where
  n      : Nat
  cnt    : Nat
  stamp  : Nat
  at'    : Nat
  deriving DecidableEq, Repr

/-- An edge of the learn table (R192). -/
structure LearnEdge where
  d      : Nat
  role   : Nat
  active : Bool
  pos    : Int
  down   : Bool
  fast   : Bool
  deriving DecidableEq, Repr

/-- A stretch window (R177): the anchor position at its start and the nominal displacements of P and C. -/
structure StrWin where
  xa  : Int
  dnP : Int
  dnC : Int
  deriving DecidableEq, Repr

/-- The hidden state of POS: inputs, history, estimator, comparator levels of the daymarks, edges that wait for their tick, compare channels (those whose behind test is due,
those armed by the commit in progress, hits since arming, CMP_CNT at arming), the working map and its save, the LEARN run (with whether
its map has been saved), the checkpoint slots with the write in progress and the request that waits. -/
structure PosSt where
  enc   : List (Nat × EncSt)
  ssi   : List (Nat × SsiSt)
  hist  : List Hist
  x     : Int
  xc    : Int
  xa    : Int
  dmLeft : Int
  g     : Int
  rf    : Int
  ext   : Int
  turning : Bool
  still : Option Int
  fast  : Bool
  slow  : Nat
  slowOn : Bool
  rc    : Int
  reref : Bool
  win   : Option StrWin
  dmLine : List (Nat × Bool)
  dmq   : List DmEdge
  capq  : List CapEdge
  cmpTest : List Nat
  cmpNew  : List Nat
  cmpHits : List (Nat × Nat)
  cmpLim  : List (Nat × Nat)
  confHold : Nat
  wmap  : List (Nat × Word)
  saveImg : Option (List Byte)
  mapSwap : Bool
  mapEdit : Bool
  learn : List LearnEdge
  learnConf : Nat
  learnSaved : Bool
  anchorData : Option Int
  ckpt  : List Host.Cell
  ckptBusy : Option (List Byte)
  ckptWant : Bool
  termRef : Bool
  deriving DecidableEq, Repr

def PosSt.reset : PosSt where
  enc := []
  ssi := []
  hist := []
  x := 0
  xc := 0
  xa := 0
  dmLeft := 0
  g := 0
  rf := 0
  ext := 0
  turning := false
  still := some 0
  fast := false
  slow := 0
  slowOn := false
  rc := 0
  reref := false
  win := none
  dmLine := []
  dmq := []
  capq := []
  cmpTest := []
  cmpNew := []
  cmpHits := []
  cmpLim := []
  confHold := 0
  wmap := []
  saveImg := none
  mapSwap := false
  mapEdit := false
  learn := []
  learnConf := 0
  learnSaved := false
  anchorData := none
  ckpt := []
  ckptBusy := none
  ckptWant := false
  termRef := false

/-! ### MOTION (chapter 05) -/

/-- A segment of a profile (R204): its number 1 to 7, its jerk (µm/s³, signed) and its length in units of 2^-16 ns. -/
structure Seg where
  id  : Nat
  j   : Int
  dur : Nat
  deriving DecidableEq, Repr

/-- A profile: position, speed and acceleration (units of 2^-32) at the start of its first segment, the time spent in that
segment and the segments left. -/
structure Prof where
  p    : Int
  v    : Int
  a    : Int
  el   : Nat
  segs : List Seg
  deriving DecidableEq, Repr

/-- A queue entry (R207, R208), as the window held it. -/
structure MoveReq where
  mode : Nat
  tgt  : Int
  v    : Nat
  a    : Nat
  d    : Nat
  j    : Nat
  tag  : Nat
  blend : Bool
  landing : Nat
  deriving DecidableEq, Repr

/-- Effective values of a move (R205), µm/s, µm/s², µm/s³. -/
structure Eff where
  v : Nat
  a : Nat
  d : Nat
  j : Nat
  deriving DecidableEq, Repr

/-- The motion that is executing: its entry, its target (µm), effective values, the joint speed (units of 2^-32, magnitude), whether
its joint is decided (R210), the effective values last seen (R214), whether it is to be replanned at its next segment, and the signed
speed with which the profile reaches the target. -/
structure Exec where
  req  : MoveReq
  tgt  : Int
  eff  : Eff
  vE   : Int
  fixed : Bool
  seen : Eff
  again : Bool
  vEnd : Int
  deriving DecidableEq, Repr

/-- An edge of a limit input that waits for its tick (R202, R221): the channel, the new level, its first sample, whether it has held for 2 ms,
and the instant that brought it. -/
structure HomeEdge where
  c     : Nat
  lvl   : Bool
  stamp : Nat
  valid : Bool
  at'   : Nat
  deriving DecidableEq, Repr

/-- Homing in progress (R220, R221): the position and the instant at which it started, latched edge (instant), the edges that wait for their
tick, a marked edge that takes effect (the captured position and whether it is the reference edge), and whether the stop after an edge runs. -/
structure HomeSt where
  start : Int
  since : Nat
  latch : Option Nat
  edges : List HomeEdge
  edge  : Option (Int × Bool)
  stopping : Bool
  deriving DecidableEq, Repr

def HomeSt.reset : HomeSt := ⟨0, 0, none, [], none, false⟩

/-- An item that a commit, or another block, has given an axis; it takes effect at the axis's next tick (R134, R202). -/
inductive AxAct where
  | enable
  | disable
  | clearFault
  | flush
  | stop
  | qstop
  | home
  | replace (r : MoveReq)
  | push (r : MoveReq)
  | arm (b : Bool)
  | gearOn
  | gearOff
  | gearArm
  deriving DecidableEq, Repr

/-- The hidden state of an axis: its profile, the executing motion, the queue, what follows the ramp of STOPPING (0 DISABLED, 1 IDLE, 2 IDLE after a
quick stop, 3 DISABLED and enabled again, 7 FAULT), the target of the previous entry, the feedback offset, consecutive ticks of FERR, homing, a
reversal that waits for the next tick, the items and the cause of FAULT that wait for it, the set-points of the last ticks, the stepper feedback
count, a tick at which it is invalid, and the motions started. -/
structure AxSt where
  prof  : Prof
  exec  : Option Exec
  queue : List MoveReq
  after : Nat
  prevTgt : Option Int
  fbOff : Int
  ferr  : Nat
  home  : HomeSt
  revPend : Bool
  acts  : List AxAct
  faultPend : Option Nat
  spHist : List (Int × Int × Int)
  stepFb : Int
  stepBad : Bool
  moves : Nat
  deriving DecidableEq, Repr

def Prof.rest (p : Int) : Prof := ⟨p, 0, 0, 0, []⟩

def AxSt.reset : AxSt := ⟨Prof.rest 0, none, [], 1, none, 0, 0, HomeSt.reset, false, [], none, [], 0, false, 0⟩

/-- The hidden state of MOTION: axes; the landing target that waits for rest (R228); since when a level error stands and
whether it was reported (R229); the hoist reference (R222 to R226): frames sent, ticks since the last, the last frame and whether it
leaves at this tick, the DAC code, the code of DAC1, steps issued and the direction line; gearing (R232 to R234): m0, base and the last count. -/
structure MotSt where
  axes  : List (Nat × AxSt)
  levelTgt : Option Int
  relSince : Option Int
  relDone  : Bool
  hrefSeq  : Nat
  hrefWait : Nat
  hrefLast : List Byte
  hrefOut : Bool
  dac   : Nat
  dac1  : Nat
  steps : Int
  hdir  : Bool
  m0    : Int
  base  : Int
  mPrev : Int
  deriving DecidableEq, Repr

def MotSt.reset : MotSt := ⟨[], none, none, false, 0, 0, [], false, 0, 0, 0, false, 0, 0, 0⟩

/-! ### DOOR (chapter 07) -/

/-- A voted engine input of a door (R278): its value and when it was delivered, and the same of the delivery before, which an update point
takes while the newest is younger than 0.5 µs (R269). -/
structure EngIn where
  new : Word
  old : Word
  at' : Nat
  was : Nat
  deriving DecidableEq, Repr

def EngIn.none : EngIn := ⟨0, 0, 0, 0⟩

/-- The electrical angle that a delivered voltage is turned by (R276): θ, its change, and the tick. -/
structure AngleAt where
  theta : Nat
  omega : Int
  tick  : Nat
  deriving DecidableEq, Repr

/-- A keeper slot of a stepper door: MS_CNT, MOVING, VALID and the CRC-32C (R286). -/
structure DoorSlot where
  ms     : Int
  moving : Bool
  valid  : Bool
  crc    : Nat
  deriving DecidableEq, Repr

/-- The hidden state of a door: θ of the last tick and its change; phase currents of the last tick; loaded duties (Q31) and
regulator sums; consecutive ticks of the FORCE, LOAD_ANG and STALL tests; the motion whose obstruction was declared; feedback
positions of the last 9 ticks (its axis, axis 3); whether it still runs after EN fell; the level of the trip ball, once a row has given
it; bins loaded at the tick; quantities that are invalid (a bit each); the active microstep table where it differs from its reset; the keeper slot,
its pending writes and whether the last write said at rest; the axis state of the last tick; the microstep count before the last
tick; the microstep table before the last swap and the instant from which the new one counts; the mode of a drive that is being
disabled; the set-point speed that a trip since the last tick ended; the angle of the last delivered voltage and of that of the tick
before, and when duties were last loaded; the duties of the half period before the last update point, while the PWM ran; STP_PI, STP_IAMP,
ADV and whether an engine gives I_AMP as the last tick found them (R134, R297); whether EN was applied at the last tick; when the counter started (R267); a table swap, a clearing and preloads of the
friction tables that wait for their tick (R134); whether the present stall has been reported. -/
structure DoorSt where
  theta : Nat
  omega : Int
  ia    : Int
  ib    : Int
  du    : Int
  dv    : Int
  dw    : Int
  sa    : Int
  sb    : Int
  cForce : Nat
  cLoad  : Nat
  cStall : Nat
  declared : Option Nat
  fb    : List Int
  fb3   : List Int
  closing : Bool
  pin   : Option Bool
  pre   : List Nat
  bad   : Nat
  tbl   : List (Nat × Nat)
  ins   : List (Nat × EngIn)
  slot  : DoorSlot
  writes : List DoorSlot
  restKept : Bool
  axWas : Nat
  msOld : Int
  tblOld : List (Nat × Nat)
  tblAt : Nat
  cmode : Nat
  hit   : Option Int
  angle : AngleAt
  angleOld : AngleAt
  loadAt : Nat
  duWas : Option (Int × Int × Int)
  piW   : Nat
  amp   : Nat
  ampEng : Bool
  adv   : Bool
  enOn  : Bool
  pwmAt : Option Nat
  swap  : Bool
  frClr : Bool
  frPre : List (Nat × Word)
  stalled : Bool
  deriving DecidableEq, Repr

def DoorSt.reset : DoorSt where
  theta := 0
  omega := 0
  ia := 0
  ib := 0
  du := 0
  dv := 0
  dw := 0
  sa := 0
  sb := 0
  cForce := 0
  cLoad := 0
  cStall := 0
  declared := none
  fb := []
  fb3 := []
  closing := false
  pin := none
  pre := []
  bad := 255
  tbl := []
  ins := []
  slot := ⟨0, false, false, 0⟩
  writes := []
  restKept := false
  axWas := 0
  msOld := 0
  tblOld := []
  tblAt := 0
  cmode := 0
  hit := none
  angle := ⟨0, 0, 0⟩
  angleOld := ⟨0, 0, 0⟩
  loadAt := 0
  duWas := none
  piW := 0
  amp := 0
  ampEng := false
  adv := false
  enOn := false
  pwmAt := none
  swap := false
  frClr := false
  frPre := []
  stalled := false

/-- Consecutive ticks at which an ADC channel gave an end code, and another code, and whether it is saturated (R272). -/
structure AdcSt where
  sat : Nat
  ok  : Nat
  bad : Bool
  deriving DecidableEq, Repr

/-- A profile operation in progress (R301, R302): save or load, kind, target, record, the captured words; a load that was read
waits for the next tide start and then for its tick. -/
structure ProfSt where
  load : Bool
  kind : Nat
  tgt  : Nat
  rec' : Nat
  data : List Nat
  key0 : Nat
  key1 : Nat
  deriving DecidableEq, Repr

/-- The hidden state of DOOR: the doors, the channels, the profile operation in progress, data that was read and the instant at which
its read completed, and an operation that waits for its tick (R301, R302). -/
structure DoorsSt where
  doors : List (Nat × DoorSt)
  adc   : List (Nat × AdcSt)
  prof  : Option ProfSt
  loaded : Option ProfSt
  readAt : Nat
  go    : Option ProfSt
  deriving DecidableEq, Repr

def DoorsSt.reset : DoorsSt := ⟨[], [], none, none, 0, none⟩

/-! ### DISPATCH (chapter 08) -/

/-- A hall call or destination record (R305, R312): state 0 CLOSED, 1 OPEN, 2 PICKED; holder 255 for none; origin, destination,
passengers, flags, SEQ_A, own cost of the last evaluation, epoch of opening, bias, VETO, and whether its stops are listed. -/
structure CallRec where
  state  : Nat
  holder : Nat
  origin : Nat
  dest   : Nat
  pax    : Nat
  flags  : Nat
  seqA   : Nat
  cost   : Nat
  epoch  : Nat
  bias   : Int
  veto   : Bool
  listed : Bool
  deriving DecidableEq, Repr

def CallRec.none : CallRec := ⟨0, 255, 0, 0, 0, 0, 0, 0, 0, 0, false, false⟩

/-- An entry of the stop list (R313): landing, phase, the flags of STOP_NEXT, and whether a call served there has ACCESS. -/
structure Stop where
  landing : Nat
  phase   : Nat
  flags   : Nat
  access  : Bool
  deriving DecidableEq, Repr

/-- An entry of the announcement queue (R309): its 8 bytes, the epochs it is still to be sent in, and whether a frame has carried it. -/
structure Ann where
  bytes : List Byte
  left  : Nat
  sent  : Bool
  deriving DecidableEq, Repr

/-- A fragment accepted in this epoch (R328): car, fragment, payload, short stamp of arrival, copies by network (bit 0 A, bit 1 B). -/
structure RxFrag where
  car   : Nat
  frag  : Nat
  data  : List Byte
  stamp : Nat
  nets  : Nat
  deriving DecidableEq, Repr

/-- What a car last reported (R312). -/
structure CarRec where
  valid   : Bool
  mode    : Nat
  flags   : Nat
  landing : Nat
  dir     : Nat
  load    : Nat
  epoch   : Nat
  deriving DecidableEq, Repr

def CarRec.none : CarRec := ⟨false, 0, 0, 0, 0, 0, 0⟩

/-- A change of holder that was resolved and takes effect at the next E (R333). -/
structure AllocCh where
  id    : Nat
  new   : Nat
  cost  : Nat
  cause : Nat
  deriving DecidableEq, Repr

/-- An operation of the call window that waits for its tick (R307, R308). -/
structure CallOp where
  op     : Nat
  origin : Nat
  dst    : Nat
  dir    : Nat
  pax    : Nat
  rec'   : Nat
  flags  : Nat
  deriving DecidableEq, Repr

/-- The hidden state of DISPATCH: the calls by ID, car calls with their flags, the stop list, the announcement queue, the
fragments of the epoch, the cars, the resolved allocation with its epoch, ALLOC_CRC, the costs evaluated at E with the number
of open calls and the fullest bank, E, the cars heard in the epoch before, whether the next frame carries DIVERGE, the fragment
count, the last frame sent, calls this car closed whose close the others have not resolved yet, the DSTATE measurement of each door (last
DSTATE, running kind, start), the operations that wait for their tick, an E that waits for the tick of its instant, and whether the next Q
drops this car's holds (R335). -/
structure DspSt where
  calls  : List (Nat × CallRec)
  cars   : List (Nat × Nat)
  stops  : List Stop
  queue  : List Ann
  rx     : List RxFrag
  seen   : List (Nat × CarRec)
  alloc  : Option (Nat × List AllocCh)
  crc    : Nat
  costs  : List (Nat × Nat)
  evalN  : Nat
  evalB  : Nat × Nat
  e0     : Nat
  heard  : Nat
  diverge : Bool
  seq    : Nat
  sent   : List Byte
  closed : List Nat
  doors  : List (Nat × (Nat × Nat × Nat))
  ops    : List CallOp
  ePend  : Option (Through Nat)
  drop   : Bool
  deriving DecidableEq, Repr

def DspSt.reset : DspSt := ⟨[], [], [], [], [], [], none, 0x5DAA1FBD, [], 0, (0, 0), 0, 0, false, 0, [], [], [], [], none, false⟩

/-! ### SAFE and LLP (chapter 09) -/

/-- What a monitor holds of a buoy (R348): the last used delivery, its stamp, the single-light count and SL_OVER. -/
structure BuoySt where
  doors   : Nat
  landing : Nat
  health  : Nat
  stamp   : Nat
  past    : Bool
  sl      : Nat
  deriving DecidableEq, Repr

/-- A side of a monitor: the condition that runs (0 none, 1 UCM, 2 DOOR_MOVE with confirmation, 3 DOOR_MOVE at once) with its
source and node, its confirmation count, and open, permit, door, lock and buoy parts of the cycle before. -/
structure SideSt where
  kind  : Nat
  src   : Nat
  node  : Nat
  conf  : Nat
  open' : Bool
  perm  : Bool
  door  : Bool
  buoy  : Bool
  zone  : Bool
  deriving DecidableEq, Repr

def SideSt.reset : SideSt := ⟨0, 0, 0, 0, false, false, true, false, false⟩

/-- The hidden state of a monitor: its count since the last cycle, count changes of its last cycles, whether it has started, filter counts by role, the sides,
the lock chain and the speed of the cycle before, confirmation counts (OVERSPEED, plausibility, DISC, and rest for the clear of
DOOR_MOVE), the brake group (on, cycles since its change, mixed cycles, feedbacks that have followed), the latching conditions
present, whether HOIST and BRAKE are released, the buoys, and the instant of the last cycle. -/
structure MonSt where
  cnt   : Int
  hist  : List Int
  started : Bool
  filt  : List (Nat × Nat)
  front : SideSt
  rear  : SideSt
  lock  : Bool
  v     : Int
  cOver : Nat
  cPlaus : Nat
  cDisc : Nat
  cRest : Nat
  foreign : Bool
  brkOn : Bool
  brkSince : Nat
  brkMix : Nat
  brkOk : Nat
  cond  : Nat
  released : Bool
  buoys : List (Nat × BuoySt)
  at'   : Option Nat
  deriving DecidableEq, Repr

def MonSt.reset : MonSt where
  cnt := 0
  hist := []
  started := false
  filt := []
  front := SideSt.reset
  rear := SideSt.reset
  lock := true
  v := 0
  cOver := 0
  cPlaus := 0
  cDisc := 0
  cRest := 0
  foreign := false
  brkOn := false
  brkSince := 0
  brkMix := 0
  brkOk := 0
  cond := 0
  released := false
  buoys := []
  at' := none

/-- The hidden state of SAFE: the monitors, the majority values last seen (STOP, permits and DCL; TRIP bits), and by encoder input the levels of
A and B that the monitors' decoders have accepted (R345). -/
structure SafeSt where
  mon    : List (Nat × MonSt)
  maj    : Nat × Nat
  lines  : List (Nat × (Bool × Bool))
  deriving DecidableEq, Repr

def SafeSt.reset : SafeSt := ⟨[], (0, 0), []⟩

/-- A copy that waits for its twin (R374): SEQ, network (false A), its bytes, arrival and expiry. -/
structure HeldCopy where
  seq    : Nat
  net    : Bool
  data   : List Byte
  arrival : Nat
  expiry : Nat
  deriving DecidableEq, Repr

/-- An LLP stream (R374): SEQ and stamp of the last delivery (none before the first), the held copy, s.sl, SL_OVER, LOST, and payload
and mode of the last used delivery. -/
structure StreamSt where
  last  : Option Nat
  held  : Option HeldCopy
  stamp : Nat
  sl    : Nat
  past  : Bool
  lost  : Bool
  prev  : Option (List Byte × Nat)
  deriving DecidableEq, Repr

def StreamSt.reset : StreamSt := ⟨none, none, 0, 0, false, false, none⟩

/-- The hidden state of LLP: streams by 4 × node + TYPE, the own SEQ of HEART and DATA, and the PDUs of the last slot. -/
structure LlpSt where
  streams : List (Nat × StreamSt)
  hSeq : Nat
  dSeq : Nat
  sent : List (List Byte)
  deriving DecidableEq, Repr

def LlpSt.reset : LlpSt := ⟨[], 0, 0, []⟩

/-! ### FIELD and LEDGER (chapter 10) -/

/-- A test pulse that runs (R395, R396): an on-pulse, its start and its end (ns). -/
structure Pulse where
  on    : Bool
  start : Nat
  stop  : Nat
  deriving DecidableEq, Repr

/-- The hidden state of a channel: the switch gate, the instant of admission and whether its inrush end is logged, whether its
activation was denied, the test pulse that runs, the end of the last off-pulse, the instant the next test is due, the last counted
period edge, the instant CH_CNT was last cleared; the off-state diagnosis: whether the next period uses the source, high and low
periods in a row, the last sink period low, and pairs with and without the open-load pattern; the instant of the switch's last change,
the last thermal shutdown, the rise of PER_EN, and the last test pulse's start with the end of its watch (R397). -/
structure ChSt where
  gate   : Bool
  adm    : Option Nat
  wdone  : Bool
  barred : Bool
  pulse  : Option Pulse
  offEnd : Option Nat
  due    : Option Nat
  edge   : Option Nat
  clrAt  : Nat
  source : Bool
  hi     : Nat
  lo     : Nat
  sinkLow : Bool
  hit    : Nat
  miss   : Nat
  swAt   : Nat
  thermAt : Option Nat
  perAt  : Nat
  watch  : Option (Nat × Nat)
  deriving DecidableEq, Repr

def ChSt.reset : ChSt := ⟨false, none, false, false, none, none, none, none, 0, false, 0, 0, false, 0, 0, 0, none, 0, none⟩

/-- The hidden state of a field die: the two queues (channel, instant of entry), the start of the over period, and good frames in a
row by lane while its link fault stands; the instant of power-up, those from which VFIELD has been below 11.0 V, above 15.5 V and above
17.0 V (R399, R537), and of the last good frame by lane (R408). -/
structure DieSt where
  qs   : List (Nat × Nat)
  qo   : List (Nat × Nat)
  past : Option Nat
  good : List (Nat × Nat)
  up   : Option Nat
  low  : Option Nat
  hi15 : Option Nat
  hi17 : Option Nat
  heard : List (Nat × Nat)
  deriving DecidableEq, Repr

def DieSt.reset : DieSt := ⟨[], [], none, [], none, none, none, none, []⟩

/-- The hidden state of FIELD and LEDGER: channels, dies, and VFIELD (mV) and the temperature (0.1 °C) of each die, once a row has given
them; the instant of the last start slot. -/
structure FieldSt where
  ch  : List (Nat × ChSt)
  die : List (Nat × DieSt)
  ball : List (Nat × Int)
  temp : List (Nat × Int)
  slotAt : Option Nat
  deriving DecidableEq, Repr

def FieldSt.reset : FieldSt := ⟨[], [], [], [], none⟩

/-! ### RANGE (chapter 12) -/

/-- The hidden state of RANGE: whether the partner was heard since EN rose, and when that was; the last good link word; by node the last
HEART that reported duty (R466); whether base claims were exchanged, and the partner's hash word; stream records received in a row and own
good tides in a row (to 16), whether a record was received; the latch word that stands in for CH_OUT; READY at the last heartbeat; a
partner loss that waits for its boundary; a handover flag received; claiming stopped, pass sent, partner pulses seen since, DARK
after the pass; an abrupt takeover's boundary; what RANGE.GAP is measured from, and which halves are open; HOLDFAST idle; the end
of the last round that took the claim away; the XFER words applied since the last record; the last record and heartbeat sent. Then the
instants of the last low level on HOLDFAST, of the last change of state, of the last round's end, and until which the pulses of an old
holder may follow a pass; the instant of the last record and the mirror before it; the partner's state and mode as last heard. -/
structure RangeSt where
  heard   : Bool
  enAt    : Nat
  linkAt  : Option Nat
  duty    : List (Nat × Nat)
  swapped : Bool
  hash    : Option Nat
  recs    : Nat
  own     : Nat
  recSeen : Bool
  latch   : Option Nat
  wasReady : Bool
  loss    : Option Nat
  handIn  : Option Nat
  quit    : Bool
  passed  : Bool
  pulses  : Nat
  mis     : Bool
  takeAt  : Option Nat
  gapFrom : Option Nat
  gapN    : Bool
  gapS    : Bool
  idle    : Bool
  claimOff : Nat
  xfer    : List Nat
  sent    : List Byte
  beat    : Option (Nat × Bool)
  lowAt   : Nat
  stAt    : Nat
  roundAt : Option Nat
  passEnd : Nat
  recAt   : Nat
  recOld  : Option Nat
  pSt     : Nat
  pMode   : Nat
  deriving DecidableEq, Repr

def RangeSt.reset : RangeSt where
  heard := false
  enAt := 0
  linkAt := none
  duty := []
  swapped := false
  hash := none
  recs := 0
  own := 0
  recSeen := false
  latch := none
  wasReady := false
  loss := none
  handIn := none
  quit := false
  passed := false
  pulses := 0
  mis := false
  takeAt := none
  gapFrom := none
  gapN := false
  gapS := false
  idle := false
  claimOff := 0
  xfer := []
  sent := []
  beat := none
  lowAt := 0
  stAt := 0
  roundAt := none
  passEnd := 0
  recAt := 0
  recOld := none
  pSt := 0
  pMode := 0

/-! ### Time and the networks (chapter 11) -/

/-- What a servo path has measured (R424): the filtered delay, in 2^-16 ns, and the raw values of a re-measurement. -/
structure PathSt where
  filt   : Option Int
  remeas : Option (List Int)
  deriving DecidableEq, Repr

def PathSt.reset : PathSt := ⟨none, none⟩

/-- A master as Announce messages describe it (R427): source port identity, grandmaster data set, steps removed, receipt instants of
the last two, and the announce and sync intervals in ns. -/
structure Master where
  src    : Nat
  p1     : Nat
  cls    : Nat
  acc    : Nat
  var'   : Nat
  p2     : Nat
  gm     : Nat
  steps  : Nat
  last   : Nat
  before : Option Nat
  annNs  : Nat
  deriving DecidableEq, Repr

/-- The hidden state of a network's PTP instance: masters heard, the parent's source identity, the Sync that waits for its Follow_Up
(sequenceId, ingress stamp, correction, port), the last Sync (t1, t2 and correction in 2^-16 ns, port), its receipt instant and interval,
requests without an answer (sequenceId, t3, instant), the E2E path, per port the peer path and peer requests, own sequenceIds and
when each message was last sent. -/
structure PtpSt where
  foreign : List Master
  parent  : Option Nat
  wait    : Option (Nat × Int × Int × Nat)
  sync    : Option (Int × Int × Int × Nat)
  syncAt  : Nat
  syncNs  : Nat
  reqs    : List (Nat × Int × Nat)
  path    : PathSt
  peer    : List (Nat × PathSt)
  preqs   : List (Nat × (Nat × Int))
  seqReq  : Nat
  seqSync : Nat
  seqAnn  : Nat
  seqPeer : Nat
  sentAt  : List (Nat × Nat)
  deriving DecidableEq, Repr

def PtpSt.reset : PtpSt := ⟨[], none, none, none, 0, 0, [], PathSt.reset, [], [], 0, 0, 0, 0, []⟩

/-- The hidden state of the servo (R418 to R425): acc, the valid offsets of the present master (newest first, ns), that master, a step that
waits for its boundary, the source, the instant of the last fed offset, in-tolerance offsets in a row, offsets beyond the window in a
row, offsets within it while SPLIT stands, the start of HOLDOVER, the RATE_INIT that the step at first lock took. -/
structure ServoSt where
  acc   : Int
  offs  : List Int
  from' : Option (Nat × Nat)
  step  : Option Int
  src   : Option Nat
  fedAt : Option Nat
  tol   : Nat
  past  : Nat
  within : Nat
  holdAt : Nat
  seed  : Int
  deriving DecidableEq, Repr

def ServoSt.reset : ServoSt := ⟨0, [], none, none, none, none, 0, 0, 0, 0, 0⟩

/-- A frame that a port sends: its bytes without FCS, its class, whether it leaves with a bad FCS, and, for a ring frame, REPORT and
TAG; `ring` tells a frame of the transmit ring; `stamp` its egress stamp. -/
structure TxCur where
  bytes  : List Byte
  cls    : Nat
  bad    : Bool
  ring   : Bool
  report : Bool
  tag    : Nat
  stamp  : Nat
  deriving DecidableEq, Repr

/-- The egress of a port (R434, R435): the frame that leaves, the frames that wait with their ingress instants, and the instant until which
the last frame holds the egress, with preamble and gap. -/
structure PortSt where
  cur   : Option TxCur
  queue : List (TxCur × Nat)
  till  : Nat
  deriving DecidableEq, Repr

def PortSt.reset : PortSt := ⟨none, [], 0⟩

/-- An MDIO access that runs (R432): write or read, the PHY, its register, the data to write, and the instant of the start. -/
structure MdioCmd where
  write : Bool
  phy   : Nat
  reg   : Nat
  data  : Nat
  at'   : Nat
  deriving DecidableEq, Repr

def MdioCmd.none : MdioCmd := ⟨false, 0, 0, 0, 0⟩

/-- The hidden state of NETA, NETB and TIME: PTP instances, the servo, the ports by 2 × network + port, the MDIO access of each network
that runs, and the last poll. -/
structure NetSt where
  ptp   : List (Nat × PtpSt)
  servo : ServoSt
  port  : List (Nat × PortSt)
  mdio  : List (Nat × MdioCmd)
  poll  : List (Nat × Nat)
  deriving DecidableEq, Repr

def NetSt.reset : NetSt := ⟨[], ServoSt.reset, [], [], []⟩

/-- The hidden state of a CAN controller: the entry being sent, a request to stop after the attempt, bus-off recovery running. -/
structure CanSt where
  cur   : Option (List Byte)
  stop  : Bool
  rec'  : Bool
  deriving DecidableEq, Repr

def CanSt.reset : CanSt := ⟨none, false, false⟩

/-- The hidden state of a UART: the open receive entry (stamp, characters), the characters being sent, the instant of the last character
received and that of the first start bit sent. -/
structure UartSt where
  rx : Option (Nat × List Byte)
  tx : Option (List Byte)
  rxAt : Nat
  txAt : Nat
  deriving DecidableEq, Repr

def UartSt.reset : UartSt := ⟨none, none, 0, 0⟩

/-- The hidden state of LINK: controllers, UARTs, the SPI transfer (chip select, length, bytes sent, instant). -/
structure LinkSt where
  can  : List (Nat × CanSt)
  uart : List (Nat × UartSt)
  spi  : Option (Nat × Nat × List Byte × Nat)
  deriving DecidableEq, Repr

def LinkSt.reset : LinkSt := ⟨[], [], none⟩

/-- The hidden state of the host port: ERR, the words or the byte of the last answer, the provisioning buffer, PROV_STS (STATE and
CAUSE), the running command (OP, SEL, OFFSET), banks that passed their last check (a bit each), and the last host write of LTR since the
boundary; the instant of the last host write of LTR, with the register and the write before those of that instant (R39). -/
structure HostSt where
  err   : Bool
  out   : List Nat
  buf   : List Host.Cell
  psts  : Nat
  pcause : Nat
  cmd   : Option (Nat × Nat × Nat)
  checked : Nat
  ltr   : Option Nat
  ltrPre : Option (Nat × Nat × Option Nat)
  deriving DecidableEq, Repr

def HostSt.reset : HostSt := ⟨false, [], [], 0, 0, none, 0, none, none⟩

/-! ### HEALTH (chapter 12) -/

/-- The hidden state of self-test and of the report: segments done by 16 × lane + area in the present pass and in the on-demand test,
the on-demand request (KIND, LANE), whose turn a slot is, the lane in its slot, the start of the pass, failed lanes that wait for the
boundary, the boundary stamp and the flags of the assembled report that waits for its swap, the second of the last report, the lane
whose slot ended last with that boundary, the single-bit corrections counted since reset (source 183), and the instants at which the slot
began and at which the last scrub and the last check of the running bank ended; the end of the slot's last segment, or its start; the blocks
(by their index of R46) that have reported a double-bit error of shared SRAM (R51), oldest first. -/
structure HealthSt where
  segs  : List (Nat × Nat)
  demand : List (Nat × Nat)
  req   : Option (Nat × Nat)
  turn  : Nat
  slot  : Option Nat
  passAt : Nat
  failed : Nat
  report : Option Nat
  rptFlags : Nat
  lastSec : Option Nat
  slotEnd : Option (Nat × Nat)
  ecc   : Nat
  slotAt : Nat
  scrubAt : Nat
  hashAt : Nat
  segAt : Nat
  eccBlk : List Nat
  deriving DecidableEq, Repr

def HealthSt.reset : HealthSt := ⟨[], [], none, 0, none, 0, 0, none, 0, none, none, 0, 0, 0, 0, 0, []⟩

/-! ### SYS and KEEPER (chapter 13) -/

/-- The keeper island: the real-time clock as an offset (ns) from free-running time, the last sync (free-running ns), log records
written; the fog signal: the last key fed, the instant of the last feed, paused, a bite that waits for its boundary;
a VBAT loss that shows at the next start; half of T passed since the last feed. -/
structure KeepSt where
  rtcOff : Int
  syncAt : Option Int
  nrec   : Nat
  fogKey : Option Nat
  fogAt  : Int
  paused : Bool
  bite   : Bool
  lost   : Bool
  half   : Bool
  deriving DecidableEq, Repr

def KeepSt.reset : KeepSt := ⟨0, none, 0, none, 0, false, false, false, false⟩

/-- The hidden state of SYS: `phase` 0 held in reset, 1 starting, 2 running, 3 leaving P3; the start of start-up; whether the first tide
has been reached; a reset longer than 10 s; since when NRST is low; a supply out of range (R516); the image writer's operation (OP, OFFSET); a wake since the last boundary;
causes of DARK that wait for the boundary; FAULT_N low; the level of the HEART ball; free-running time at the start; boot has
ended. -/
structure SysSt where
  phase  : Nat
  start  : Nat
  up     : Bool
  stuck  : Bool
  nrstAt : Option Nat
  supplyOut : Bool
  img    : Option (Nat × Nat)
  woke   : Bool
  darks  : List Nat
  pinFault : Bool
  pinHeart : Bool
  startFree : Int
  booted : Bool
  deriving DecidableEq, Repr

def SysSt.reset : SysSt := ⟨1, 0, false, false, none, false, none, false, [], true, false, 0, false⟩

end Sys2Proof.Machine
end

