-- ==== Sys2Proof/Machine/Reset.lean ====
section
/-! DEFINITION. The reset value of every register (R14): the row of its table, the default ring allocation of R61, and the
microstep tables of R281. `State.regs` lists only the words that differ from it. -/

namespace Sys2Proof.Machine

/-- The address part of a register key (the key of a lane-private register adds a multiple of 2^32). -/
def keyAddr (k : Nat) : Nat := k % 4294967296

/-- The row that defines the register at an address, if one does (R76). -/
def rowAt (a : Nat) : Option RegRow :=
  if a < 0x40000000 then none
  else (regRows ((a - 0x40000000) / 65536)).find? (fun r => r.covers (a % 65536))

/-- The fields of a ring descriptor at reset (R61): storage offset, producer code, CANWAIT, policy, log2 of entry bytes and of
entries. -/
structure RingRow where
  base : Nat
  prod : Nat
  wait : Nat
  pol  : Nat
  ent  : Nat
  size : Nat
  deriving DecidableEq, Repr

/-- The default allocation of R61. Producer: 0 PROG, 1 HW, 2 HOST, 3 PROG_HOST, 4 FREE; policy: 0 DROP_NEW, 1 DROP_OLD, 2 BLOCK. -/
def ringRow (n : Nat) : RingRow :=
  let alt := n % 2
  if n < 8 then ⟨0x30000 + 0x1000 * n, 1 - alt, alt, 0, 4, 8⟩
  else if n < 12 then ⟨0x38000 + 0x4000 * (n - 8), if n = 10 then 0 else 1, if n = 10 then 1 else 0, 1, 7, 7⟩
  else if n < 16 then ⟨0x48000 + 0x8000 * (n - 12), 1 - alt, alt, 0, 7, 8⟩
  else if n < 24 then ⟨0x68000 + 0x2000 * (n - 16), 1 - alt, alt, 0, 3, 10⟩
  else if n < 28 then ⟨0x78000 + 0x4000 * (n - 24), if n = 24 then 2 else 3, 1, [2, 0, 1, 2].getD (n - 24) 0, 6, 8⟩
  else if n < 32 then ⟨0x88000 + 0x4000 * (n - 28), 1, 0, 0, 6, 8⟩
  else if n < 36 then ⟨0x98000 + 0x4000 * (n - 32), 1, 0, 1, 4, 10⟩
  else if n < 40 then ⟨0xA8000 + 0x4000 * (n - 36), if n = 37 then 0 else 1, if n = 37 then 1 else 0, 0, 6, 8⟩
  else if n < 48 then ⟨0xB8000 + 0x1000 * (n - 40), 1, 0, 1, 3, 9⟩
  else if n < 53 then ⟨0xC0000 + 0x2000 * (n - 48), 1, 0, 1, 5, 8⟩
  else if n < 56 then ⟨0, 1, 0, 0, 3, 4⟩
  else ⟨0, 4, 1, 0, 3, 4⟩

/-- RING[n].CFG at reset (R61): rings 0 to 52 are enabled. -/
def ringCfgReset (n : Nat) : Nat :=
  let r := ringRow n
  (if n < 53 then 0x80000000 else 0) + r.wait * 0x40000000 + r.prod * 65536 + r.pol * 256 + r.ent * 16 + r.size

/-- The value of the register at a key after reset (R14). -/
def resetWord (k : Nat) : Word :=
  let a := keyAddr k
  match rowAt a with
  | none => 0
  | some r =>
    if 0x40060000 ≤ a && a < 0x40060800 then
      let n := (a - 0x40060000) / 32
      let o := a % 32
      if o = 0 then BitVec.ofNat 32 (ringRow n).base
      else if o = 4 then BitVec.ofNat 32 (ringCfgReset n)
      else BitVec.ofNat 32 r.rst
    else if 0x400A1000 ≤ a && a < 0x400A3000 then BitVec.ofNat 32 (stepSine ((a - 0x400A1000) / 4 % 1024))
    else BitVec.ofNat 32 r.rst

/-- SYS.CAPS of the LC484C-T, whose fields marked var are hard-wired (R6, R14). -/
def capsC : Word := 0x00C2F343

/-- The value of the register at a key after reset on a part of the given variant (R1, R6). -/
def resetOf (variantC : Bool) (k : Nat) : Word := if variantC && k == SYS.CAPS then capsC else resetWord k

end Sys2Proof.Machine
end

