-- ==== Sys2Proof/Machine/State.lean ====
section
/-! DEFINITION. The state of the part as plain data, its faults and refusals, and its state right after reset. -/

namespace Sys2Proof.Machine

/-- Why a step can stop with a fault: no command of this part stops the machine (an error of the part is a trap, a flag,
an event or a mode, which are next states), so there is no constructor. -/
inductive Fault where
  deriving DecidableEq, Repr

/-- Why a step can be refused. -/
inductive Refusal where
  /-- Raised by `exec` for a row of the opcode table that has no meaning yet. Safe: the machine stops. -/
  | notModelled (mnemonic : String)
  deriving DecidableEq, Repr

/-- The whole state of the part. -/
structure State where
  /-- The commands that wait, first in, first out (the model's own field). -/
  pending : List Instr
  /-- Device time in ns. -/
  now   : Nat
  /-- The time island's count at its last 40 ns cycle: device time with its 32 bits of fraction, in units of 2^-32 ns (R415). -/
  osc   : Nat
  /-- The sum of the steps of device time (R420): free-running time is `now - stepped`. -/
  stepped : Int
  /-- Every register that differs from its reset value, by key: the home of all register-visible state. -/
  regs  : List (Nat × Word)
  /-- The registers as they stood before the happenings of the present instant: an RS flag that those set outlives a clear by a commit
  of the same instant (R137). -/
  regs0 : List (Nat × Word)
  /-- By register: the RS bits that happenings of the present instant have set again while they were 1 (R137). -/
  again : List (Nat × Word)
  snap  : Snap
  laneA : LaneSt
  laneB : LaneSt
  laneC : LaneSt
  /-- Shared SRAM and MRAM, by byte offset from 0x2000_0000 and 0x3000_0000. -/
  sram  : List Host.Cell
  mram  : List Host.Cell
  gal   : GalSt
  /-- Entries that a waiting BLOCK producer holds, by ring (R57). -/
  ringWait : List (Nat × List (List Byte))
  /-- By ring: the instant at which a commit took EN to 0 (R137). -/
  ringOff : List (Nat × Nat)
  /-- By ring: the last instant of a hardware push, and the head before the pushes of that instant (R39). -/
  ringPre : List (Nat × (Nat × Nat))
  /-- The instant of the last tick (R155). -/
  tickAt : Option Nat
  img   : ImgSt
  straps : Straps
  pos   : PosSt
  mot   : MotSt
  door  : DoorsSt
  dsp   : DspSt
  safe  : SafeSt
  llp   : LlpSt
  field : FieldSt
  range : RangeSt
  net   : NetSt
  link  : LinkSt
  host  : HostSt
  tests : HealthSt
  keep  : KeepSt
  sys   : SysSt
  /-- How many free values the model has used (the model's own field). -/
  freeCtr : Nat
  deriving DecidableEq, Repr

def Snap.reset : Snap := ⟨[], 0, 0⟩

/-- The machine right after reset. -/
def State.reset : State where
  pending := []
  now := 0
  osc := 0
  stepped := 0
  regs := []
  regs0 := []
  again := []
  snap := Snap.reset
  laneA := LaneSt.reset
  laneB := LaneSt.reset
  laneC := LaneSt.reset
  sram := []
  mram := []
  gal := GalSt.reset
  ringWait := []
  ringOff := []
  ringPre := []
  tickAt := none
  img := ImgSt.none
  straps := ⟨false, 0, 0⟩
  pos := PosSt.reset
  mot := MotSt.reset
  door := DoorsSt.reset
  dsp := DspSt.reset
  safe := SafeSt.reset
  llp := LlpSt.reset
  field := FieldSt.reset
  range := RangeSt.reset
  net := NetSt.reset
  link := LinkSt.reset
  host := HostSt.reset
  tests := HealthSt.reset
  keep := KeepSt.reset
  sys := SysSt.reset
  freeCtr := 0

end Sys2Proof.Machine
end

