-- ==== Sys2Proof/Machine/Ops.lean ====
section
/-! DEFINITION. The named operations over the state: registers and fields, free values, events (R40), source counters
(R480), rings (R54 to R60), and the lanes with the taking of a trap (R97). -/

namespace Sys2Proof.Machine

/-! ### Registers -/

/-- The reset values of the part's registers: what a key that `regs` does not list reads as. -/
def State.rst (s : State) : Nat → Word := resetOf s.straps.variantC

/-- The present value of the register at a key. -/
def State.reg (s : State) (k : Nat) : Word := mget s.rst s.regs k

/-- Writes a register. -/
def State.setReg (s : State) (k : Nat) (v : Word) : State := { s with regs := mput s.rst s.regs k v }

/-- A register as a number. -/
def State.regN (s : State) (k : Nat) : Nat := (s.reg k).toNat

/-- A register as a signed number. -/
def State.regI (s : State) (k : Nat) : Int := (s.reg k).toInt

def State.setN (s : State) (k v : Nat) : State := s.setReg k (BitVec.ofNat 32 v)

def State.setI (s : State) (k : Nat) (v : Int) : State := s.setReg k (wordOfInt v)

/-- The value of a field. -/
def State.fld (s : State) (f : Fld) : Nat := bitsOf (s.regN f.addr) f.lo f.width

/-- The value of a field as a signed number. -/
def State.sfld (s : State) (f : Fld) : Int := sgn f.width (s.fld f)

def State.setFld (s : State) (f : Fld) (v : Nat) : State := s.setN f.addr (setBits (s.regN f.addr) f.lo f.width v)

/-- A one-bit field as a Boolean. -/
def State.flag (s : State) (f : Fld) : Bool := s.fld f == 1

def State.setFlag (s : State) (f : Fld) (b : Bool) : State := s.setFld f (b2n b)

/-- A happening sets a sticky flag; one that was 1 already is noted as set again at this instant (R137). -/
def State.stick (s : State) (f : Fld) : State :=
  if s.flag f then
    { s with again := mput zeroWord s.again f.addr (BitVec.ofNat 32 (setBits (mget zeroWord s.again f.addr).toNat f.lo f.width 1)) }
  else s.setFlag f true

/-- Adds to a field, saturating at its greatest value. -/
def State.bump (s : State) (f : Fld) (n : Nat) : State := s.setFld f (satNat (2 ^ f.width - 1) (s.fld f + n))

/-- Adds to a field modulo its width. -/
def State.wrapAdd (s : State) (f : Fld) (n : Nat) : State := s.setFld f (s.fld f + n)

/-- Adds to a register word, saturating at 0xFFFF_FFFF. -/
def State.bumpReg (s : State) (k n : Nat) : State := s.setN k (satNat 0xFFFFFFFF (s.regN k + n))

/-- A signed 48-bit quantity in two registers, the low word first (R16). -/
def State.pos48 (s : State) (lo : Nat) : Int := sgn 48 (s.regN lo + 2 ^ 32 * (s.regN (lo + 4) % 65536))

/-- Writes a signed 48-bit quantity, its upper word sign-extended (R16). -/
def State.setPos48 (s : State) (lo : Nat) (v : Int) : State :=
  (s.setN lo (unsgn 48 v % 2 ^ 32)).setI (lo + 4) (sgn 16 (unsgn 48 v / 2 ^ 32))

/-- An unsigned 48-bit quantity in two registers. -/
def State.cnt48 (s : State) (lo : Nat) : Nat := s.regN lo + 2 ^ 32 * (s.regN (lo + 4) % 65536)

def State.setCnt48 (s : State) (lo v : Nat) : State := (s.setN lo (v % 2 ^ 32)).setN (lo + 4) (v / 2 ^ 32 % 65536)

/-- A register of the snapshot (R35). -/
def State.snapReg (s : State) (k : Nat) : Word := mget s.rst s.snap.regs k

/-- The key of the register that a lane reaches at an address: CTRL and SAFE are its own (R47). -/
def keyOf (l : Nat) (a : Nat) : Nat :=
  if (0x40090000 ≤ a ∧ a < 0x400A0000) ∨ (0x400C0000 ≤ a ∧ a < 0x400D0000) then a + 0x100000000 * (l + 1) else a

/-- Folds a step over a list of numbers. -/
def State.forAll (s : State) (l : List Nat) (f : Nat → State → State) : State := l.foldl (fun s i => f i s) s

/-- Applies a step when a condition holds. -/
def State.when (s : State) (b : Bool) (f : State → State) : State := if b then f s else s

/-! ### Free values -/

/-- The next free value of the model (assumption 2). -/
def State.free (s : State) : Nat × State := (Config.freeNat s.freeCtr, { s with freeCtr := s.freeCtr + 1 })

/-! ### Time -/

/-- By how much the time island advances its count at each 40 ns cycle of XTAL_A: 40 ns × (1 + RATE × 2^-32), in units of 2^-32 ns (R415). -/
def State.oscStep (s : State) : Nat := (40 * (4294967296 + s.regI TIME.RATE)).toNat

/-- The island's count at its last cycle up to the instant `t` and `frac` × 2^-16 ns (R415): it has advanced by whole cycles. -/
def State.oscAt (s : State) (t frac : Nat) : Nat :=
  s.osc + (t * 2 ^ 32 + frac % 65536 * 65536 - s.osc) / s.oscStep * s.oscStep

/-- FRAC: the upper 16 of the 32 bits of fraction that the island keeps (R415). -/
def fracOf (osc : Nat) : Nat := osc / 65536 % 65536

/-- Moves device time on to an instant (time never runs back). -/
def State.atTime (s : State) (t : Nat) : State :=
  { s with now := max s.now t, osc := s.oscAt t 0, regs0 := if s.now < t then s.regs else s.regs0, again := if s.now < t then [] else s.again }

/-- The time island's free-running count in ns: device time without its steps. -/
def State.freeRun (s : State) : Int := (s.now : Int) - s.stepped

/-- The short stamp of an instant (R416): its nanoseconds modulo 2^32, seconds included. -/
def shortOf (t : Nat) : Nat := t % 4294967296

/-! ### Events and source counters -/

/-- Sources that only count and are never latched (R480). -/
def countOnly (src : Nat) : Bool := src == 183 || src == 215 || src == 238 || src == 239

/-- Latches a source with the present instant, or marks it as fired again (R40). -/
def State.latch (s : State) (src : Nat) : State :=
  let k := src / 32
  let b := src % 32
  let p := s.regN (GALLERY.EVT_PEND k)
  if bitB p b then
    let o := s.regN (GALLERY.EVT_OVR k)
    s.setN (GALLERY.EVT_OVR k) (if bitB o b then o else o + 2 ^ b)
  else
    let s := s.setN (GALLERY.EVT_PEND k) (p + 2 ^ b)
    { s with gal := { s.gal with evtStamp := mput zeroNat s.gal.evtStamp src s.now } }

/-- Counts a firing in the shared counters that name the source; answers how many of them met their compare value (R480). -/
def State.countSrc (s : State) (src : Nat) : State × Nat :=
  (upto 32).foldl (fun (p : State × Nat) i =>
    let s := p.1
    let sel := s.regN (HEALTH.CNT_SEL i)
    if bitB sel 31 && sel % 256 == src then
      let v := (s.cnt48 (HEALTH.CNT_LO i) + 1) % 2 ^ 48
      let c := s.regN (HEALTH.CNT_CMP i)
      (s.setCnt48 (HEALTH.CNT_LO i) v, p.2 + b2n (c != 0 && v % 2 ^ 32 == c))
    else p) (s, 0)

/-- Fires source 247 `k` times. Each firing is counted in its turn, and a counter of 247 that meets its compare value adds one; a counter does so
once in 2^32 firings, so that the fuel of 64 covers the 32 counters twice. -/
def State.fireCmp (s : State) (k : Nat) : Nat → State
  | 0 => s
  | f + 1 =>
    if k = 0 then s
    else
      let q := s.countSrc 247
      (q.1.latch 247).fireCmp (k - 1 + q.2) f

/-- A source fires (R40, R480): each counter that meets its compare value fires source 247. -/
def State.fire (s : State) (src : Nat) : State :=
  let p := s.countSrc src
  (if countOnly src then p.1 else p.1.latch src).fireCmp p.2 64

/-! ### ECC of shared SRAM (R51) -/

/-- A single-bit error is corrected and counted. -/
def State.eccCount (s : State) : State := { s with tests := { s.tests with ecc := s.tests.ecc + 1 } }.fire 183

/-- The bytes that block `blk` (R46) reads from shared SRAM: a single-bit error is corrected and counted, a double-bit error is reported by the
block, and what it then reads is free (assumption 28). -/
def State.hwEcc (s : State) (blk : Nat) (e : Ecc) (bs : List Byte) : List Byte × State :=
  match e with
  | .clean => (bs, s)
  | .single => (bs, s.eccCount)
  | .double =>
    let f := s.free
    (leBytes bs.length f.1, { f.2 with tests := { f.2.tests with eccBlk := f.2.tests.eccBlk ++ [blk] } })

/-! ### What a group writes -/

/-- Whether the items of a group write a bit of a field, or, with `one`, a one to it. -/
def wrote (items : List Item) (f : Fld) (one : Bool) : Bool :=
  items.any fun i =>
    match i with
    | .word _ a v m => a == f.addr && bitsOf ((if one then v &&& m else m).toNat) f.lo f.width != 0
    | _ => false

/-! ### Rings -/

/-- The entry size in bytes and the number of entries of ring `n`. -/
def State.ringEnt (s : State) (n : Nat) : Nat := 2 ^ s.fld (RINGS.RING_CFG_ENTRY_LOG2 n)
def State.ringSize (s : State) (n : Nat) : Nat := 2 ^ s.fld (RINGS.RING_CFG_SIZE_LOG2 n)
def State.ringHead (s : State) (n : Nat) : Nat := s.regN (RINGS.RING_HEAD n)
def State.ringTail (s : State) (n : Nat) : Nat := s.regN (RINGS.RING_TAIL n)

/-- The number of entries between two counters (R54). -/
def ringDiff (head tail : Nat) : Nat := (head + 65536 - tail % 65536) % 65536

def State.ringCnt (s : State) (n : Nat) : Nat := ringDiff (s.ringHead n) (s.ringTail n)

/-- The SRAM offset of the slot of a counter value. -/
def State.ringSlot (s : State) (n c : Nat) : Nat :=
  s.fld (RINGS.RING_BASE_BASE n) + (c % s.ringSize n) * s.ringEnt n

/-- The part of shared SRAM that is reserved: it reads 0 and keeps nothing (R49). No entry of a ring crosses its ends, since BASE is aligned to
the entries (R54). -/
def reservedSram (o : Nat) : Bool := decide (0x20400 ≤ o) && decide (o < 0x30000)

/-- The bytes of the entry at a counter value. -/
def State.ringEntry (s : State) (n c : Nat) : List Byte :=
  if reservedSram (s.ringSlot n c) then padTo (s.ringEnt n) [] else rdBytes s.sram (s.ringSlot n c) (s.ringEnt n)

/-- Writes an entry to the slot of a counter value. -/
def State.putEntry (s : State) (n c : Nat) (e : List Byte) : State :=
  if reservedSram (s.ringSlot n c) then s
  else { s with sram := wrBytes s.sram (s.ringSlot n c) (padTo (s.ringEnt n) e) }

/-- Sets head and tail with EMPTY and FULL, and fires the watermark source when the count rises to it (R60). -/
def State.ringSet (s : State) (n head tail : Nat) : State :=
  let c0 := s.ringCnt n
  let s := (s.setN (RINGS.RING_HEAD n) (head % 65536)).setN (RINGS.RING_TAIL n) (tail % 65536)
  let c := s.ringCnt n
  let s := (s.setFlag (RINGS.RING_STS_EMPTY n) (c == 0)).setFlag (RINGS.RING_STS_FULL n) (c == s.ringSize n)
  let w := s.fld (RINGS.RING_WMARK_WMARK n)
  if w != 0 && decide (c0 < w) && decide (w ≤ c) then s.fire n else s

/-- Counts a discard or a block: DROPS, OVF and the overflow source (R57, R60). -/
def State.ringOverflow (s : State) (n : Nat) : State :=
  (((s.bumpReg (RINGS.RING_DROPS n) 1).stick (RINGS.RING_STS_OVF n))).fire (64 + n)

/-- Moves the entries of the counters `c + 1 …` down by one slot, `k` of them. -/
def State.ringShift (s : State) (n c : Nat) : Nat → State
  | 0 => s
  | k + 1 => (s.putEntry n c (s.ringEntry n (c + 1))).ringShift n (c + 1) k

/-- Notes the head of a ring before the hardware pushes of the present instant (R39). -/
def State.notePush (s : State) (n : Nat) : State :=
  match s.ringPre.find? (fun p => p.1 == n && p.2.1 == s.now) with
  | some _ => s
  | none => { s with ringPre := mput (fun _ => (0, 0)) s.ringPre n (s.now, s.ringHead n) }

/-- A hardware producer writes an entry (R55, R57); at the instant of a commit of EN = 0 it is discarded and counted (R137). Into a full
DROP_OLD ring the entries outside the snapshot window move down by one slot and the new one takes the last, so that both counters stand
(assumption 20: the manual does not say what they do). -/
def State.hwPush (s : State) (n : Nat) (e : List Byte) : State :=
  if !s.flag (RINGS.RING_CFG_EN n) then
    (if s.ringOff.any fun p => p.1 == n && p.2 == s.now then s.ringOverflow n else s)
  else
    let h := s.ringHead n
    if s.ringCnt n < s.ringSize n then ((s.notePush n).putEntry n h e).ringSet n (h + 1) (s.ringTail n)
    else if s.fld (RINGS.RING_CFG_POLICY n) = 1 then
      let out := min (ringDiff h (s.snapReg (RINGS.RING_HEAD n)).toNat) (s.ringCnt n)
      let s := s.ringOverflow n
      if out = 0 then s
      else (s.ringShift n (h + 65536 - out) (out - 1)).putEntry n (h + 65535) e
    else if s.fld (RINGS.RING_CFG_POLICY n) = 2 then
      let s := (s.ringOverflow n).setFlag (RINGS.RING_STS_WAITING n) true
      { s with ringWait := mput (fun _ => []) s.ringWait n (mget (fun _ => []) s.ringWait n ++ [e]) }
    else s.ringOverflow n

/-- A hardware or host consumer takes the oldest entry of a ring. -/
def State.ringTake (s : State) (n : Nat) : Option (List Byte × State) :=
  if s.ringCnt n = 0 then none
  else some (s.ringEntry n (s.ringTail n), s.ringSet n (s.ringHead n) (s.ringTail n + 1))

/-- A waiting BLOCK producer writes its entries once there is space (R57). -/
def State.ringResume (s : State) (n : Nat) : State :=
  match mget (fun _ => []) s.ringWait n with
  | [] => s.setFlag (RINGS.RING_STS_WAITING n) false
  | e :: es =>
    if s.ringCnt n < s.ringSize n then
      let h := s.ringHead n
      let s := ((s.notePush n).putEntry n h e).ringSet n (h + 1) (s.ringTail n)
      let s := { s with ringWait := mput (fun _ => []) s.ringWait n es }
      s.setFlag (RINGS.RING_STS_WAITING n) (!es.isEmpty)
    else s

/-- Whether the program is the producer of ring `n` (R88). -/
def State.progProduces (s : State) (n : Nat) : Bool :=
  let p := s.fld (RINGS.RING_CFG_PRODUCER n)
  p == 0 || p == 3 || (p == 4 && (s.fld (RINGS.RING_CFG_SEL n) == 0 || s.fld (RINGS.RING_CFG_SEL n) == 1))

/-- Whether the program is the consumer of ring `n` (R88). -/
def State.progConsumes (s : State) (n : Nat) : Bool :=
  let p := s.fld (RINGS.RING_CFG_PRODUCER n)
  p == 1 || p == 2 || (p == 4 && (s.fld (RINGS.RING_CFG_SEL n) == 0 || s.fld (RINGS.RING_CFG_SEL n) == 2))

/-- Whether an SRAM offset lies in the storage of a ring with EN = 1 in effect (R75). -/
def State.inRing (s : State) (o : Nat) : Bool :=
  (upto 64).any fun n =>
    s.flag (RINGS.RING_CFG_EN n) &&
      (let b := s.fld (RINGS.RING_BASE_BASE n)
       decide (b ≤ o) && decide (o < b + s.ringSize n * s.ringEnt n))

/-! ### Lanes -/

/-- The state of a lane. -/
def State.lane (s : State) (l : Nat) : LaneSt :=
  if l = 0 then s.laneA else if l = 1 then s.laneB else s.laneC

/-- Replaces the state of a lane. -/
def State.setLane (s : State) (l : Nat) (x : LaneSt) : State :=
  if l = 0 then { s with laneA := x } else if l = 1 then { s with laneB := x } else { s with laneC := x }

/-- Changes the state of a lane. -/
def State.onLane (s : State) (l : Nat) (f : LaneSt → LaneSt) : State := s.setLane l (f (s.lane l))

/-- A general register; g0 reads 0 (R62). -/
def LaneSt.rg (x : LaneSt) (r : Nat) : Word := if r = 0 then 0 else mget zeroWord x.g r

/-- Writes a general register; writes to g0 are discarded (R62). -/
def LaneSt.wg (x : LaneSt) (r : Nat) (v : Word) : LaneSt := if r = 0 then x else { x with g := mput zeroWord x.g r v }

/-- An accumulator (R62). -/
def LaneSt.ra (x : LaneSt) (r : Nat) : BitVec 64 := mget (fun _ => 0) x.acc r

def LaneSt.wa (x : LaneSt) (r : Nat) (v : BitVec 64) : LaneSt := { x with acc := mput (fun _ => 0) x.acc r v }

/-- The cause of the trap taken in this tide, sw[31:28] (R63). -/
def LaneSt.tc (x : LaneSt) : Nat := x.sw.toNat / 2 ^ 28

/-- Charges lane cycles and one instruction (R481). -/
def LaneSt.charge (x : LaneSt) (c w : Nat) : LaneSt :=
  { x with tally := { x.tally with cycles := x.tally.cycles + c, insts := x.tally.insts + 1, waitNs := x.tally.waitNs + w } }

/-- The instruction completes: pc moves on by one word and the cycles are charged. -/
def LaneSt.next (x : LaneSt) (c : Nat) : LaneSt := { x.charge c 0 with pc := x.pc + 4 }

/-- Adds an element to the commit record; a group's index is carried while it is open (R119). -/
def LaneSt.elem (x : LaneSt) (kind seq a v m : Nat) : LaneSt :=
  let grp := if x.stage.opened.isSome then x.stage.groups - 1 else 255
  { x with stage := { x.stage with elems := x.stage.elems ++ [⟨kind, grp, seq, a, v, m⟩] } }

/-- Discards the open group with its ABORT element, as TABORT does (R97, R121). -/
def LaneSt.abortGroup (x : LaneSt) : LaneSt :=
  match x.stage.opened with
  | none => x
  | some items =>
    let x := x.elem 7 0 items.length 0 0
    { x with stage := { x.stage with opened := none }, sw := x.sw &&& ~~~0x80#32 }

/-- Codes of the trap causes (R96). -/
def tcIllegal : Nat := 1
def tcAlign : Nat := 2
def tcMap : Nat := 3
def tcStore : Nat := 4
def tcGroup : Nat := 5
def tcStageFull : Nat := 6
def tcRing : Nat := 7
def tcFold : Nat := 8
def tcRegPair : Nat := 9
def tcSoft : Nat := 10

/-- Ends the lane's tide without a record (R27, R98); `cause` is the LAST_CAUSE code it leaves. -/
def LaneSt.endNoRecord (x : LaneSt) (cause : Nat) : LaneSt :=
  { x with run := false, wait := none, lost := cause }

/-- Taking a trap (R96 to R98): the open group is discarded, TC, tp and tv are set and the lane goes on at TRAPVEC; a trap
taken while TC is not 0 ends the tide without a record. The trapping instruction's cycles and 4 more are charged, the 4 also by a trap
that ends the tide (assumption 26). -/
def LaneSt.trap (x : LaneSt) (vec tc : Nat) (tv : Word) (cycles : Nat) (waited : Nat := 0) : LaneSt :=
  let x := x.charge (cycles + 4) waited
  let x := { x with tally := { x.tally with traps := x.tally.traps + 1 } }
  if x.tc ≠ 0 then x.endNoRecord 2
  else
    let x := x.abortGroup
    { x with sw := (x.sw &&& 0x0FFFFFFF#32) ||| BitVec.ofNat 32 (tc * 2 ^ 28), tp := x.pc, tv := tv, pc := vec }

/-- Runs an instruction on a lane: nothing happens on a lane that is not executing (R33) or that waits (R42, R93); a fetch
outside IRAM traps with MAP (R96). -/
def State.runLane (s : State) (l : Nat) (f : LaneSt → State → State) : State :=
  let x := s.lane l
  if x.run && x.wait.isNone then
    if x.pc < 0x40000 then f x s
    else s.setLane l (x.trap s.img.trapvec tcMap (BitVec.ofNat 32 x.pc) 0)
  else s

/-- Runs an instruction that touches only its lane. -/
def State.runPure (s : State) (l : Nat) (f : LaneSt → LaneSt) : State := s.runLane l fun x s => s.setLane l (f x)

/-- The outcome of every command of this part: a next state. -/
def done (s : State) : Host.Outcome State Fault Refusal := .next s

/-- What a lane's own counters have counted under a code of R481. -/
def Tally.code (t : Tally) : Nat → Nat
  | 0 => t.cycles
  | 1 => t.insts
  | 2 => t.waitNs
  | 3 => t.traps
  | 4 => t.ecc
  | 5 => t.items
  | 6 => t.bells
  | 7 => t.folds
  | 8 => t.runs
  | 9 => t.safes
  | _ => 0

/-- Adds what the lanes have counted to the lane counters of HEALTH (R481). -/
def State.flushTally (s : State) : State :=
  s.forAll [0, 1, 2] fun l s =>
    let t := (s.lane l).tally
    if t = Tally.zero then s
    else
      let s := s.forAll (upto 8) fun j s =>
        if s.flag (HEALTH.LCNT_SEL_EN l j) then
          s.setCnt48 (HEALTH.LCNT_LO l j) ((s.cnt48 (HEALTH.LCNT_LO l j) + t.code (s.fld (HEALTH.LCNT_SEL_SRC l j))) % 2 ^ 48)
        else s
      s.onLane l fun x => { x with tally := Tally.zero }

/-! ### Lane states (R140) -/

def State.laneState (s : State) (l : Nat) : Nat := s.fld (GALLERY.LANE_STS_STATE l)
def State.setLaneState (s : State) (l v : Nat) : State := s.setFld (GALLERY.LANE_STS_STATE l) v

/-- VOTING and DOUBTFUL lanes vote (R140). -/
def State.votes (s : State) (l : Nat) : Bool := s.laneState l == 0 || s.laneState l == 1

/-- The lanes that vote. -/
def State.voters (s : State) : List Nat := [0, 1, 2].filter fun l => s.votes l

/-- Changes the boundary generator. -/
def State.onEdge (s : State) (f : EdgeSt → EdgeSt) : State := { s with gal := { s.gal with edge := f s.gal.edge } }

/-- The next boundary falls at an instant: the first one of start-up, or of the exit from P3 (R494, R497). -/
def State.edgeStart (s : State) (t : Nat) : State :=
  s.onEdge fun e =>
    { e with due := t, len := s.fld GALLERY.TIDE_CFG_PERIOD * 1000, guard := s.fld GALLERY.TIDE_CFG_GUARD * 1000, short := false }

/-- The tide of P2 that a wake has cut short ends 35 µs from now, 30 µs after its deadline, once every voting lane has presented its
record; it never ends later than the stretched boundary (R493). -/
def State.edgeShort (s : State) : State :=
  if s.voters.all fun l => (s.lane l).stage.done then
    s.onEdge fun e => { e with due := min e.due (s.now + 35000), guard := 30000, short := false }
  else s.onEdge fun e => { e with short := true }

/-- Whether `ns` before the present tide's boundary is the present instant; a boundary that no row has brought is passed over. -/
def State.edgeDue (s : State) (ns : Nat) : Bool :=
  let e := s.gal.edge
  decide (e.due ≤ s.now + ns) && (s.now + ns - e.due) % e.len == 0

/-- Whether a boundary falls at the present instant and no row has brought it yet: the samples of its instant follow its write set (R134, R137). -/
def State.edgeWaits (s : State) : Bool := s.sys.phase == 2 && decide (s.fld SYS.PWR_STS_STATE ≤ 2) && s.edgeDue 0

/-- A lane of a shortened tide has presented its record. -/
def State.recordIn (s : State) : State := if s.gal.edge.short then s.edgeShort else s

/-- Whether the device is the one that drives the outputs of R460: it is SOLO or holds the claim. -/
def State.drives (s : State) : Bool := s.fld RANGE.STS_STATE == 0 || s.flag RANGE.STS_HOLDS_CLAIM

/-- Whether the core's outputs are powered: in P4 every output is off (R495). -/
def State.outputsOn (s : State) : Bool := s.fld SYS.PWR_STS_STATE != 4

end Sys2Proof.Machine
end

