-- ==== Sys2Proof/Machine/Flags.lean ====
section
/-! DEFINITION. The flags of the status word sw (R63, R64): Z [0], N [1], C [2], V [3], and the sticky SAT [4] and CL [5]. -/

namespace Sys2Proof.Machine

/-- A status word with bit `i` set to `b`. -/
def swBit (sw : Word) (i : Nat) (b : Bool) : Word :=
  if b then sw ||| BitVec.ofNat 32 (2 ^ i) else sw &&& ~~~BitVec.ofNat 32 (2 ^ i)

def swZ (sw : Word) (b : Bool) : Word := swBit sw 0 b
def swN (sw : Word) (b : Bool) : Word := swBit sw 1 b
def swC (sw : Word) (b : Bool) : Word := swBit sw 2 b
def swV (sw : Word) (b : Bool) : Word := swBit sw 3 b

/-- SAT and CL are sticky: an instruction can only set them (R64). -/
def swSat (sw : Word) (b : Bool) : Word := if b then swBit sw 4 true else sw
def swCl (sw : Word) (b : Bool) : Word := if b then swBit sw 5 true else sw

/-- Z and N of a result. -/
def swZN (sw v : Word) : Word := swN (swZ sw (v == 0)) v.msb

/-- The flags of a plain result: Z and N. -/
def LaneSt.flagsZN (x : LaneSt) (v : Word) : LaneSt := { x with sw := swZN x.sw v }

/-- The flags of a result with carry and overflow: Z, N, C and V. -/
def LaneSt.flagsZNCV (x : LaneSt) (v : Word) (c o : Bool) : LaneSt := { x with sw := swV (swC (swZN x.sw v) c) o }

/-- The flags of a result that can overflow: Z, N and V. -/
def LaneSt.flagsZNV (x : LaneSt) (v : Word) (o : Bool) : LaneSt := { x with sw := swV (swZN x.sw v) o }

/-- The flags of a saturating result: Z, N and the sticky SAT. -/
def LaneSt.flagsZNSat (x : LaneSt) (v : Word) (sat : Bool) : LaneSt := { x with sw := swSat (swZN x.sw v) sat }

/-- The sticky SAT alone (accumulator results). -/
def LaneSt.flagsSat (x : LaneSt) (sat : Bool) : LaneSt := { x with sw := swSat x.sw sat }

/-- Carry out of an addition. -/
def addCarry (a b : Word) : Bool := decide (2 ^ 32 ≤ a.toNat + b.toNat)

/-- Signed overflow of an exact result. -/
def overflow32 (r : Int) : Bool := decide (r < -2147483648) || decide (2147483647 < r)

/-- No borrow in a subtraction (C of SUB). -/
def subNoBorrow (a b : Word) : Bool := decide (b.toNat ≤ a.toNat)

/-- A result limited to the signed 32-bit range, and whether it was limited (R66). -/
def sat32 (r : Int) : Word × Bool := (wordOfInt (satInt 32 r), overflow32 r)

/-- A result limited to the signed 64-bit range, and whether it was limited (R66). -/
def sat64 (r : Int) : BitVec 64 × Bool := (BitVec.ofNat 64 (unsgn 64 (satInt 64 r)), satInt 64 r != r)

end Sys2Proof.Machine
end

