-- ==== Sys2Proof/Machine/Operands.lean ====
section
/-! DEFINITION. The operand forms of the lane instructions (R67, R68, R74, R78): immediates, effective addresses, branch
targets, the regions of the address map (R45, R46, R49, R75), and the reads and stores that the memory instructions share. -/

namespace Sys2Proof.Machine

/-- An immediate of 16 bits, sign-extended. -/
def sext16 (i : BitVec 16) : Word := i.signExtend 32

/-- An immediate of 16 bits, zero-extended. -/
def zext16 (i : BitVec 16) : Word := i.zeroExtend 32

/-- The address gb + sext(imm16) of a load or store (R74). -/
def LaneSt.effAddr (x : LaneSt) (gb : GReg) (imm : BitVec 16) : Nat := (x.rg gb.val + sext16 imm).toNat

/-- The target of a branch: its own address plus 4 × sext(off16) (R78). -/
def LaneSt.brTarget (x : LaneSt) (off : BitVec 16) : Nat := (BitVec.ofNat 32 x.pc + (off.signExtend 32) * 4#32).toNat

/-- The target of J and JAL: the own address plus 4 × sext(off26) (R78). -/
def LaneSt.jTarget (x : LaneSt) (off : BitVec 26) : Nat := (BitVec.ofNat 32 x.pc + (off.signExtend 32) * 4#32).toNat

/-- The regions of the lane address map (R45). -/
inductive Region where
  | iram
  | dram
  | sram
  | mram
  | regs
  | none
  deriving DecidableEq, Repr

/-- The region of an address (R45, R46): the register space ends at 0x4013_FFFF. -/
def regionOf (a : Nat) : Region :=
  if a < 0x40000 then .iram
  else if 0x10000000 ≤ a ∧ a < 0x10040000 then .dram
  else if 0x20000000 ≤ a ∧ a < 0x20200000 then .sram
  else if 0x30000000 ≤ a ∧ a < 0x31000000 then .mram
  else if 0x40000000 ≤ a ∧ a < 0x40140000 then .regs
  else .none

/-- Load cycles by region (R75); 0 where the table gives none (assumption 26). -/
def loadCycles : Region → Nat
  | .iram => 2
  | .dram => 2
  | .sram => 12
  | .mram => 24
  | .regs => 4
  | .none => 0

/-- Store cycles by region (R75); 0 where the table gives none (assumption 26). -/
def storeCycles : Region → Nat
  | .dram => 1
  | .sram => 2
  | .regs => 2
  | _ => 0

/-- Whether an address is outside its region's defined places: an undefined register offset, or no region (R46, R76). -/
def unmapped (a : Nat) : Bool :=
  match regionOf a with
  | .none => true
  | .regs => (rowAt a).isNone
  | _ => false

/-- Whether a store inside a group may reach an address (R75, R96): a defined register, or a word of the program area of
shared SRAM outside the storage of every enabled ring. -/
def State.stageable (s : State) (a : Nat) : Bool :=
  match regionOf a with
  | .regs => (rowAt a).isSome
  | .sram => decide (0x20100000 ≤ a) && !s.inRing (a - 0x20000000)
  | _ => false

/-- The `n` bytes that a load finds at an address, little-endian; registers give their snapshot value (R35). -/
def State.loadBytes (s : State) (l a n : Nat) : Nat :=
  match regionOf a with
  | .iram => rdLE (s.lane l).iram a n
  | .dram => rdLE (s.lane l).dram (a - 0x10000000) n
  | .sram => if reservedSram (a - 0x20000000) then 0 else rdLE s.sram (a - 0x20000000) n
  | .mram => rdLE s.mram (a - 0x30000000) n
  | .regs => (s.snapReg (keyOf l a)).toNat
  | .none => 0

/-- Whether a region is read through ECC (R27, R51). -/
def eccRegion : Region → Bool
  | .iram => true
  | .dram => true
  | .sram => true
  | _ => false

/-- The trap, if any, that a load of `n` bytes takes: ALIGN before MAP (R74, R96). -/
def loadTrap (a n : Nat) : Option Nat :=
  if a % n ≠ 0 then some tcAlign
  else if regionOf a = .regs ∧ n ≠ 4 then some tcAlign
  else if unmapped a then some tcMap
  else none

/-- Counts a single-bit correction of a lane's read (R27, R480, R481); one on a load from shared SRAM counts as the lane's too (R51,
assumption 28). -/
def State.eccSingle (s : State) (l : Nat) : State :=
  (s.onLane l fun x => { x with tally := { x.tally with ecc := x.tally.ecc + 1 } }).eccCount

/-- Reads through ECC: a single-bit error is corrected and counted, a double-bit error ends the lane's tide with no record
(R27, R51), and otherwise the read goes on. -/
def State.readEcc (s : State) (l a cycles : Nat) (e : Ecc) (go : State → State) : State :=
  if eccRegion (regionOf a) then
    match e with
    | .clean => go s
    | .single => go (s.eccSingle l)
    | .double => s.onLane l fun x => (x.charge cycles 0).endNoRecord 4
  else go s

/-- A load (R74, R75): `ext` makes the register value of the bytes read. -/
def State.load (s : State) (l : Nat) (gd gb : GReg) (imm : BitVec 16) (n : Nat) (ext : Nat → Word) (e : Ecc) : State :=
  s.runLane l fun x s =>
    let a := x.effAddr gb imm
    let cyc := loadCycles (regionOf a)
    match loadTrap a n with
    | some tc => s.setLane l (x.trap s.img.trapvec tc (BitVec.ofNat 32 a) cyc)
    | none =>
      s.readEcc l a cyc e fun s => s.onLane l fun y => (y.wg gd.val (ext (s.loadBytes l a n))).next cyc

/-- Adds an item to the open group, counting it (R82). -/
def LaneSt.addItem (x : LaneSt) (i : Item) : LaneSt :=
  { x with
    stage := { x.stage with items := x.stage.items + 1, opened := x.stage.opened.map (· ++ [i]) }
    tally := { x.tally with items := x.tally.items + 1 } }

/-- The bits of a word that a store can name: in register space those of reserved fields take no part (R13). -/
def storeBits (a : Nat) : Word :=
  match rowAt a with
  | none => 0xFFFFFFFF#32
  | some r => BitVec.ofNat 32 r.bits

/-- Stages a masked word write with its STORE element (R13, R81, R121). -/
def LaneSt.stageWord (x : LaneSt) (a : Nat) (v m : Word) : LaneSt :=
  let q := x.stage.items
  let b := storeBits a
  (x.elem 2 q a (v &&& b).toNat (m &&& b).toNat).addItem (.word q a (v &&& b) (m &&& b))

/-- Writes `n` bytes of DRAM and marks their lines dirty for relief (R77, R148). -/
def LaneSt.wrDram (x : LaneSt) (o : Nat) (bs : List Byte) : LaneSt :=
  let ls := (upto (bs.length / 64 + 2)).filterMap fun i =>
    if (o / 64 + i) * 64 < o + bs.length then some (o / 64 + i) else none
  { x with dram := wrBytes x.dram o bs, dirty := x.dirty ++ ls.filter (fun i => !x.dirty.contains i) }

/-- A store of `n` bytes (R74, R75, R81): DRAM at once, register space and shared SRAM staged in the open group. -/
def State.store (s : State) (l : Nat) (gs gb : GReg) (imm : BitVec 16) (n : Nat) : State :=
  s.runLane l fun x s =>
    let a := x.effAddr gb imm
    let r := regionOf a
    let cyc := storeCycles r
    let v := x.rg gs.val
    let tr := fun tc => s.setLane l (x.trap s.img.trapvec tc (BitVec.ofNat 32 a) cyc)
    if a % n ≠ 0 ∨ (r = .regs ∧ n ≠ 4) then tr tcAlign
    else if r = .dram then s.setLane l ((x.wrDram (a - 0x10000000) (leBytes n v.toNat)).next cyc)
    else if !s.stageable a then tr tcMap
    else if x.stage.opened.isNone then tr tcStore
    else if x.stage.items ≥ 1024 then s.setLane l (x.trap s.img.trapvec tcStageFull 0 cyc)
    else
      let sh := a % 4 * 8
      let m := BitVec.ofNat 32 ((2 ^ (8 * n) - 1) * 2 ^ sh)
      s.setLane l ((x.stageWord (a / 4 * 4) ((v <<< sh) &&& m) m).next cyc)

/-- A transfer of control to a target (R78): ALIGN before MAP; tp is the branch or jump. -/
def State.goTo (s : State) (l : Nat) (x : LaneSt) (t : Nat) : State :=
  if t % 4 ≠ 0 then s.setLane l (x.trap s.img.trapvec tcAlign (BitVec.ofNat 32 t) 3)
  else if 0x40000 ≤ t then s.setLane l (x.trap s.img.trapvec tcMap (BitVec.ofNat 32 t) 3)
  else s.setLane l { x.charge 3 0 with pc := t }

/-- A conditional branch: 1 cycle not taken, 3 taken (R78). -/
def State.branch (s : State) (l : Nat) (gs gt : GReg) (off : BitVec 16) (cond : Word → Word → Bool) : State :=
  s.runLane l fun x s =>
    if cond (x.rg gs.val) (x.rg gt.val) then s.goTo l x (x.brTarget off) else s.setLane l (x.next 1)

end Sys2Proof.Machine
end

