-- ==== Sys2Proof/Machine/Arith.lean ====
section
/-! DEFINITION. The integer and bit operations of the lanes (R70, R66, R64). -/

namespace Sys2Proof.Machine

/-- Writes a result with the flags Z and N. -/
def LaneSt.putZN (x : LaneSt) (gd : GReg) (v : Word) (c : Nat) : LaneSt := ((x.wg gd.val v).flagsZN v).next c

/-- Writes a saturated result with Z, N and SAT. -/
def LaneSt.putSat (x : LaneSt) (gd : GReg) (r : Int) (c : Nat) : LaneSt :=
  ((x.wg gd.val (sat32 r).1).flagsZNSat (sat32 r).1 (sat32 r).2).next c

/-- A three-register operation with the flags Z and N. -/
def State.alu3 (s : State) (l : Nat) (gd gs gt : GReg) (c : Nat) (f : Word → Word → Word) : State :=
  s.runPure l fun x => x.putZN gd (f (x.rg gs.val) (x.rg gt.val)) c

/-- A three-register operation whose exact result is limited to 32 bits. -/
def State.alu3Sat (s : State) (l : Nat) (gd gs gt : GReg) (c : Nat) (f : Word → Word → Int) : State :=
  s.runPure l fun x => x.putSat gd (f (x.rg gs.val) (x.rg gt.val)) c

/-- An operation on a register and a number with the flags Z and N. -/
def State.alu2 (s : State) (l : Nat) (gd gs : GReg) (f : Word → Word) : State :=
  s.runPure l fun x => x.putZN gd (f (x.rg gs.val)) 1

def sltW (a b : Word) : Word := if a.toInt < b.toInt then 1 else 0
def sltuW (a b : Word) : Word := if a.toNat < b.toNat then 1 else 0
def minW (a b : Word) : Word := if a.toInt ≤ b.toInt then a else b
def maxW (a b : Word) : Word := if a.toInt ≤ b.toInt then b else a
def minuW (a b : Word) : Word := if a.toNat ≤ b.toNat then a else b
def maxuW (a b : Word) : Word := if a.toNat ≤ b.toNat then b else a

/-- The number of leading zero bits of a word, 0 to 32. -/
def clzW (a : Word) : Nat := if a = 0 then 32 else 31 - a.toNat.log2

/-- Addition with Z, N, C and V. -/
def LaneSt.addFlags (x : LaneSt) (gd : GReg) (a b : Word) : LaneSt :=
  ((x.wg gd.val (a + b)).flagsZNCV (a + b) (addCarry a b) (overflow32 (a.toInt + b.toInt))).next 1

/-- The word of an instruction of format R (R67). -/
def wordR (op rd rs1 rs2 fn : Nat) : Nat := op * 2 ^ 26 + rd * 2 ^ 21 + rs1 * 2 ^ 16 + rs2 * 2 ^ 11 + fn

def execAdd (l : Lane) (gd gs gt : GReg) (s : State) : Host.Outcome State Fault Refusal :=
  done (s.runPure l fun x => x.addFlags gd (x.rg gs.val) (x.rg gt.val))

/-- C = 1 when no borrow (R70). -/
def execSub (l : Lane) (gd gs gt : GReg) (s : State) : Host.Outcome State Fault Refusal :=
  done (s.runPure l fun x =>
    let a := x.rg gs.val
    let b := x.rg gt.val
    ((x.wg gd.val (a - b)).flagsZNCV (a - b) (subNoBorrow a b) (overflow32 (a.toInt - b.toInt))).next 1)

def execAdds (l : Lane) (gd gs gt : GReg) (s : State) : Host.Outcome State Fault Refusal :=
  done (s.alu3Sat l gd gs gt 1 fun a b => a.toInt + b.toInt)

def execSubs (l : Lane) (gd gs gt : GReg) (s : State) : Host.Outcome State Fault Refusal :=
  done (s.alu3Sat l gd gs gt 1 fun a b => a.toInt - b.toInt)

def execAnd (l : Lane) (gd gs gt : GReg) (s : State) : Host.Outcome State Fault Refusal :=
  done (s.alu3 l gd gs gt 1 (· &&& ·))

def execOr (l : Lane) (gd gs gt : GReg) (s : State) : Host.Outcome State Fault Refusal :=
  done (s.alu3 l gd gs gt 1 (· ||| ·))

def execXor (l : Lane) (gd gs gt : GReg) (s : State) : Host.Outcome State Fault Refusal :=
  done (s.alu3 l gd gs gt 1 (· ^^^ ·))

def execSlt (l : Lane) (gd gs gt : GReg) (s : State) : Host.Outcome State Fault Refusal :=
  done (s.alu3 l gd gs gt 1 sltW)

def execSltu (l : Lane) (gd gs gt : GReg) (s : State) : Host.Outcome State Fault Refusal :=
  done (s.alu3 l gd gs gt 1 sltuW)

def execSll (l : Lane) (gd gs gt : GReg) (s : State) : Host.Outcome State Fault Refusal :=
  done (s.alu3 l gd gs gt 1 fun a b => a <<< (b.toNat % 32))

def execSrl (l : Lane) (gd gs gt : GReg) (s : State) : Host.Outcome State Fault Refusal :=
  done (s.alu3 l gd gs gt 1 fun a b => a >>> (b.toNat % 32))

def execSra (l : Lane) (gd gs gt : GReg) (s : State) : Host.Outcome State Fault Refusal :=
  done (s.alu3 l gd gs gt 1 fun a b => a.sshiftRight (b.toNat % 32))

def execSlli (l : Lane) (gd gs : GReg) (n : BitVec 5) (s : State) : Host.Outcome State Fault Refusal :=
  done (s.alu2 l gd gs fun a => a <<< n.toNat)

def execSrli (l : Lane) (gd gs : GReg) (n : BitVec 5) (s : State) : Host.Outcome State Fault Refusal :=
  done (s.alu2 l gd gs fun a => a >>> n.toNat)

def execSrai (l : Lane) (gd gs : GReg) (n : BitVec 5) (s : State) : Host.Outcome State Fault Refusal :=
  done (s.alu2 l gd gs fun a => a.sshiftRight n.toNat)

def execMin (l : Lane) (gd gs gt : GReg) (s : State) : Host.Outcome State Fault Refusal :=
  done (s.alu3 l gd gs gt 1 minW)

def execMax (l : Lane) (gd gs gt : GReg) (s : State) : Host.Outcome State Fault Refusal :=
  done (s.alu3 l gd gs gt 1 maxW)

def execMinu (l : Lane) (gd gs gt : GReg) (s : State) : Host.Outcome State Fault Refusal :=
  done (s.alu3 l gd gs gt 1 minuW)

def execMaxu (l : Lane) (gd gs gt : GReg) (s : State) : Host.Outcome State Fault Refusal :=
  done (s.alu3 l gd gs gt 1 maxuW)

/-- 0x8000_0000 gives itself and V = 1 (R70). -/
def execAbs (l : Lane) (gd gs : GReg) (s : State) : Host.Outcome State Fault Refusal :=
  done (s.runPure l fun x =>
    let a := x.rg gs.val
    let v := if a.msb then -a else a
    ((x.wg gd.val v).flagsZNV v (a == 0x80000000#32)).next 1)

def execAbss (l : Lane) (gd gs : GReg) (s : State) : Host.Outcome State Fault Refusal :=
  done (s.runPure l fun x => x.putSat gd (x.rg gs.val).toInt.natAbs 1)

/-- 0x8000_0000 gives itself and V = 1 (R70). -/
def execNeg (l : Lane) (gd gs : GReg) (s : State) : Host.Outcome State Fault Refusal :=
  done (s.runPure l fun x =>
    let a := x.rg gs.val
    ((x.wg gd.val (-a)).flagsZNV (-a) (a == 0x80000000#32)).next 1)

def execNegs (l : Lane) (gd gs : GReg) (s : State) : Host.Outcome State Fault Refusal :=
  done (s.runPure l fun x => x.putSat gd (-(x.rg gs.val).toInt) 1)

/-- Only Z is written (R70). -/
def execClz (l : Lane) (gd gs : GReg) (s : State) : Host.Outcome State Fault Refusal :=
  done (s.runPure l fun x =>
    let v := BitVec.ofNat 32 (clzW (x.rg gs.val))
    { x.wg gd.val v with sw := swZ x.sw (v == 0) }.next 1)

def execShls (l : Lane) (gd gs gt : GReg) (s : State) : Host.Outcome State Fault Refusal :=
  done (s.alu3Sat l gd gs gt 1 fun a b => a.toInt * (2 ^ (b.toNat % 32) : Nat))

/-- A bit-field instruction: lsb + len above 32 makes the word illegal (R70). -/
def State.bitField (s : State) (l : Nat) (gd gs : GReg) (lsb lenM1 : BitVec 5) (fn : Nat)
    (f : Word → Word → Nat → Nat → Word) : State :=
  let len := lenM1.toNat + 1
  s.runPure l fun x =>
    if 32 < lsb.toNat + len then
      x.trap s.img.trapvec tcIllegal (BitVec.ofNat 32 (wordR 0 gd.val gs.val lsb.toNat (fn + 32 * lenM1.toNat))) 1
    else x.putZN gd (f (x.rg gd.val) (x.rg gs.val) lsb.toNat len) 1

def extuW (_ a : Word) (lsb len : Nat) : Word := BitVec.ofNat 32 (bitsOf a.toNat lsb len)
def extsW (_ a : Word) (lsb len : Nat) : Word := wordOfInt (sgn len (bitsOf a.toNat lsb len))
def insW (d a : Word) (lsb len : Nat) : Word := BitVec.ofNat 32 (setBits d.toNat lsb len a.toNat)

def execExtu (l : Lane) (gd gs : GReg) (lsb lenM1 : BitVec 5) (s : State) : Host.Outcome State Fault Refusal :=
  done (s.bitField l gd gs lsb lenM1 0x400 extuW)

def execExts (l : Lane) (gd gs : GReg) (lsb lenM1 : BitVec 5) (s : State) : Host.Outcome State Fault Refusal :=
  done (s.bitField l gd gs lsb lenM1 0x401 extsW)

def execIns (l : Lane) (gd gs : GReg) (lsb lenM1 : BitVec 5) (s : State) : Host.Outcome State Fault Refusal :=
  done (s.bitField l gd gs lsb lenM1 0x402 insW)

/-- CLAMP and CLAMPU: gh wins when gl > gh; CL is set when the operand changes (R70, R63). -/
def State.clampOp (s : State) (l : Nat) (gd gs gl gh : GReg) (mx mn : Word → Word → Word) : State :=
  s.runPure l fun x =>
    let a := x.rg gs.val
    let v := mn (mx a (x.rg gl.val)) (x.rg gh.val)
    let y := (x.wg gd.val v).flagsZN v
    { y with sw := swCl y.sw (v != a) }.next 1

def execClamp (l : Lane) (gd gs gl gh : GReg) (s : State) : Host.Outcome State Fault Refusal :=
  done (s.clampOp l gd gs gl gh maxW minW)

def execClampu (l : Lane) (gd gs gl gh : GReg) (s : State) : Host.Outcome State Fault Refusal :=
  done (s.clampOp l gd gs gl gh maxuW minuW)

def execAddi (l : Lane) (gd gs : GReg) (imm : BitVec 16) (s : State) : Host.Outcome State Fault Refusal :=
  done (s.runPure l fun x => x.addFlags gd (x.rg gs.val) (sext16 imm))

def execAddis (l : Lane) (gd gs : GReg) (imm : BitVec 16) (s : State) : Host.Outcome State Fault Refusal :=
  done (s.runPure l fun x => x.putSat gd ((x.rg gs.val).toInt + (sext16 imm).toInt) 1)

def execSlti (l : Lane) (gd gs : GReg) (imm : BitVec 16) (s : State) : Host.Outcome State Fault Refusal :=
  done (s.alu2 l gd gs fun a => sltW a (sext16 imm))

def execSltiu (l : Lane) (gd gs : GReg) (imm : BitVec 16) (s : State) : Host.Outcome State Fault Refusal :=
  done (s.alu2 l gd gs fun a => sltuW a (sext16 imm))

def execAndi (l : Lane) (gd gs : GReg) (imm : BitVec 16) (s : State) : Host.Outcome State Fault Refusal :=
  done (s.alu2 l gd gs fun a => a &&& zext16 imm)

def execOri (l : Lane) (gd gs : GReg) (imm : BitVec 16) (s : State) : Host.Outcome State Fault Refusal :=
  done (s.alu2 l gd gs fun a => a ||| zext16 imm)

def execXori (l : Lane) (gd gs : GReg) (imm : BitVec 16) (s : State) : Host.Outcome State Fault Refusal :=
  done (s.alu2 l gd gs fun a => a ^^^ zext16 imm)

def execLui (l : Lane) (gd : GReg) (imm : BitVec 16) (s : State) : Host.Outcome State Fault Refusal :=
  done (s.runPure l fun x => x.putZN gd (zext16 imm <<< 16) 1)

end Sys2Proof.Machine
end

