-- ==== Sys2Proof/Machine/Encode.lean ====
section
/-! DEFINITION. Which instruction words are legal (R67 to R69): the assigned OP and FN codes and the fields that must be 0. -/

namespace Sys2Proof.Machine

/-- Legal words of OP 0x00 by FN, rs2 field (R70, R71). -/
def legalOp0 (rs2 fn : Nat) : Bool :=
  if fn < 0x400 then
    (1 ≤ fn && fn ≤ 0x13) || (0x14 ≤ fn && fn ≤ 0x18 && rs2 == 0) || (0x19 ≤ fn && fn ≤ 0x21)
  else fn % 32 ≤ 2 && rs2 + (fn - 0x400) / 32 + 1 ≤ 32

/-- Legal words of OP 0x01 by fields (R68, R73). -/
def legalOp1 (rd rs1 rs2 fn : Nat) : Bool :=
  if 1 ≤ fn && fn ≤ 6 then rd < 4
  else if 8 ≤ fn && fn ≤ 0xB then rd < 4 && rs2 == 0
  else if 0xC ≤ fn && fn ≤ 0xF then rs1 < 4 && rs2 == 0
  else if fn == 0x10 then rd < 4 && rs1 == 0 && rs2 == 0
  else if fn == 0x11 || fn == 0x12 then rd < 4 && rs1 < 4 && rs2 == 0
  else if fn == 0x13 || fn == 0x14 then rd < 4 && rs1 == 0
  else if fn == 0x15 then rd < 4
  else false

/-- Legal words of OP 0x02 by fields (R79, R84, R86, R89, R93, R95). -/
def legalOp2 (rd rs1 rs2 fn : Nat) : Bool :=
  if 1 ≤ fn && fn ≤ 5 then rd == 0 && rs1 == 0 && rs2 == 0
  else if fn == 6 then true
  else if 8 ≤ fn && fn ≤ 0xA then rs1 == 0 && rs2 == 0
  else if fn == 0x10 || fn == 0x11 then rd == 0
  else if fn == 0x12 || fn == 0x1A || fn == 0x1C then rs2 == 0
  else if fn == 0x18 || fn == 0x19 || fn == 0x418 || fn == 0x419 then rs1 == 0 && rs2 == 0
  else if fn == 0x20 then rd == 0 && rs1 == 0
  else if fn == 0x21 || fn == 0x23 || fn == 0x24 then rs1 == 0 && rs2 == 0
  else if fn == 0x22 then rd == 0 && rs2 == 0
  else false

/-- Whether an instruction word is legal (R69). -/
def legalWord (w : Word) : Bool :=
  let n := w.toNat
  let op := n / 2 ^ 26
  let rd := bitsOf n 21 5
  let rs1 := bitsOf n 16 5
  let rs2 := bitsOf n 11 5
  let fn := bitsOf n 0 11
  if op == 0 then legalOp0 rs2 fn
  else if op == 1 then legalOp1 rd rs1 rs2 fn
  else if op == 2 then legalOp2 rd rs1 rs2 fn
  else if op == 3 then bitsOf n 1 5 == 0
  else if 8 ≤ op && op ≤ 0xE then true
  else if op == 0xF then rs1 == 0
  else (0x10 ≤ op && op ≤ 0x15) || (0x18 ≤ op && op ≤ 0x1A) || (0x20 ≤ op && op ≤ 0x25) || (0x28 ≤ op && op ≤ 0x2A)

/-- A word is fetched from IRAM through ECC (R27): a double-bit error ends the lane's tide, a corrected single-bit error is counted. An
illegal word then traps with ILLEGAL (R69, R96); one that the encoding tables assign is executed by its own row (assumption 28). -/
def execIllegalWord (l : Lane) (w : Through Word) (s : State) : Host.Outcome State Fault Refusal :=
  done (s.runLane l fun x s =>
    s.readEcc l x.pc 0 w.ecc fun s =>
      if legalWord w.what then s else s.onLane l fun x => x.trap s.img.trapvec tcIllegal w.what 1)

end Sys2Proof.Machine
end

