-- ==== Sys2Proof/Decode.lean ====
section
/-! DEFINITION. Decoding of table words and of instruction words. The opcode table of this part gives no row any bits (its rows are
commands), so no table word spells a command. The words of the lane instructions have the encodings of chapter 02 (R67 to R95):
`laneInstr` reads an instruction from a word and `laneWord` is the encoder, written from the same tables. -/

namespace Sys2Proof

/-- The command that the table's bits spell: none, since the table gives no row bits. -/
def decodeTableWord (_nbits _w : Nat) : Option Instr := none

open Machine

/-- What comes from outside with an instruction: the ECC condition of its read, the instant and fraction of live time, the wait. -/
structure LaneIn where
  ecc : Ecc
  t : Nat
  frac : Nat
  waitNs : Nat
  deriving DecidableEq, Repr

/-- The fields of an instruction word (R67): the five-bit fields from bits 25, 20, 15 and 10 down, FN, imm16 and off26. -/
def fieldOf (w : Word) (lo n : Nat) : Nat := bitsOf w.toNat lo n

def regAt (w : Word) (lo : Nat) : GReg := Fin.ofNat 32 (fieldOf w lo 5)

def accAt (w : Word) (lo : Nat) : AReg := Fin.ofNat 4 (fieldOf w lo 5)

def numAt (w : Word) (lo : Nat) : BitVec 5 := BitVec.ofNat 5 (fieldOf w lo 5)

def immOf (w : Word) : BitVec 16 := BitVec.ofNat 16 (fieldOf w 0 16)

def offOf (w : Word) : BitVec 26 := BitVec.ofNat 26 (fieldOf w 0 26)

/-- Bit-field instructions of OP 0x00: lsb in rs2, FN = 0x400 + 32 × (len − 1) + kind (R70). -/
def bitFieldForm (l : Lane) (w : Word) (fn : Nat) : Option Instr :=
  let d := regAt w 21
  let s := regAt w 16
  let lsb := numAt w 11
  let len := BitVec.ofNat 5 ((fn - 0x400) / 32)
  match fn % 32 with
  | 0 => some (.extu l d s lsb len)
  | 1 => some (.exts l d s lsb len)
  | 2 => some (.ins l d s lsb len)
  | _ => none

/-- Integer instructions of OP 0x00 by FN (R70, R71). -/
def op0Form (l : Lane) (w : Word) (fn : Nat) : Option Instr :=
  let d := regAt w 21
  let s := regAt w 16
  let t := regAt w 11
  let n := numAt w 11
  match fn with
  | 0x01 => some (.add l d s t)
  | 0x02 => some (.sub l d s t)
  | 0x03 => some (.adds l d s t)
  | 0x04 => some (.subs l d s t)
  | 0x05 => some (.and l d s t)
  | 0x06 => some (.or l d s t)
  | 0x07 => some (.xor l d s t)
  | 0x08 => some (.slt l d s t)
  | 0x09 => some (.sltu l d s t)
  | 0x0A => some (.sll l d s t)
  | 0x0B => some (.srl l d s t)
  | 0x0C => some (.sra l d s t)
  | 0x0D => some (.slli l d s n)
  | 0x0E => some (.srli l d s n)
  | 0x0F => some (.srai l d s n)
  | 0x10 => some (.min l d s t)
  | 0x11 => some (.max l d s t)
  | 0x12 => some (.minu l d s t)
  | 0x13 => some (.maxu l d s t)
  | 0x14 => some (.abs l d s)
  | 0x15 => some (.abss l d s)
  | 0x16 => some (.neg l d s)
  | 0x17 => some (.negs l d s)
  | 0x18 => some (.clz l d s)
  | 0x19 => some (.mul l d s t)
  | 0x1A => some (.mulh l d s t)
  | 0x1B => some (.mulhu l d s t)
  | 0x1C => some (.mulq31 l d s t)
  | 0x1D => some (.div l d s t)
  | 0x1E => some (.divu l d s t)
  | 0x1F => some (.rem l d s t)
  | 0x20 => some (.remu l d s t)
  | 0x21 => some (.shls l d s t)
  | _ => none

/-- Accumulator instructions of OP 0x01 by FN (R68, R73). -/
def op1Form (l : Lane) (w : Word) (fn : Nat) : Option Instr :=
  let s := regAt w 16
  let t := regAt w 11
  match fn with
  | 0x01 => some (.mac l (accAt w 21) s t)
  | 0x02 => some (.msu l (accAt w 21) s t)
  | 0x03 => some (.macq15 l (accAt w 21) s t)
  | 0x04 => some (.msuq15 l (accAt w 21) s t)
  | 0x05 => some (.macq31 l (accAt w 21) s t)
  | 0x06 => some (.msuq31 l (accAt w 21) s t)
  | 0x08 => some (.mta l (accAt w 21) s)
  | 0x09 => some (.mtai l (accAt w 21) s)
  | 0x0A => some (.mtah l (accAt w 21) s)
  | 0x0B => some (.mtal l (accAt w 21) s)
  | 0x0C => some (.mfa l (regAt w 21) (accAt w 16))
  | 0x0D => some (.mfai l (regAt w 21) (accAt w 16))
  | 0x0E => some (.mfah l (regAt w 21) (accAt w 16))
  | 0x0F => some (.mfal l (regAt w 21) (accAt w 16))
  | 0x10 => some (.clra l (accAt w 21))
  | 0x11 => some (.adda l (accAt w 21) (accAt w 16))
  | 0x12 => some (.suba l (accAt w 21) (accAt w 16))
  | 0x13 => some (.shra l (accAt w 21) (numAt w 11))
  | 0x14 => some (.shla l (accAt w 21) (numAt w 11))
  | 0x15 => some (.clampa l (accAt w 21) s t)
  | _ => none

/-- Group, event, ring, time, fold and status instructions of OP 0x02 by FN (R79, R84, R86, R89, R93, R95). -/
def op2Form (l : Lane) (x : LaneIn) (w : Word) (fn : Nat) : Option Instr :=
  let d := regAt w 21
  let s := regAt w 16
  let t := regAt w 11
  match fn with
  | 0x01 => some (.tbegin l)
  | 0x02 => some (.tcommit l)
  | 0x03 => some (.tcommitE l)
  | 0x04 => some (.tabort l)
  | 0x05 => some (.tabortE l)
  | 0x06 => some (.tstage l s t d)
  | 0x08 => some (.bell l d x.t x.waitNs)
  | 0x09 => some (.evnext l d)
  | 0x0A => some (.evstamp l d)
  | 0x10 => some (.rpush l s ⟨t, x.ecc⟩)
  | 0x11 => some (.rpop l s t x.ecc)
  | 0x12 => some (.rcnt l d s)
  | 0x18 => some (.tnow l d)
  | 0x418 => some (.tnowL l d x.t x.frac x.waitNs)
  | 0x19 => some (.tshort l d)
  | 0x419 => some (.tshortL l d x.t x.waitNs)
  | 0x1A => some (.text l d s)
  | 0x1C => some (.vfold l d s ⟨x.t, x.waitNs⟩)
  | 0x20 => some (.trap l (numAt w 11))
  | 0x21 => some (.rdsw l d)
  | 0x22 => some (.wrsw l s)
  | 0x23 => some (.rdtp l d)
  | 0x24 => some (.rdtv l d)
  | _ => none

/-- The instruction of a word whose fields are taken as they stand: OP, then FN where OP has one (R67). -/
def laneForm (l : Lane) (x : LaneIn) (w : Word) : Option Instr :=
  let d := regAt w 21
  let s := regAt w 16
  let i := immOf w
  let fn := fieldOf w 0 11
  match fieldOf w 26 6 with
  | 0x00 => if fn < 0x400 then op0Form l w fn else bitFieldForm l w fn
  | 0x01 => op1Form l w fn
  | 0x02 => op2Form l x w fn
  | 0x03 => if fieldOf w 0 1 = 0 then some (.clamp l d s (regAt w 11) (regAt w 6)) else some (.clampu l d s (regAt w 11) (regAt w 6))
  | 0x08 => some (.addi l d s i)
  | 0x09 => some (.addis l d s i)
  | 0x0A => some (.slti l d s i)
  | 0x0B => some (.sltiu l d s i)
  | 0x0C => some (.andi l d s i)
  | 0x0D => some (.ori l d s i)
  | 0x0E => some (.xori l d s i)
  | 0x0F => some (.lui l d i)
  | 0x10 => some (.lw l d s i x.ecc)
  | 0x11 => some (.lh l d s i x.ecc)
  | 0x12 => some (.lhu l d s i x.ecc)
  | 0x13 => some (.lb l d s i x.ecc)
  | 0x14 => some (.lbu l d s i x.ecc)
  | 0x15 => some (.live l d s i ⟨x.t, x.waitNs⟩)
  | 0x18 => some (.sw l d s i)
  | 0x19 => some (.sh l d s i)
  | 0x1A => some (.sb l d s i)
  | 0x20 => some (.beq l d s i)
  | 0x21 => some (.bne l d s i)
  | 0x22 => some (.blt l d s i)
  | 0x23 => some (.bge l d s i)
  | 0x24 => some (.bltu l d s i)
  | 0x25 => some (.bgeu l d s i)
  | 0x28 => some (.j l (offOf w))
  | 0x29 => some (.jal l (offOf w))
  | 0x2A => some (.jalr l d s i)
  | _ => none

/-- The instruction that lane `l` reads from a word; none for an illegal word (R67 to R69). -/
def laneInstr (l : Lane) (x : LaneIn) (w : Word) : Option Instr := if legalWord w then laneForm l x w else none

/-- The word of an instruction of format I, S or B (R67). -/
def wordI (op rd rs1 : Nat) (i : BitVec 16) : Nat := op * 2 ^ 26 + rd * 2 ^ 21 + rs1 * 2 ^ 16 + i.toNat

/-- The number that encodes a lane instruction; none for the other commands. -/
def laneNum : Instr → Option Nat
  | .add _ d s t => some (wordR 0 d s t 0x01)
  | .sub _ d s t => some (wordR 0 d s t 0x02)
  | .adds _ d s t => some (wordR 0 d s t 0x03)
  | .subs _ d s t => some (wordR 0 d s t 0x04)
  | .and _ d s t => some (wordR 0 d s t 0x05)
  | .or _ d s t => some (wordR 0 d s t 0x06)
  | .xor _ d s t => some (wordR 0 d s t 0x07)
  | .slt _ d s t => some (wordR 0 d s t 0x08)
  | .sltu _ d s t => some (wordR 0 d s t 0x09)
  | .sll _ d s t => some (wordR 0 d s t 0x0A)
  | .srl _ d s t => some (wordR 0 d s t 0x0B)
  | .sra _ d s t => some (wordR 0 d s t 0x0C)
  | .slli _ d s n => some (wordR 0 d s n.toNat 0x0D)
  | .srli _ d s n => some (wordR 0 d s n.toNat 0x0E)
  | .srai _ d s n => some (wordR 0 d s n.toNat 0x0F)
  | .min _ d s t => some (wordR 0 d s t 0x10)
  | .max _ d s t => some (wordR 0 d s t 0x11)
  | .minu _ d s t => some (wordR 0 d s t 0x12)
  | .maxu _ d s t => some (wordR 0 d s t 0x13)
  | .abs _ d s => some (wordR 0 d s 0 0x14)
  | .abss _ d s => some (wordR 0 d s 0 0x15)
  | .neg _ d s => some (wordR 0 d s 0 0x16)
  | .negs _ d s => some (wordR 0 d s 0 0x17)
  | .clz _ d s => some (wordR 0 d s 0 0x18)
  | .mul _ d s t => some (wordR 0 d s t 0x19)
  | .mulh _ d s t => some (wordR 0 d s t 0x1A)
  | .mulhu _ d s t => some (wordR 0 d s t 0x1B)
  | .mulq31 _ d s t => some (wordR 0 d s t 0x1C)
  | .div _ d s t => some (wordR 0 d s t 0x1D)
  | .divu _ d s t => some (wordR 0 d s t 0x1E)
  | .rem _ d s t => some (wordR 0 d s t 0x1F)
  | .remu _ d s t => some (wordR 0 d s t 0x20)
  | .shls _ d s t => some (wordR 0 d s t 0x21)
  | .extu _ d s lsb len => some (wordR 0 d s lsb.toNat (0x400 + 32 * len.toNat))
  | .exts _ d s lsb len => some (wordR 0 d s lsb.toNat (0x401 + 32 * len.toNat))
  | .ins _ d s lsb len => some (wordR 0 d s lsb.toNat (0x402 + 32 * len.toNat))
  | .clamp _ d s lo hi => some (wordR 3 d s lo (64 * hi.val))
  | .clampu _ d s lo hi => some (wordR 3 d s lo (64 * hi.val + 1))
  | .addi _ d s i => some (wordI 0x08 d s i)
  | .addis _ d s i => some (wordI 0x09 d s i)
  | .slti _ d s i => some (wordI 0x0A d s i)
  | .sltiu _ d s i => some (wordI 0x0B d s i)
  | .andi _ d s i => some (wordI 0x0C d s i)
  | .ori _ d s i => some (wordI 0x0D d s i)
  | .xori _ d s i => some (wordI 0x0E d s i)
  | .lui _ d i => some (wordI 0x0F d 0 i)
  | .mac _ a s t => some (wordR 1 a s t 0x01)
  | .msu _ a s t => some (wordR 1 a s t 0x02)
  | .macq15 _ a s t => some (wordR 1 a s t 0x03)
  | .msuq15 _ a s t => some (wordR 1 a s t 0x04)
  | .macq31 _ a s t => some (wordR 1 a s t 0x05)
  | .msuq31 _ a s t => some (wordR 1 a s t 0x06)
  | .mta _ a s => some (wordR 1 a s 0 0x08)
  | .mtai _ a s => some (wordR 1 a s 0 0x09)
  | .mtah _ a s => some (wordR 1 a s 0 0x0A)
  | .mtal _ a s => some (wordR 1 a s 0 0x0B)
  | .mfa _ d a => some (wordR 1 d a 0 0x0C)
  | .mfai _ d a => some (wordR 1 d a 0 0x0D)
  | .mfah _ d a => some (wordR 1 d a 0 0x0E)
  | .mfal _ d a => some (wordR 1 d a 0 0x0F)
  | .clra _ a => some (wordR 1 a 0 0 0x10)
  | .adda _ a b => some (wordR 1 a b 0 0x11)
  | .suba _ a b => some (wordR 1 a b 0 0x12)
  | .shra _ a n => some (wordR 1 a 0 n.toNat 0x13)
  | .shla _ a n => some (wordR 1 a 0 n.toNat 0x14)
  | .clampa _ a lo hi => some (wordR 1 a lo hi 0x15)
  | .lw _ d b i _ => some (wordI 0x10 d b i)
  | .lh _ d b i _ => some (wordI 0x11 d b i)
  | .lhu _ d b i _ => some (wordI 0x12 d b i)
  | .lb _ d b i _ => some (wordI 0x13 d b i)
  | .lbu _ d b i _ => some (wordI 0x14 d b i)
  | .live _ d b i _ => some (wordI 0x15 d b i)
  | .sw _ s b i => some (wordI 0x18 s b i)
  | .sh _ s b i => some (wordI 0x19 s b i)
  | .sb _ s b i => some (wordI 0x1A s b i)
  | .beq _ s t i => some (wordI 0x20 s t i)
  | .bne _ s t i => some (wordI 0x21 s t i)
  | .blt _ s t i => some (wordI 0x22 s t i)
  | .bge _ s t i => some (wordI 0x23 s t i)
  | .bltu _ s t i => some (wordI 0x24 s t i)
  | .bgeu _ s t i => some (wordI 0x25 s t i)
  | .j _ i => some (0x28 * 2 ^ 26 + i.toNat)
  | .jal _ i => some (0x29 * 2 ^ 26 + i.toNat)
  | .jalr _ d b i => some (wordI 0x2A d b i)
  | .tbegin _ => some (wordR 2 0 0 0 0x01)
  | .tcommit _ => some (wordR 2 0 0 0 0x02)
  | .tcommitE _ => some (wordR 2 0 0 0 0x03)
  | .tabort _ => some (wordR 2 0 0 0 0x04)
  | .tabortE _ => some (wordR 2 0 0 0 0x05)
  | .tstage _ a v m => some (wordR 2 m a v 0x06)
  | .bell _ d _ _ => some (wordR 2 d 0 0 0x08)
  | .evnext _ d => some (wordR 2 d 0 0 0x09)
  | .evstamp _ d => some (wordR 2 d 0 0 0x0A)
  | .rpush _ r p => some (wordR 2 0 r p.what 0x10)
  | .rpop _ r p _ => some (wordR 2 0 r p 0x11)
  | .rcnt _ d r => some (wordR 2 d r 0 0x12)
  | .tnow _ d => some (wordR 2 d 0 0 0x18)
  | .tnowL _ d _ _ _ => some (wordR 2 d 0 0 0x418)
  | .tshort _ d => some (wordR 2 d 0 0 0x19)
  | .tshortL _ d _ _ => some (wordR 2 d 0 0 0x419)
  | .text _ d s => some (wordR 2 d s 0 0x1A)
  | .vfold _ d s _ => some (wordR 2 d s 0 0x1C)
  | .trap _ n => some (wordR 2 0 0 n.toNat 0x20)
  | .rdsw _ d => some (wordR 2 d 0 0 0x21)
  | .wrsw _ s => some (wordR 2 0 s 0 0x22)
  | .rdtp _ d => some (wordR 2 d 0 0 0x23)
  | .rdtv _ d => some (wordR 2 d 0 0 0x24)
  | _ => none

/-- The word of a lane instruction. -/
def laneWord (i : Instr) : Option Word := (laneNum i).map (BitVec.ofNat 32)

end Sys2Proof
end

