-- ==== Sys2Proof/Machine/Crypto.lean ====
section
/-! DEFINITION. The checks that the manual takes from published standards: SHA-256 (R104, R122, R477), ECDSA P-256 (R104,
R107), and the cyclic redundancy checks of frames, records and lines (R148, R191, R328, R367 and others). -/

namespace Sys2Proof.Machine

/-! ### SHA-256

The working words are held as the last four values of each of the two chains that a round extends (FIPS 180-4: `a` to `d` and `e` to
`h`), and the constants packed eight to a number, so that a word of either is read by its place. -/

/-- The round constants, eight 32-bit words in each number, the first one highest. -/
def shaConst : List Nat :=
  [0x428a2f9871374491b5c0fbcfe9b5dba53956c25b59f111f1923f82a4ab1c5ed5,
   0xd807aa9812835b01243185be550c7dc372be5d7480deb1fe9bdc06a7c19bf174,
   0xe49b69c1efbe47860fc19dc6240ca1cc2de92c6f4a7484aa5cb0a9dc76f988da,
   0x983e5152a831c66db00327c8bf597fc7c6e00bf3d5a7914706ca635114292967]
  ++ [0x27b70a852e1b21384d2c6dfc53380d13650a7354766a0abb81c2c92e92722c85,
   0xa2bfe8a1a81a664bc24b8b70c76c51a3d192e819d6990624f40e3585106aa070,
   0x19a4c1161e376c082748774c34b0bcb5391c0cb34ed8aa4a5b9cca4f682e6ff3,
   0x748f82ee78a5636f84c878148cc7020890befffaa4506cebbef9a3f7c67178f2]

/-- Word `i`, counted from the highest, of a number of eight words. -/
def octWord (n i : Nat) : Word := BitVec.ofNat 32 (n / 2 ^ (32 * (7 - i)))

/-- The constant of round `i`. -/
def shaKey (i : Nat) : Word := octWord (shaConst.getD (i / 8) 0) (i % 8)

/-- Four 32-bit words, the newest first. -/
structure Four where
  w0 : Word
  w1 : Word
  w2 : Word
  w3 : Word
  deriving DecidableEq, Repr

/-- A new word enters. -/
def Four.push (q : Four) (w : Word) : Four := ⟨w, q.w0, q.w1, q.w2⟩

def Four.add (p q : Four) : Four := ⟨p.w0 + q.w0, p.w1 + q.w1, p.w2 + q.w2, p.w3 + q.w3⟩

/-- The four words as a number, the newest highest. -/
def Four.num (q : Four) : Nat := ((q.w0.toNat * 2 ^ 32 + q.w1.toNat) * 2 ^ 32 + q.w2.toNat) * 2 ^ 32 + q.w3.toNat

/-- The sum modulo 2 of the rotations of a word by three counts. -/
def rot3 (x : Word) (i j k : Nat) : Word := x.rotateRight i ^^^ x.rotateRight j ^^^ x.rotateRight k

/-- Round `i` with schedule word `w`: both chains take one new word. -/
def shaStep (i : Nat) (w : Word) (s : Four × Four) : Four × Four :=
  let p := s.1
  let q := s.2
  let pick := q.w2 ^^^ (q.w0 &&& (q.w1 ^^^ q.w2))
  let most := (p.w0 &&& p.w1) ||| (p.w2 &&& (p.w0 ||| p.w1))
  let t := q.w3 + rot3 q.w0 6 11 25 + pick + shaKey i + w
  (p.push (t + rot3 p.w0 2 13 22 + most), q.push (p.w3 + t))

/-- Rounds `i` on, `n` of them: `ws` holds the sixteen schedule words from round `i` on. -/
def shaRun : Nat → Nat → List Word → Four × Four → Four × Four
  | 0, _, _, s => s
  | n + 1, i, ws, s =>
    let x := ws.getD 1 0
    let y := ws.getD 14 0
    let next := ws.headD 0 + (x.rotateRight 7 ^^^ x.rotateRight 18 ^^^ (x >>> 3)) + ws.getD 9 0 +
      (y.rotateRight 17 ^^^ y.rotateRight 19 ^^^ (y >>> 10))
    shaRun n (i + 1) (ws.tail ++ [next]) (shaStep i (ws.headD 0) s)

/-- The `n` big-endian words that a byte string begins with. -/
def beWords : Nat → List Byte → List Word
  | 0, _ => []
  | n + 1, bs => BitVec.ofNat 32 (beNat (bs.take 4)) :: beWords n (bs.drop 4)

/-- One block of 64 bytes. -/
def shaBlock (s : Four × Four) (blk : List Byte) : Four × Four :=
  let t := shaRun 64 0 (beWords 16 blk) s
  (s.1.add t.1, s.2.add t.2)

/-- The first `n` blocks of a byte string. -/
def shaBlocks : Nat → List Byte → Four × Four → Four × Four
  | 0, _, s => s
  | n + 1, bs, s => shaBlocks n (bs.drop 64) (shaBlock s (bs.take 64))

/-- The start value, packed as the constants are. -/
def shaStart : Nat := 0x6a09e667bb67ae853c6ef372a54ff53a510e527f9b05688c1f83d9ab5be0cd19

/-- SHA-256 of a byte string, as a 256-bit big-endian number. -/
def sha256 (bs : List Byte) : Nat :=
  let pad := 0x80 :: List.replicate ((119 - bs.length % 64) % 64) 0 ++ beBytes 8 (bs.length * 8)
  let h := octWord shaStart
  let t := shaBlocks ((bs.length + pad.length) / 64) (bs ++ pad) (⟨h 0, h 1, h 2, h 3⟩, ⟨h 4, h 5, h 6, h 7⟩)
  t.1.num * 2 ^ 128 + t.2.num

/-! ### Cyclic redundancy checks, bit-reflected -/

def crcBits (poly : Nat) : Nat → Nat → Nat
  | 0, c => c
  | n + 1, c => crcBits poly n (if c % 2 = 1 then (c / 2) ^^^ poly else c / 2)

/-- A reflected CRC with polynomial `poly` from start value `init`, without the final inversion. -/
def crcGo (poly init : Nat) (bs : List Byte) : Nat :=
  bs.foldl (fun c b => crcBits poly 8 (c ^^^ b.toNat)) init

/-- CRC-32C (Castagnoli): reflected, start and final value all ones. -/
def crc32c (bs : List Byte) : Nat := crcGo 0x82F63B78 0xFFFFFFFF bs ^^^ 0xFFFFFFFF

/-- CRC-32 of IEEE 802.3: reflected, start and final value all ones. -/
def crc32 (bs : List Byte) : Nat := crcGo 0xEDB88320 0xFFFFFFFF bs ^^^ 0xFFFFFFFF

/-! ### ECDSA on curve P-256 -/

def p256P : Nat := 0xffffffff00000001000000000000000000000000ffffffffffffffffffffffff
def p256N : Nat := 0xffffffff00000000ffffffffffffffffbce6faada7179e84f3b9cac2fc632551
def p256B : Nat := 0x5ac635d8aa3a93e7b3ebbd55769886bc651d06b0cc53b0f63bce3c3e27d2604b
def p256Gx : Nat := 0x6b17d1f2e12c4247f8bce6e563a440f277037d812deb33a0f4a13945d898c296
def p256Gy : Nat := 0x4fe342e2fe1a7f9b8ee7eb4a7c0f9e162bce33576b315ececbb6406837bf51f5

/-- Modular power by squaring, over the low `n` bits of the exponent. -/
def powMod : Nat → Nat → Nat → Nat → Nat
  | 0, _, _, _ => 1
  | n + 1, m, b, e => (if e % 2 = 1 then b else 1) * powMod n m (b * b % m) (e / 2) % m

/-- The inverse modulo a prime below 2^256. -/
def invMod (m x : Nat) : Nat := powMod 256 m (x % m) (m - 2)

/-- Addition of points of P-256; `none` is the point at infinity. -/
def ecAdd (a b : Option (Nat × Nat)) : Option (Nat × Nat) :=
  match a, b with
  | none, q => q
  | q, none => q
  | some (x1, y1), some (x2, y2) =>
    let p := p256P
    if x1 = x2 ∧ (y1 + y2) % p = 0 then none
    else
      let lam := if x1 = x2 ∧ y1 = y2
        then (3 * x1 * x1 + (p - 3)) * invMod p (2 * y1) % p
        else (y2 + p - y1) * invMod p (x2 + p - x1) % p
      let x3 := (lam * lam + 2 * p - x1 - x2) % p
      some (x3, (lam * (x1 + p - x3) + p - y1) % p)

/-- Multiple of a point, over the low `n` bits of the scalar. -/
def ecMul : Nat → Nat → Option (Nat × Nat) → Option (Nat × Nat)
  | 0, _, _ => none
  | n + 1, k, q => ecAdd (if k % 2 = 1 then q else none) (ecMul n (k / 2) (ecAdd q q))

/-- Whether a signature (r, s) over the hash `z` verifies with the public key (x, y). -/
def ecdsaVerify (x y r s z : Nat) : Bool :=
  let p := p256P
  let n := p256N
  if decide (x < p) && decide (y < p) && decide (0 < r) && decide (r < n) && decide (0 < s) && decide (s < n)
      && (y * y % p == (x * x * x + (p - 3) * x + p256B) % p) then
    let w := invMod n s
    match ecAdd (ecMul 256 (z * w % n) (some (p256Gx, p256Gy))) (ecMul 256 (r * w % n) (some (x, y))) with
    | none => false
    | some (vx, _) => vx % n == r
  else false

end Sys2Proof.Machine
end

