-- ==== Sys2Proof/Machine/Pos.lean ====
section
/-! DEFINITION. POS inputs (R159 to R172): encoder edges, losses, index captures, SSI frames and daymark edges; the history
(R158) and the ring entries (R199). -/

namespace Sys2Proof.Machine

def State.onPos (s : State) (f : PosSt → PosSt) : State := { s with pos := f s.pos }

def State.enc (s : State) (n : Nat) : EncSt := mget (fun _ => EncSt.reset) s.pos.enc n
def State.setEnc (s : State) (n : Nat) (e : EncSt) : State :=
  s.onPos fun p => { p with enc := mput (fun _ => EncSt.reset) p.enc n e }
def State.ssi (s : State) (m : Nat) : SsiSt := mget (fun _ => SsiSt.reset) s.pos.ssi m
def State.setSsi (s : State) (m : Nat) (e : SsiSt) : State :=
  s.onPos fun p => { p with ssi := mput (fun _ => SsiSt.reset) p.ssi m e }

/-- The count of an encoder input, 48-bit signed (R165). -/
def State.encCnt (s : State) (n : Nat) : Int := s.pos48 (POS.ENC_CNT_LO n)

/-- Adds to a count, wrapping modulo 2^48, and judges the turn of DIR with its hysteresis (R164, R165). -/
def State.encAdd (s : State) (n : Nat) (d : Int) : State :=
  let c := sgn 48 (unsgn 48 (s.encCnt n + d))
  let s := s.setPos48 (POS.ENC_CNT_LO n) c
  let e := s.enc n
  let down := s.flag (POS.ENC_STS_DIR n)
  let against := if down then sgn 48 (unsgn 48 (c - e.ext)) else sgn 48 (unsgn 48 (e.ext - c))
  if (s.fld (POS.ENC_CFG_DIR_HYST n) : Int) < against then
    let s := (s.setFlag (POS.ENC_STS_DIR n) (!down)).setEnc n { e with ext := c }
    s.when (s.flag (POS.ENC_CFG_DIR_EV n)) (·.fire 146)
  else if against < 0 then s.setEnc n { e with ext := c }
  else s

/-- The count step of one accepted edge (R160): levels before and after, and which line changed. -/
def edgeStep (mode : Nat) (a0 a b : Bool) : Int :=
  let aEdge := a0 != a
  if mode = 0 then
    -- +1 along 00, 10, 11, 01, 00
    if aEdge then (if a != b then 1 else -1) else (if a == b then 1 else -1)
  else if mode = 1 then (if aEdge then (if a != b then 1 else -1) else 0)
  else if aEdge && a then (if b then -1 else 1)
  else 0

/-- Whether a level that has held over the span is accepted at its end: the sample that completes the hold of FILT × 10 ns (R159). -/
def State.encHeld (s : State) (n : Nat) (h : Span) : Bool := h.t == h.since + s.fld (POS.ENC_CFG_FILT n) * 10

/-- Whether a change is one that the decoder counts: it was made since EN rose (R165). -/
def State.encLive (s : State) (n : Nat) (h : Span) : Bool := s.flag (POS.ENC_CFG_EN n) && decide ((s.enc n).enAt ≤ h.since)

/-- Whether a watched line is in loss in the present sample: LOSS_NOW, or a loss of this instant that still waits in the queue (R166). -/
def State.lossNow (s : State) (n : Nat) : Bool :=
  s.flag (POS.ENC_STS_LOSS_NOW n) || (s.flag (POS.ENC_CFG_LOSS_EN n) && s.pending.any fun i =>
    match i with
    | .encoderLoss e t => e.n.val == n && t == s.now && (decide (e.line.val < 2) || s.fld (POS.ENC_CFG_Z_MODE n) != 0)
    | _ => false)

/-- A change of the levels of A and B to `a` and `b`, which have held over the span `h`: it is accepted at the sample at which they have held
for FILT × 10 ns, and a shorter pulse is discarded (R159 to R161, R165). The levels are those of the lines, whatever EN; with EN = 0
nothing is decoded, and a change made while EN was 0 is taken as the starting state. That accepted edges keep the distances of R159 is the integrator's duty: the part counts each (assumption 34). -/
def State.encEdge (s : State) (n : Nat) (a b : Bool) (h : Span) : State :=
  if !s.encHeld n h then s
  else
    let e := s.enc n
    let s1 := s.setEnc n { e with a := a, b := b }
    if !s.encLive n h then s1
    else
      if e.a != a && e.b != b then
        if s.lossNow n then s1
        else ((s1.stick (POS.ENC_STS_ILLEGAL n)).bump (⟨POS.ENC_ERRCNT n, 0, 16⟩) 1).fire 144
      else if e.a == a && e.b == b then s1
      else
        let d := edgeStep (s.fld (POS.ENC_CFG_MODE n)) e.a a b
        if d = 0 then s1 else s1.encAdd n (if s.flag (POS.ENC_CFG_INV n) then -d else d)

/-- The input as the present sample leaves it: edges of A and B of this instant that still wait in the queue are part of it (R166). -/
def State.sample (s : State) (n : Nat) : State :=
  s.pending.foldl (fun u i =>
    match i with
    | .encoderEdge m a b h => if m.val = n ∧ h.t = s.now then u.encEdge n a b h else u
    | _ => u) s

/-- The lines of an input that the loss detection watches (R162): Z too unless Z_MODE is OFF. -/
def State.lossLow (s : State) (n : Nat) : Nat :=
  (s.enc n).low % (if s.fld (POS.ENC_CFG_Z_MODE n) = 0 then 4 else 8)

/-- LOSS_NOW from the watched lines; its rise sets LOSS, counts and fires (R162, R165). -/
def State.lossShow (s : State) (n : Nat) : State :=
  let low := s.flag (POS.ENC_CFG_EN n) && s.flag (POS.ENC_CFG_LOSS_EN n) && s.lossLow n != 0
  let rise := low && !s.flag (POS.ENC_STS_LOSS_NOW n)
  let s := s.setFlag (POS.ENC_STS_LOSS_NOW n) low
  s.when rise fun s => ((s.stick (POS.ENC_STS_LOSS n)).bump (POS.ENC_ERRCNT_LOSS_CNT n) 1).fire 145

/-- A line (A, B, Z) has stayed below the loss threshold for more than 1 µs (R162). -/
def execEncoderLoss (n : EncLine) (t : Nat) (s : State) : Host.Outcome State Fault Refusal :=
  done (
    let s := s.atTime t
    (s.setEnc n.n { s.enc n.n with low := setBits (s.enc n.n).low n.line 1 1 }).lossShow n.n)

/-- A line is back above the threshold: LOSS_NOW falls with the last watched one (R162). -/
def execEncoderLossEnd (n : EncLine) (t : Nat) (s : State) : Host.Outcome State Fault Refusal :=
  done (
    let s := s.atTime t
    (s.setEnc n.n { s.enc n.n with low := setBits (s.enc n.n).low n.line 1 0 }).lossShow n.n)

/-- A capture at the present sample: ENC_IDX takes the count after any step of the sample (R163, R166). A capture in any mode uses up the one
capture of FIRST: the model's choice, where R163 says only that FIRST captures once until ZARM (assumption 34). -/
def State.idxCapture (s : State) (n : Nat) : State :=
  let u := s.sample n
  let c := u.encCnt n
  let down := u.flag (POS.ENC_STS_DIR n)
  let e := s.enc n
  let per := s.regN (POS.ENC_IDXPER n)
  let bad := match e.cap with
    | none => false
    | some (c0, d0) => per != 0 && d0 == down && (sgn 48 (unsgn 48 (c - c0))).natAbs != per
  let s := s.setN (POS.ENC_IDX n) (unsgn 32 c)
  let s := (s.setFlag (POS.ENC_STS_Z_SEEN n) true).setEnc n
    { e with armed := false, cap := some (c, down), zAt := some (s.now, true) }
  let s := s.when bad fun s => (s.stick (POS.ENC_STS_IDX_ERR n)).fire 147
  s.when (bitB (s.fld POS.CAP_CFG_IDX) n) fun s =>
    s.onPos fun p => { p with capq := p.capq ++ [⟨n, unsgn 32 c, s.now, s.now⟩] }

/-- Whether an accepted rising edge of Z captures (R163). -/
def State.zCaptures (s : State) (n : Nat) : Bool :=
  let m := s.fld (POS.ENC_CFG_Z_MODE n)
  let e := (s.sample n).enc n
  s.flag (POS.ENC_CFG_EN n) && (m == 1 || (m == 2 && e.armed) || (m == 3 && e.a && e.b))

/-- A rising edge of Z, whose new level has held over the span; it is accepted at the sample that completes its hold (R159, R163). One made
while EN was 0 captures nothing, as none of A and B is counted (R165; for Z the model's reading, assumption 34). -/
def execIndexCapture (n : Fin 6) (h : Span) (s : State) : Host.Outcome State Fault Refusal :=
  done (
    let s := s.atTime h.t
    if !s.encHeld n h || decide (h.since < (s.enc n).enAt) then s
    else if s.zCaptures n then s.idxCapture n
    else s.setEnc n { s.enc n with zAt := some (s.now, false) })

/-- ENC_CLR.ZARM re-arms FIRST; an edge of Z of the same sample is captured (R163, R166). -/
def State.zArm (s : State) (n : Nat) : State :=
  let e := s.enc n
  if e.zAt = some (s.now, true) then s
  else if e.zAt = some (s.now, false) ∧ s.flag (POS.ENC_CFG_EN n) ∧ s.fld (POS.ENC_CFG_Z_MODE n) = 2 then s.idxCapture n
  else (s.setFlag (POS.ENC_STS_Z_SEEN n) false).setEnc n { e with armed := true }

/-! ### SSI -/

/-- Whether an SSI frame carries a parity bit, and how many data bits it has (R168). -/
def State.ssiPar (s : State) (m : Nat) : Nat := if s.fld (POS.SSI_CFG_PAR m) = 0 then 0 else 1
def State.ssiData (s : State) (m : Nat) : Nat :=
  s.fld (POS.SSI_CFG_BITS m) - s.fld (POS.SSI_CFG_STAT_BITS m) - s.ssiPar m

/-- Binary value of a Gray code of `n` bits. -/
def grayToBin : Nat → Nat → Nat
  | 0, _ => 0
  | n + 1, x => if bitB x n then 2 ^ n + ((2 ^ n - 1) - grayToBin n (x % 2 ^ n)) else grayToBin n (x % 2 ^ n)

/-- The frame time F, ns (R167). -/
def State.ssiFrame (s : State) (m : Nat) : Nat :=
  (1 + s.fld (POS.SSI_CFG_BITS m) * (1 + s.fld (POS.SSI_CFG_DBL m))) * (s.fld (POS.SSI_CFG_CLKDIV m) + 1) * 10

/-- Whether an instant is a tick at which a read of the input is due: every 2^RATE-th tick, counted from the start of device time
(R156, R175, assumption 34). -/
def State.ssiDue (s : State) (m t : Nat) : Bool := t % 31250 == 0 && t / 31250 % 2 ^ s.fld (POS.SSI_CFG_RATE m) == 0

/-- The first falling clock edge of a frame, F + 2 µs before the tick that it is due at: the encoder latches its position, stamped `t`
(R156, R167). No frame starts at another instant. -/
def execSsiFrameStart (m : Fin 2) (t : Nat) (s : State) : Host.Outcome State Fault Refusal :=
  done (
    let s := s.atTime t
    let f := s.ssiFrame m
    if s.flag (POS.SSI_CFG_EN m) && s.ssiDue m (s.now + f + 2000) then
      s.setSsi m { s.ssi m with latch := s.now, ends := some (s.now + f) }
    else s)

/-- The slot of a source type, if one is configured (R173). -/
def State.slotOf (s : State) (ty : Nat) : Option Nat := (upto 4).find? fun i => s.fld (POS.FUS_SRC_TYPE i) == ty

/-- The health of a slot (R179): 0 OK, 1 SUSPECT, 2 FAILED, 3 UNUSED. -/
def State.health (s : State) (i : Nat) : Nat := bitsOf (s.regN POS.FUS_STS) (20 + 2 * i) 2

/-- Sets a health; each change fires source 156, and a source that is not OK ends the travel window (R177, R179). -/
def State.setHealth (s : State) (i h : Nat) : State :=
  if s.health i = h then s
  else
    ((s.setFld ⟨POS.FUS_STS, 20 + 2 * i, 2⟩ h).onPos fun p => { p with win := if h = 1 ∨ h = 2 then none else p.win }).fire 156

/-- Marks a source SUSPECT unless it is worse already. -/
def State.suspect (s : State) (i : Nat) : State := if s.health i = 0 then s.setHealth i 1 else s

/-- Marks the anchor FAILED when it is the given SSI input (R179). -/
def State.failAnchor (s : State) (m : Nat) : State :=
  match s.slotOf 3 with
  | some a => if s.fld (POS.FUS_SRC_INPUT a) = m ∧ s.health a ≠ 3 then s.setHealth a 2 else s
  | none => s

/-- The word of the running frame is complete, 2 µs before its tick (R156, R168, R169): `w` and `w2` are the word and its repetition,
`lineOk` the line check. -/
def execSsiFrameComplete (m : Fin 2) (w w2 : Nat) (lineOk : Bool) (t : Nat) (s : State) : Host.Outcome State Fault Refusal :=
  done (
    let s := s.atTime t
    if !s.flag (POS.SSI_CFG_EN m) || (s.ssi m).ends != some s.now then s
    else
      let s := s.setSsi m { s.ssi m with ends := none }
      let bits := s.fld (POS.SSI_CFG_BITS m)
      let par := s.fld (POS.SSI_CFG_PAR m)
      let st := s.fld (POS.SSI_CFG_STAT_BITS m)
      let pb := s.ssiPar m
      let w := w % 2 ^ bits
      let stat := bitsOf w pb st
      let d := bitsOf w (pb + st) (s.ssiData m)
      let ones := popcount bits w
      let badPar := (par == 1 && ones % 2 == 1) || (par == 2 && ones % 2 == 0)
      let badDbl := s.flag (POS.SSI_CFG_DBL m) && w != w2 % 2 ^ bits
      let alarm := (stat &&& s.fld (POS.SSI_CFG_ALARM_MASK m)) != 0
      let bad := !lineOk || badPar || badDbl || alarm
      let s := s.when (!lineOk) fun s => s.stick (POS.SSI_STS_LINE m)
      let s := s.when badDbl fun s => s.stick (POS.SSI_STS_DBL_MIS m)
      let s := s.when badPar fun s => s.stick (POS.SSI_STS_PAR m)
      let s := s.when alarm fun s => s.stick (POS.SSI_STS_ALARM m)
      let e := s.ssi m
      if bad then
        let s := ((s.bumpReg (POS.SSI_ERRCNT m) 1).setFlag (POS.SSI_STS_STALE m) true).fire 148
        let s := s.setSsi m { e with read := some (0, false), bad := e.bad + 1 }
        if e.bad + 1 = 4 then (s.fire 149).failAnchor m else s
      else
        let v := if s.flag (POS.SSI_CFG_CODE m) then grayToBin (s.ssiData m) d else d
        let s := (s.setN (POS.SSI_RAW_LO m) (w % 2 ^ 32)).setN (POS.SSI_RAW_HI m) (w / 2 ^ 32 % 256)
        (s.setFlag (POS.SSI_STS_STALE m) false).setSsi m { e with read := some (v, true), bad := 0 })

/-- Four consecutive unusable anchor reads mark the anchor FAILED (R179). -/
def execAnchorFailed (m : Fin 2) (t : Nat) (s : State) : Host.Outcome State Fault Refusal :=
  done (
    let s := s.atTime t
    if 4 ≤ (s.ssi m).bad then s.failAnchor m else s)

/-! ### Daymarks and history -/

/-- A daymark's comparator has held the level `lvl` since its first sample at `stamp`; the edge is accepted once it has held for
FILT × 5 µs and delivered at `t`, within 2 µs after (R171). A level that has not held that long is discarded. While the daymark is not
enabled POS takes the level without an edge, as that from which it starts when EN rises (the model's reading of R187, assumption 34). -/
def execDaymarkEdge (d : Fin 16) (lvl : Bool) (stamp t : Nat) (s : State) : Host.Outcome State Fault Refusal :=
  done (
    let s := s.atTime t
    let acc := stamp + s.fld (POS.DM_CFG_FILT d) * 5000
    if !s.flag (FIELD.CH_STS_VALID (32 + d.val)) || decide (s.now < acc) || decide (acc + 2000 < s.now) then s
    else
      let s := s.onPos fun p => { p with dmLine := mput (fun _ => false) p.dmLine d lvl }
      if !s.flag (POS.DM_CFG_EN d) then s
      else
        let active := lvl != s.flag (POS.DM_CFG_POL d)
        let s := s.setFld ⟨POS.DM_LVL, d, 1⟩ (b2n active)
        s.onPos fun p => { p with dmq := p.dmq ++ [⟨d.val, active, stamp, s.now, stamp⟩] })

/-- Whether a daymark reads active: its comparator's level against POL, and inactive while it is not enabled (R172, R187). -/
def State.dmActive (s : State) (d : Nat) : Bool :=
  s.flag (POS.DM_CFG_EN d) && (mget (fun _ => false) s.pos.dmLine d != s.flag (POS.DM_CFG_POL d))

/-- The position at an instant (R158): linear between the ticks around it, truncated toward the earlier tick. -/
def histAt : List Hist → Nat → Int
  | [], _ => 0
  | [h], _ => h.x
  | h1 :: h0 :: rest, t =>
    if h1.t ≤ t then h1.x
    else if h0.t ≤ t then
      if h1.t = h0.t then h0.x else h0.x + ((h1.x - h0.x) * ((t : Int) - h0.t)).tdiv ((h1.t : Int) - h0.t)
    else histAt (h0 :: rest) t

/-- The history entry in force at an instant. -/
def histEntry (l : List Hist) (t : Nat) : Option Hist := l.find? fun h => decide (h.t ≤ t)

/-- A position in µm, truncated. -/
def um (x : Int) : Int := x / 65536

/-- A 16-byte entry of rings 32 and 33 (R199). -/
def capEntry (stamp : Nat) (posUm : Int) (b10 b11 last : Nat) : List Byte :=
  leBytes 4 (shortOf stamp) ++ leBytes 6 (unsgn 48 posUm) ++ leBytes 1 b10 ++ leBytes 1 b11 ++ leBytes 4 last

/-! ### The working map (R189, R190) -/

def State.mapWord (s : State) (rec w : Nat) : Word := mget zeroWord s.pos.wmap (rec * 16 + w)

/-- A 48-bit position of a record (record 128 is the header), held in 8 bytes. -/
def State.mapPos (s : State) (rec off : Nat) : Int :=
  sgn 64 ((s.mapWord rec (off / 4)).toNat + 2 ^ 32 * (s.mapWord rec (off / 4 + 1)).toNat)

def setMapWord (m : List (Nat × Word)) (rec w : Nat) (v : Word) : List (Nat × Word) := mput zeroWord m (rec * 16 + w) v

def setMapPos (m : List (Nat × Word)) (rec off : Nat) (v : Int) : List (Nat × Word) :=
  let n := unsgn 64 v
  setMapWord (setMapWord m rec (off / 4) (BitVec.ofNat 32 (n % 2 ^ 32))) rec (off / 4 + 1) (BitVec.ofNat 32 (n / 2 ^ 32))

def State.landings (s : State) : Nat := s.fld POS.MAP_STS_LANDINGS

/-- The landing, among those that satisfy `ok`, at which `key` lies nearest to a position. -/
def nearestBy (n : Nat) (ok : Nat → Bool) (key : Nat → Int) (x : Int) : Option Nat :=
  (upto n).foldl (fun best i =>
    if !ok i then best
    else match best with
      | none => some i
      | some j => if (key i - x).natAbs < (key j - x).natAbs then some i else best) none

/-- The bytes of a working-map record, with its CRC-32C (R189). -/
def State.mapRecBytes (s : State) (rec : Nat) : List Byte :=
  let b := (upto 15).flatMap fun w => leBytes 4 (s.mapWord rec w).toNat
  b ++ leBytes 4 (crc32c b)

end Sys2Proof.Machine
end

