-- ==== Sys2Proof/Machine/Fusion.lean ====
section
/-! DEFINITION. POS fusion at a tick (R155 to R188): increments, corrections, slip and health, daymark edges, reference
states, steps, zones and the checkpoint (R200). Positions are held in units of 2^-16 µm. -/

namespace Sys2Proof.Machine

/-- One µm in the unit of held positions. -/
def oneUm : Int := 65536

def State.posState (s : State) : Nat := s.fld POS.FUS_STS_STATE

/-- Sets FUS_STS.STATE; a change fires source 156. -/
def State.setPosState (s : State) (v : Nat) : State :=
  if s.posState = v then s else (s.setFld POS.FUS_STS_STATE v).fire 156

def State.moving (s : State) : Bool := s.flag POS.FUS_STS_MOVING

/-- FUS_STS.DIR: down. -/
def State.carDown (s : State) : Bool := s.flag POS.FUS_STS_DIR

def State.conf (s : State) : Nat := s.regN POS.FUS_CONF

/-- The unit of retained uncertainty, µm in held units (R184). -/
def State.retUnc (s : State) : Int := s.fld POS.CKPT_CFG_RET_UNC * 100 * oneUm

/-! ### Checkpoint (R200) -/

/-- The bytes of a checkpoint slot. -/
def State.ckptSlot (s : State) (i : Nat) : List Byte := rdBytes s.pos.ckpt (32 * i) 32

/-- Whether the CRC of a slot is good. -/
def slotValid (b : List Byte) : Bool := crc32c (b.take 28) == leNat (b.drop 28)

def slotSeq (b : List Byte) : Nat := leNat ((b.drop 22).take 2)

/-- The slot that is the checkpoint, if any. -/
def State.ckptIdx (s : State) : Option Nat :=
  let a := s.ckptSlot 0
  let b := s.ckptSlot 1
  match slotValid a, slotValid b with
  | false, false => none
  | true, false => some 0
  | false, true => some 1
  | true, true =>
    let d := (slotSeq b + 65536 - slotSeq a) % 65536
    if 1 ≤ d ∧ d ≤ 32767 then some 1 else some 0

/-- Shows the checkpoint in CKPT_STS.VALID, CKPT_POS and CKPT_CONF. -/
def State.ckptShow (s : State) : State :=
  match s.ckptIdx with
  | none => s.setFlag POS.CKPT_STS_VALID false
  | some i =>
    let b := s.ckptSlot i
    ((s.setFlag POS.CKPT_STS_VALID true).setPos48 POS.CKPT_POS_LO (sgn 48 (leNat (b.take 8)))).setN POS.CKPT_CONF
      (leNat ((b.drop 8).take 4))

/-- Q31 stretch correction of a slot. -/
def State.corr (s : State) (i : Nat) : Int := s.regI (POS.FUS_CORR i)

/-- The bytes of a checkpoint captured now. -/
def State.ckptImage (s : State) : List Byte :=
  let seq := match s.ckptIdx with
    | some i => (slotSeq (s.ckptSlot i) + 1) % 65536
    | none => 1
  let corr := match s.slotOf 1 with
    | some i => s.regN (POS.FUS_CORR i)
    | none => 0
  let b := leBytes 8 (unsgn 64 (um s.pos.x)) ++ leBytes 4 s.conf ++ leBytes 4 corr ++
    leBytes 1 (s.fld POS.ZONE_STS_LANDING) ++ leBytes 5 0 ++ leBytes 2 seq ++ leBytes 4 (s.now / 1000000000)
  b ++ leBytes 4 (crc32c b)

/-- Asks for a checkpoint write in state REF (R200); a request joins one that waits. -/
def State.ckptAsk (s : State) : State :=
  if s.posState = 3 then s.onPos fun p => { p with ckptWant := true } else s

/-- Starts a requested checkpoint write at a tick. -/
def State.ckptStart (s : State) : State :=
  if s.pos.ckptWant && s.pos.ckptBusy.isNone then
    let b := s.ckptImage
    s.onPos fun p => { p with ckptWant := false, ckptBusy := some b }
  else s

/-- A checkpoint write completes (R200): the slots are written alternately. -/
def execCheckpointWriteComplete (t : Nat) (s : State) : Host.Outcome State Fault Refusal :=
  done (
    let s := s.atTime t
    match s.pos.ckptBusy with
    | none => s
    | some b =>
      let i := match s.ckptIdx with
        | some 0 => 1
        | _ => 0
      let s := s.onPos fun p => { p with ckpt := wrBytes p.ckpt (32 * i) b, ckptBusy := none }
      (s.bump POS.CKPT_STS_WRITES 1).ckptShow)

/-- MOVING falls (R174): LEVEL_ERR of a levelling move (R228), and a checkpoint when CKPT_CFG.AUTO is 1 (R200). -/
def State.stillFall (s : State) : State :=
  if s.moving then
    let s := s.setFlag POS.FUS_STS_MOVING false
    let s := match s.mot.levelTgt with
      | none => s
      | some g =>
        let s := s.setI MOTION.LEVEL_ERR (satInt 32 (um s.pos.x - g))
        { s with mot := { s.mot with levelTgt := none } }
    s.when (s.flag POS.CKPT_CFG_AUTO) (·.ckptAsk)
  else s

/-- Whether |v| is below STILL_V. -/
def State.slowNow (s : State) (v : Int) : Bool :=
  decide ((v.natAbs : Int) < s.fld POS.CKPT_CFG_STILL_V * 1000 * oneUm)

/-- Whether |v| below STILL_V, since `still`, has held for STILL_T (R174). -/
def State.stillHeld (s : State) (still : Option Int) : Bool :=
  match still with
  | none => false
  | some t0 => decide (t0 + s.fld POS.CKPT_CFG_STILL_T * 10000000 ≤ s.freeRun)

/-- |v| below STILL_V has held for STILL_T (R174). -/
def execStillTimeout (t : Nat) (s : State) : Host.Outcome State Fault Refusal :=
  done (
    let s := s.atTime t
    if s.posState ≠ 0 ∧ s.stillHeld s.pos.still then s.stillFall else s)

/-! ### Steps (R185, R186) -/

/-- Shifts x, its shadow, the history and the extreme by the size of a step. -/
def PosSt.shift (p : PosSt) (d : Int) : PosSt :=
  { p with x := p.x + d, xc := p.xc + d, ext := p.ext + d,
           hist := p.hist.map fun h => { h with x := h.x + d } }

/-- A step: a single change of x that takes STATE to REF, with the growth `g` it leaves. -/
def State.posStep (s : State) (d g : Int) : State :=
  let s := s.onPos fun p =>
    { p.shift d with g := g, dmLeft := 0, win := none, reref := false, cmpTest := upto 16 }
  (s.setFld POS.FUS_STS_STATE 3).fire 156

/-- The daymark uncertainty, held units. -/
def State.dmUnc (s : State) : Int := s.fld POS.FUS_CONF_CFG_DM_UNC * oneUm

/-! ### Sources -/

/-- The fused source slots that count for `usable`: incremental slots OK or SUSPECT, or an OK anchor. -/
def State.anyUsable (s : State) : Bool :=
  (upto 4).any fun i =>
    let ty := s.fld (POS.FUS_SRC_TYPE i)
    (decide (ty = 1 ∨ ty = 2) && decide (s.health i ≤ 1)) || (decide (ty = 3) && decide (s.health i = 0))

/-- Whether an incremental slot is OK or SUSPECT. -/
def State.incUsable (s : State) : Bool :=
  (upto 4).any fun i =>
    let ty := s.fld (POS.FUS_SRC_TYPE i)
    decide (ty = 1 ∨ ty = 2) && decide (s.health i ≤ 1)

def State.anchorOk (s : State) : Bool :=
  match s.slotOf 3 with
  | some a => s.health a == 0
  | none => false

/-- The count that a tick latches: a step of the same sample belongs to the tick (R166). -/
def State.tickCnt (s : State) (n : Nat) : Int := (s.sample n).encCnt n

/-- The count difference of a slot's input since the last tick. -/
def State.cntDiff (s : State) (i : Nat) : Int :=
  let n := s.fld (POS.FUS_SRC_INPUT i)
  sgn 48 (unsgn 48 (s.tickCnt n - (s.enc n).tick))

/-- The nominal displacement of a slot over the tick, without corr (R177). -/
def State.nominal (s : State) (i : Nat) : Int := s.cntDiff i * s.regN (POS.FUS_SCALE i)

/-- An increment: cntdiff × scale × (1 + corr) (R175). -/
def State.increment (s : State) (i : Nat) : Int := asr (s.nominal i * (2 ^ 31 + s.corr i)) 31

/-- The choice of the acting primary (R180); a change causes no step. -/
def State.chooseActing (s : State) : State :=
  match s.slotOf 1 with
  | none => s
  | some p =>
    let old := s.fld POS.FUS_STS_ACTING
    let new :=
      if s.health p = 0 then p
      else match s.slotOf 2 with
        | some c => if s.health c = 0 ∧ s.flag (POS.FUS_SRC_FAILOVER c) then c else old
        | none => old
    if new = old then s
    else ((s.setFld POS.FUS_STS_ACTING new).onPos fun q => { q with xc := q.x, win := none }).fire 156

/-- Health that follows from the encoder flags and from unusable anchor reads (R179). -/
def State.markInputs (s : State) : State :=
  let s := s.forAll (upto 4) fun i s =>
    let ty := s.fld (POS.FUS_SRC_TYPE i)
    if ty = 1 ∨ ty = 2 then
      let n := s.fld (POS.FUS_SRC_INPUT i)
      if s.flag (POS.ENC_STS_LOSS_NOW n) then s.setHealth i 2
      else if s.flag (POS.ENC_STS_ILLEGAL n) then s.suspect i
      else s
    else s
  s.forAll [0, 1] fun m s => if 4 ≤ (s.ssi m).bad then s.failAnchor m else s

/-- The correction of a tick (R182). -/
def State.dmStep (s : State) (dxp : Int) : Int :=
  let left := s.pos.dmLeft
  let lim : Int := s.fld POS.FUS_GAIN_DM_SLEW * oneUm
  let up := if dxp = 0 then !s.carDown else decide (0 < dxp)
  let opp := s.moving && (if up then decide (left < 0) else decide (0 < left))
  let lim := if opp then min lim ((dxp.natAbs / 2 : Nat) : Int) else lim
  clampInt (-lim) lim left

/-! ### Slip (R178, R179) -/

/-- SLIP_THR in held units. -/
def State.slipThr (s : State) : Int := s.fld POS.FUS_LIM_SLIP_THR * 100 * oneUm

/-- The sums over the last 32 ticks: dxp, dxc and the anchor's displacement. -/
def State.sums32 (s : State) : Int × Int × Int :=
  let h := s.pos.hist.take 32
  let xa0 := ((s.pos.hist.drop 32).head?.map (·.xa)).getD ((h.getLast?.map (·.xa)).getD 0)
  (sumInt (h.map (·.dxp)), sumInt (h.map (·.dxc)), (h.head?.map (·.xa)).getD 0 - xa0)

/-- The two slip tests of a tick. SLIP and source 155 come when a test begins to hold, for the slow one also because SLIP_N was lowered to its
run of reads (R178). -/
def State.slip (s : State) : State :=
  let p := s.slotOf 1
  let c := s.slotOf 2
  let q := s.sums32
  let cShadow := match c with
    | some i => decide (i ≠ s.fld POS.FUS_STS_ACTING)
    | none => false
  let fast := cShadow && decide (s.slipThr < ((q.1 - q.2.1).natAbs : Int))
  let slowHit := decide (s.fld POS.FUS_LIM_SLIP_N ≤ s.pos.slow)
  let s := s.when (fast && !s.pos.fast) fun s => (s.stick POS.FUS_STS_SLIP).fire 155
  let s := s.when (slowHit && !s.pos.slowOn) fun s => (s.stick POS.FUS_STS_SLIP).fire 155
  let s := s.onPos fun x => { x with fast := fast, slowOn := slowHit }
  let s := s.when fast fun s =>
    match p, c with
    | some p, some c =>
      if s.anchorOk && decide ((q.1 - q.2.2).natAbs < (q.2.1 - q.2.2).natAbs) then s.suspect c else s.suspect p
    | _, _ => s
  s.when slowHit fun s =>
    match p, c with
    | some p, some c =>
      if s.health c = 0 then
        if (s.pos.rc.natAbs : Int) ≤ s.slipThr then s.suspect p
        else match s.slotOf 3 with
          | some a => s.suspect a
          | none => s
      else s
    | _, _ => s

/-! ### Stretch learning (R177) -/

/-- New corr of a slot from the displacements of a window. R177 gives no rounding: the quotient is truncated toward zero in Q31 and the limit
rounded down, the model's choice (assumption 34). -/
def State.learnCorr (s : State) (i : Nat) (da dn : Int) : State :=
  let m : Int := s.fld POS.FUS_CFG2_CORR_MAX * 100 * 2 ^ 31 / 1000000
  if dn = 0 then
    -- the quotient of R177 has no value: a free value within the clamp
    let f := s.free
    f.2.setI (POS.FUS_CORR i) (clampInt (-m) m (sgn 32 (f.1 % 2 ^ 32)))
  else
    let k := s.fld POS.FUS_GAIN_KSTR
    let c := s.corr i
    s.setI (POS.FUS_CORR i) (clampInt (-m) m (c + asr (((da - dn) * 2 ^ 31).tdiv dn - c) k))

/-- Whether a configured source has health other than OK. -/
def State.anySick (s : State) : Bool := (upto 4).any fun i => decide (s.health i = 1 ∨ s.health i = 2)

/-- The travel window at a usable anchor read. -/
def State.stretch (s : State) : State :=
  if s.fld POS.FUS_GAIN_KSTR = 0 ∨ s.anySick then s.onPos fun p => { p with win := none }
  else
    let fresh := fun (p : PosSt) => { p with win := some ⟨p.xa, 0, 0⟩ }
    match s.pos.win with
    | none => s.onPos fresh
    | some w =>
      let da := s.pos.xa - w.xa
      if (s.fld POS.FUS_CFG2_STR_WIN * 100000 : Int) * oneUm ≤ (da.natAbs : Int) then
        let s := match s.slotOf 1 with
          | some i => s.learnCorr i da w.dnP
          | none => s
        let s := match s.slotOf 2 with
          | some i => s.learnCorr i da w.dnC
          | none => s
        s.onPos fresh
      else s

/-! ### The anchor (R175, R180, R185) -/

/-- A usable anchor read at the tick: data and latch instant. `hold` when x is moved by the anchor alone. -/
def State.anchorRead (s : State) (a data latch : Nat) (hold : Bool) : State :=
  let m := s.fld (POS.FUS_SRC_INPUT a)
  let v := (s.pos.hist.head?.map (·.v)).getD 0
  let raw : Int := (if s.flag (POS.FUS_SRC_NEG a) then -1 else 1) * data * s.regN (POS.FUS_SCALE a)
  let lag : Int := (s.now : Int) - latch + s.fld (POS.SSI_TIMING_LAT m)
  let xa := raw + s.pos48 POS.FUS_ABS_OFF_LO * oneUm + v * lag / 1000000000
  let r := xa - s.pos.x
  let rc := xa - s.pos.xc
  let k := s.fld POS.FUS_GAIN_KABS
  let s := s.setI POS.FUS_RESID (satInt 32 (um r))
  let s := s.onPos fun p => { p with xa := xa, rc := rc }
  let st := s.posState
  if st = 5 ∧ !s.pos.reref then s.onPos fun p => { p with anchorData := some (p.x - raw) }
  else
    let ok := s.health a == 0
    let s := if ok && (decide (st = 1 ∨ st = 2) || s.pos.reref) then
        let mis := decide (st = 2) && s.flag POS.CKPT_STS_VALID &&
          decide (s.regN POS.CKPT_CONF * oneUm + s.retUnc < ((xa - s.pos48 POS.CKPT_POS_LO * oneUm).natAbs : Int))
        (s.when mis fun s => s.stick POS.CKPT_STS_MIS).posStep r 0
      else if ok && hold then s.onPos fun p => { p with x := xa, g := 0 }
      else if ok then
        s.onPos fun p =>
          { p with x := p.x + asr r k, xc := p.xc + asr rc k, rf := p.rf + asr ((r.natAbs : Int) - p.rf) k, g := 0 }
      else s
    let n := if s.slipThr < (r.natAbs : Int) then s.pos.slow + 1 else 0
    (s.onPos fun p => { p with slow := n }).stretch

/-- Takes the SSI read that waits for the tick, if the anchor slot has one. -/
def State.takeAnchor (s : State) (hold : Bool) : State :=
  match s.slotOf 3 with
  | none => s
  | some a =>
    let m := s.fld (POS.FUS_SRC_INPUT a)
    let e := s.ssi m
    match e.read with
    | some (d, true) => s.anchorRead a d e.latch hold
    | some (_, false) => s.onPos fun p => { p with win := none }
    | none => s

/-- The reads of both inputs are used up at the tick. -/
def State.clearReads (s : State) : State :=
  s.forAll [0, 1] fun m s => if (s.ssi m).read.isSome then s.setSsi m { s.ssi m with read := none } else s

/-! ### Daymark edges (R181, R185, R192) -/

/-- Position of the reference of a landing, or of a terminal, in the present direction, held units. -/
def State.refPos (s : State) (i : Nat) : Int := s.mapPos i (if s.carDown then 0x30 else 0x28) * oneUm
def State.termPos (s : State) (top : Bool) : Int :=
  s.mapPos 128 ((if top then 0x20 else 0x10) + (if s.carDown then 8 else 0)) * oneUm

/-- Half the distance from the reference of landing `l` to the nearest other reference in the same direction exceeds conf. R185 does not say
which conf: the one of the tick before, in FUS_CONF, is the model's choice (assumption 34). -/
def State.aloneRef (s : State) (l : Nat) : Bool :=
  (upto s.landings).all fun j => decide (j = l) || decide (2 * s.conf * oneUm < ((s.refPos j - s.refPos l).natAbs : Int))

/-- An edge that may correct: r_d against the reference at `ref`, and what R181 and R185 do with it. Answers whether it is
rejected. -/
def State.refEdge (s : State) (r : Int) (stamp : Nat) (term alone : Bool) : State × Bool :=
  let s := s.setI POS.FUS_DMRESID (satInt 32 (um r))
  let st := s.posState
  let gate : Int := s.fld POS.FUS_LIM_DM_GATE * 1000 * oneUm
  let inGate := decide ((r.natAbs : Int) ≤ gate)
  if decide (st = 1 ∨ st = 2) && term then
    ((s.posStep r s.dmUnc).onPos fun p => { p with termRef := true }, false)
  else if decide (st = 2) && alone && decide ((r.natAbs : Int) ≤ s.conf * oneUm) then (s.posStep r s.dmUnc, false)
  else if s.pos.reref && inGate then (s.posStep r s.dmUnc, false)
  else if st = 3 ∧ inGate then
    let after := sumInt ((s.pos.hist.filter fun h => decide (stamp < h.t)).map (·.c))
    ((s.onPos fun p => { p with dmLeft := r - after, g := s.dmUnc }).fire 150, false)
  else if st = 3 then (s.fire 151, true)
  else (s, false)

/-- A daymark edge at the tick it joins; POS ignores a daymark of role NONE (R172). With no landing in the working map a terminal edge is not
used either: the model's choice, where R189 names only the LREF corrections and the zones of the map (assumption 34). -/
def State.dmEdge (s : State) (e : DmEdge) : State :=
  let role := s.fld (POS.DM_CFG_ROLE e.d)
  let hist := s.pos.hist
  let xe := histAt hist e.ref
  let at0 := histEntry hist e.ref
  let usable := match at0, hist.head? with
    | some a, some b => a.moving && !a.turning && b.moving && !b.turning
    | _, _ => false
  let isRef := decide (role = 1 ∨ role = 4 ∨ role = 5)
  let run := s.fld POS.LEARN_STS_STATE
  let learning := decide (run = 1 ∨ run = 2)
  let use := e.active && usable && isRef && (s.slotOf 4).isSome && decide (0 < s.landings) &&
    (s.pos.reref || decide (s.posState = 2 ∨ s.posState = 3 ∨ (s.posState = 1 ∧ role ≠ 1)))
  let res : State × Bool × Int :=
    if !use then (s, false, 0)
    else if role = 1 then
      match nearestBy s.landings (fun _ => true) s.refPos xe with
      | none => (s, false, 0)
      | some l =>
        let r := s.refPos l - xe
        let q := s.refEdge r e.ref false (s.aloneRef l)
        (q.1, q.2, r)
    else
      let r := s.termPos (role == 5) - xe
      let q := s.refEdge r e.ref true false
      (q.1, q.2, r)
  let s := res.1
  let down := s.carDown
  let rec' := learning && decide (1 ≤ role ∧ role ≤ 6)
  let s := s.when rec' fun s =>
    let n := s.pos.learn.length
    let fast := decide ((s.fld POS.LEARN_CFG_VMAX * 10000 : Int) * oneUm < (((hist.head?.map Hist.v).getD 0).natAbs : Int))
    let s := s.when (decide (n ≤ 1024)) fun s =>
      s.onPos fun p => { p with learn := p.learn ++ [⟨e.d, role, e.active, um xe, decide (run = 2), fast⟩] }
    s.setFld POS.LEARN_STS_EDGES (min (n + 1) 1024)
  if rec' || (role != 0 && bitB (s.fld POS.CAP_CFG_DM) e.d) then
    let fl := b2n e.active + 2 * b2n rec' + 4 * b2n down + 8 * b2n res.2.1
    s.hwPush 32 (capEntry e.stamp (um xe) (0x10 + e.d) fl (unsgn 32 (satInt 32 (um res.2.2))))
  else s

/-- The index captures of R163 and the daymark edges that join the tick: those of before its instant (R156, R157). -/
def State.joinEdges (s : State) : State :=
  let q := s.pos.dmq.filter fun e => decide (e.at' < s.now)
  let c := s.pos.capq.filter fun e => decide (e.at' < s.now)
  let s := s.onPos fun p =>
    { p with dmq := p.dmq.filter fun e => decide (s.now ≤ e.at'), capq := p.capq.filter fun e => decide (s.now ≤ e.at') }
  let s := q.foldl State.dmEdge s
  c.foldl (fun s (e : CapEdge) =>
    s.hwPush 32 (capEntry e.stamp (um (histAt s.pos.hist e.at')) e.n (4 * b2n s.carDown) e.cnt)) s

/-! ### The update (R175) -/

/-- Speed from the history, over eight ticks of the free-running count. R175 gives no rounding of a quotient whose divisor is no power of two:
this one, `accOf` and the anchor's lag term are rounded down, the model's choice (assumption 34). -/
def speedOf (t : Int) (h : List Hist) (dxp : Int) : Int :=
  let sum := dxp + sumInt ((h.take 7).map (·.dxp))
  let el := match (h.drop 7).head? with
    | some e => t - e.ft
    | none => 250000
  if el ≤ 0 then 0 else sum * 1000000000 / el

/-- Acceleration over the same eight ticks (R175). -/
def accOf (t : Int) (h : List Hist) (v : Int) : Int :=
  match (h.drop 7).head? with
  | some e => if t - e.ft ≤ 0 then 0 else (v - e.v) * 1000000000 / (t - e.ft)
  | none => v * 1000000000 / 250000

/-- A number of held units rounded up to µm. -/
def ceilUm (x : Int) : Int := (x + 65535) / 65536

/-- The base of the confidence. -/
def State.confBase (s : State) : Int :=
  let p := s.fld POS.FUS_STS_ACTING
  let b := (s.regN (POS.FUS_SCALE p) * (2 ^ 31 + s.corr p) + (2 ^ 47 - 1)) / 2 ^ 47
  match s.slotOf 3 with
  | some a => b + ceilUm (s.regN (POS.FUS_SCALE a))
  | none => b

/-- The confidence of R175 and R183. -/
def State.confNow (s : State) : Nat :=
  let st := s.posState
  if st = 0 ∨ st = 1 ∨ st = 4 then 0xFFFFFFFF
  else
    let c := s.confBase + ceilUm (s.pos.rf + s.pos.g + (s.pos.dmLeft.natAbs : Int))
    min c.toNat 0xFFFFFFFF

/-- MOVING, DIR and turning at the tick (R174). -/
def State.motionFlags (s : State) (v : Int) : State :=
  let still := if s.slowNow v then some (s.pos.still.getD s.freeRun) else none
  let s := s.onPos fun p => { p with still := still }
  let s := if s.stillHeld still then s.stillFall else s.setFlag POS.FUS_STS_MOVING true
  let down := s.carDown
  let x := s.pos.x
  let against := if down then x - s.pos.ext else s.pos.ext - x
  if 0 < against ∧ (s.fld POS.FUS_LIM_CAR_HYST : Int) * oneUm ≤ against then
    ((s.setFlag POS.FUS_STS_DIR (!down)).onPos fun p => { p with ext := x, turning := false, win := none }).fire 158
  else if 0 < against then s.onPos fun p => { p with turning := true }
  else s.onPos fun p => { p with ext := x, turning := false }

/-- Latches every count at the tick. -/
def State.latchCounts (s : State) : State :=
  s.forAll (upto 6) fun n s =>
    let c := s.tickCnt n
    let e := s.enc n
    s.setEnc n { e with tick := c, diff := sgn 48 (unsgn 48 (c - e.tick)), quiet := if e.tick = c then min (e.quiet + 1) 255 else 0 }

/-- The estimator at a tick in the counting states; `stop` in HOLD. -/
def State.estimate (s : State) : State :=
  let s := s.chooseActing
  let s := s.markInputs
  let st := s.posState
  let p := s.fld POS.FUS_STS_ACTING
  let anchorOnly := decide (s.health p = 2) && !s.incUsable && s.anchorOk
  let dead := decide (st ≠ 4) && !s.anyUsable
  let s := s.when dead fun s =>
    (s.onPos fun q => { q with confHold := s.conf }).setPosState 4
  let s := s.when (decide (st = 4) && s.anyUsable) fun s =>
    (s.onPos fun q => { q with g := q.confHold * oneUm + s.retUnc }).setPosState 2
  let st := s.posState
  if st = 4 then
    let e : Hist := ⟨s.now, s.freeRun, s.pos.x, 0, 0, 0, s.pos.xa, 0, s.moving, s.pos.turning⟩
    let s := s.onPos fun q => { q with hist := (e :: q.hist).take 64 }
    let s := s.motionFlags 0
    ((s.setI POS.FUS_VEL 0).setI POS.FUS_ACC 0)
  else
    let c := s.slotOf 2
    let dxp := if anchorOnly then 0 else s.increment p
    let dxc := match c with
      | some i => s.increment i
      | none => 0
    let dnP := match s.slotOf 1 with
      | some i => s.nominal i
      | none => 0
    let dnC := match c with
      | some i => s.nominal i
      | none => 0
    -- with the anchor alone x is held between its reads (R180)
    let cor := if (st = 2 ∨ st = 3) ∧ !anchorOnly then s.dmStep dxp else 0
    let s := s.onPos fun q =>
      { q with x := q.x + dxp + cor, xc := q.xc + dxc + cor, dmLeft := q.dmLeft - cor,
               win := q.win.map fun w => { w with dnP := w.dnP + dnP, dnC := w.dnC + dnC } }
    let x0 := s.pos.x
    let s := s.takeAnchor anchorOnly
    let dxp := if anchorOnly && s.posState == st then s.pos.x - x0 else dxp
    let h := s.pos.hist
    let v := speedOf s.freeRun h dxp
    let a := accOf s.freeRun h v
    let s := s.onPos fun q =>
      { q with g := q.g + (dxp.natAbs : Int) * s.fld POS.FUS_CONF_CFG_DRIFT / 1000000 }
    let s := s.motionFlags v
    let e : Hist := ⟨s.now, s.freeRun, s.pos.x, dxp, dxc, cor, s.pos.xa, v, s.moving, s.pos.turning⟩
    let s := s.onPos fun q => { q with hist := (e :: q.hist).take 64 }
    let s := (s.setI POS.FUS_VEL (satInt 32 (um v))).setI POS.FUS_ACC (satInt 32 (um a))
    s.slip

/-- The outputs of the tick (R156, R176). -/
def State.posOutputs (s : State) : State :=
  let s := s.setPos48 POS.FUS_POS_LO (um s.pos.x)
  let c := s.confNow
  let s := (s.setN POS.FUS_CONF c).setN POS.FUS_STAMP (shortOf s.now)
  let hi := decide (s.fld POS.FUS_CFG2_CONF_MAX * 100 < c)
  let s := s.when (hi && !s.flag POS.FUS_STS_CONF_HI) (·.fire 157)
  s.setFlag POS.FUS_STS_CONF_HI hi

/-! ### Door zones (R187, R188) -/

/-- Whether an enabled daymark with the role reads active. -/
def State.vane (s : State) (role : Nat) : Bool :=
  (upto 16).any fun d =>
    s.flag (POS.DM_CFG_EN d) && s.fld (POS.DM_CFG_ROLE d) == role && bitB (s.fld POS.DM_LVL_LVL) d

/-- The map zone of a side: in the extent, outside it by more than conf, inside it by more than conf. -/
def State.mapZone (s : State) (rear : Bool) : Bool × Bool × Bool :=
  let flag := if rear then 2 else 1
  match nearestBy s.landings (fun i => bitB (s.mapWord i 14).toNat flag) (fun i => s.mapPos i 0 * oneUm) s.pos.x with
  | none => (false, false, false)
  | some l =>
    let lo := s.mapPos l (if rear then 0x18 else 0x08) * oneUm
    let hi := s.mapPos l (if rear then 0x20 else 0x10) * oneUm
    let x := s.pos.x
    let c : Int := s.conf * oneUm
    (decide (lo ≤ x ∧ x ≤ hi), decide (x + c < lo ∨ hi + c < x), decide (lo + c < x ∧ x + c < hi))

def State.zones (s : State) : State :=
  let vf := s.vane 2
  let vr := s.vane 3
  let f := s.mapZone false
  let r := s.mapZone true
  let l := (nearestBy s.landings (fun _ => true) (fun i => s.mapPos i 0 * oneUm) s.pos.x).getD 0
  let z0 := s.flag POS.ZONE_STS_ZF
  let r0 := s.flag POS.ZONE_STS_ZR
  let m0 := s.flag POS.ZONE_STS_MIS
  let zf := vf && f.1
  let zr := vr && r.1
  let mis := (vf && f.2.1) || (!vf && f.2.2) || (vr && r.2.1) || (!vr && r.2.2)
  let s := s.setN POS.ZONE_STS (l * 65536 + 64 * b2n mis + 32 * b2n zr + 16 * b2n zf + 8 * b2n r.1 + 4 * b2n f.1 +
    2 * b2n vr + b2n vf)
  let s := (s.when (zf && !z0) (·.fire 152)).when (zr && !r0) (·.fire 152)
  let s := (s.when (!zf && z0) (·.fire 153)).when (!zr && r0) (·.fire 153)
  s.when (mis && !m0) (·.fire 154)

end Sys2Proof.Machine
end

