-- ==== Sys2Proof/Machine/ShaftMap.lean ====
section
/-! DEFINITION. The shaft map (R189 to R191), the LEARN run and BUILD (R192, R193), the compare channels (R194 to R198), the
checks and effects of commits to POS, and the whole of a POS tick. -/

namespace Sys2Proof.Machine

/-! ### Map banks -/

/-- MRAM offset of a bank's header, and of a record (record 128 is the header). -/
def mapBase (bank : Nat) : Nat := 0x900000 + bank * 0x80000
def mapRecAt (bank rec : Nat) : Nat := if rec = 128 then mapBase bank else mapBase bank + 64 + 64 * rec

/-- The 64 bytes of a record of a bank. -/
def State.bankRec (s : State) (bank rec : Nat) : List Byte := rdBytes s.mram (mapRecAt bank rec) 64

/-- Whether a 64-byte record carries a good CRC. -/
def recGood (b : List Byte) : Bool := crc32c (b.take 60) == leNat (b.drop 60)

/-- Whether a bank qualifies (R189). -/
def State.bankGood (s : State) (bank : Nat) : Bool := (upto 129).all fun r => recGood (s.bankRec bank r)

def State.bankSeq (s : State) (bank : Nat) : Nat := rdLE s.mram (mapBase bank + 8) 4

/-- The bank that the loader takes (R189). -/
def State.bankPick (s : State) : Option Nat :=
  match s.bankGood 0, s.bankGood 1 with
  | true, true => if s.bankSeq 0 < s.bankSeq 1 then some 1 else some 0
  | true, false => some 0
  | false, true => some 1
  | false, false => none

/-- The words of a bank as a working map. -/
def State.bankWords (s : State) (bank : Nat) : List (Nat × Word) :=
  (upto 129).foldl (fun m r =>
    (upto 15).foldl (fun m w => mput zeroWord m (r * 16 + w) (BitVec.ofNat 32 (rdLE s.mram (mapRecAt bank r + 4 * w) 4))) m) []

/-- Shows the selected record in MAP_WIN and the landing count in MAP_STS. -/
def State.mapShow (s : State) : State :=
  let sel := s.fld POS.MAP_SEL_INDEX
  let rec' := if sel = 255 then 128 else sel
  let s := s.setFld POS.MAP_STS_LANDINGS (bitsOf (s.mapWord 128 1).toNat 16 8)
  let b := s.mapRecBytes rec'
  s.forAll (upto 16) fun w s => s.setN (POS.MAP_WIN w) (leNat ((b.drop (4 * w)).take 4))

/-- Replaces the working map. -/
def State.setMap (s : State) (m : List (Nat × Word)) : State := (s.onPos fun p => { p with wmap := m }).mapShow

/-- Copies a bank into the working map: boot and REVERT (R189, R191). -/
def State.mapLoad (s : State) (bank : Option Nat) : State :=
  match bank with
  | none => ((s.setMap []).setFlag POS.MAP_STS_VALID false).setFlag POS.MAP_STS_DIRTY false
  | some b =>
    let s := s.setMap (s.bankWords b)
    let s := ((s.setFlag POS.MAP_STS_VALID true).setFld POS.MAP_STS_BANK b).setFlag POS.MAP_STS_DIRTY false
    s.setFld POS.MAP_STS_SEQ (s.bankSeq b)

/-- Marks the working map edited. -/
def State.mapEdited (s : State) : State :=
  (s.setFlag POS.MAP_STS_DIRTY true).onPos fun p => { p with mapEdit := true }

/-- Writes word `w` of the selected record (R190); the CRC word is discarded. -/
def State.mapWrite (s : State) (w : Nat) (v : Word) : State :=
  let sel := s.fld POS.MAP_SEL_INDEX
  let rec' := if sel = 255 then 128 else sel
  if w = 15 ∨ s.mapWord rec' w = v then s.mapShow
  else ((s.onPos fun p => { p with wmap := setMapWord p.wmap rec' w v }).mapShow).mapEdited

/-- Sets the landing count (SETN). -/
def State.mapSetN (s : State) (n : Nat) : State :=
  let v := setBits (s.mapWord 128 1).toNat 16 8 n
  ((s.onPos fun p => { p with wmap := setMapWord p.wmap 128 1 (BitVec.ofNat 32 v) }).mapShow).mapEdited

def State.setSave (s : State) (v cause : Nat) : State :=
  let f := s.fld POS.MAP_STS_SAVE ≠ v
  let s := (s.setFld POS.MAP_STS_SAVE v).setFld POS.MAP_STS_CAUSE cause
  s.when f (·.fire 159)

/-- The order check of SAVE (R191). -/
def State.mapOrdered (s : State) : Bool :=
  let n := s.landings
  ((upto (n - 1)).all fun i => decide (s.mapPos i 0 + 500000 ≤ s.mapPos (i + 1) 0)) &&
  ((upto n).all fun i => decide (s.mapPos i 0x08 < s.mapPos i 0x10) && decide (s.mapPos i 0x18 < s.mapPos i 0x20))

/-- MAP_CTL.SAVE: check, then capture the image with SEQ + 1 (R191). -/
def State.mapSave (s : State) : State :=
  if s.fld POS.MAP_STS_SAVE = 1 then s
  else if s.landings = 0 ∨ s.fld SYS.CAPS_MAX_LANDING + 1 < s.landings then s.setSave 3 3
  else if !s.mapOrdered then s.setSave 3 1
  else
    let hdr := setMapWord (setMapWord s.pos.wmap 128 0 0x50414D53#32) 128 1
      (BitVec.ofNat 32 (setBits (s.mapWord 128 1).toNat 0 16 1))
    let s1 := s.onPos fun p => { p with wmap := setMapWord hdr 128 2 (s.mapWord 128 2 + 1) }
    let img := s1.mapRecBytes 128 ++ (upto 128).flatMap s1.mapRecBytes
    let built := s.fld POS.LEARN_STS_STATE == 4
    (s.onPos fun p => { p with saveImg := some img, mapEdit := false, learnSaved := p.learnSaved || built }).setSave 1 0

/-- The map save completes (R191); `ok` is the outcome of the write and read-back. -/
def execMapSaveComplete (ok : Bool) (t : Nat) (s : State) : Host.Outcome State Fault Refusal :=
  done (
    let s := s.atTime t
    match s.pos.saveImg with
    | none => s
    | some img =>
      let s := s.onPos fun p => { p with saveImg := none }
      if ok then
        let bank := 1 - s.fld POS.MAP_STS_BANK
        let s := { s with mram := wrBytes s.mram (mapBase bank) (img.take 8256) }
        (s.onPos fun p => { p with mapSwap := true }).setSave 2 0
      else s.setSave 3 2)

/-- At a boundary the saved bank becomes active (R191). -/
def State.mapBoundary (s : State) : State :=
  if s.pos.mapSwap then
    let bank := 1 - s.fld POS.MAP_STS_BANK
    let q := s.bankSeq bank
    let s := s.onPos fun p => { p with mapSwap := false, wmap := setMapWord p.wmap 128 2 (BitVec.ofNat 32 q) }
    let s := ((s.setFld POS.MAP_STS_BANK bank).setFlag POS.MAP_STS_VALID true).setFld POS.MAP_STS_SEQ q
    (s.setFlag POS.MAP_STS_DIRTY s.pos.mapEdit).mapShow
  else s

/-! ### LEARN (R192, R193) -/

def State.setLearn (s : State) (v : Nat) : State :=
  if s.fld POS.LEARN_STS_STATE = v then s else (s.setFld POS.LEARN_STS_STATE v).fire 159

/-- START_UP and START_DN. -/
def State.learnStart (s : State) (down : Bool) : State :=
  let st := s.fld POS.LEARN_STS_STATE
  if down then s.when (decide (st = 3)) (·.setLearn 2)
  else
    let c := s.conf
    let s := s.onPos fun p =>
      { p with learn := [], learnConf := if s.posState = 5 then p.learnConf else c, learnSaved := false, dmLeft := 0, win := none, anchorData := none }
    let s := ((s.setFld POS.LEARN_STS_EDGES 0).setFld POS.LEARN_STS_FOUND 0).setFld POS.LEARN_STS_ERROR 0
    (s.when (decide (s.posState ≠ 0)) (·.setPosState 5)).setLearn 1

/-- LEARN_CTL.STOP. -/
def State.learnStop (s : State) : State :=
  let st := s.fld POS.LEARN_STS_STATE
  s.when (decide (st = 1 ∨ st = 2)) (·.setLearn 3)

/-- LEARN_CTL.CANCEL, which ends a run at any step before the SAVE of step 6. -/
def State.learnCancel (s : State) : State :=
  if s.fld POS.LEARN_STS_STATE = 0 ∨ s.pos.learnSaved then s
  else
    let s := s.when (decide (s.posState = 5 ∨ s.posState = 3)) fun s =>
      (s.onPos fun p => { p with g := p.learnConf * oneUm }).setPosState 2
    s.setLearn 0

/-- The active intervals (low end, high end) of a vane role in a run. -/
def vaneSpans (role : Nat) (down : Bool) : List LearnEdge → Option Int → List (Int × Int)
  | [], _ => []
  | e :: es, start =>
    if e.role = role ∧ e.down = down then
      if e.active then vaneSpans role down es (some e.pos)
      else match start with
        | some a => (min a e.pos, max a e.pos) :: vaneSpans role down es none
        | none => vaneSpans role down es none
    else vaneSpans role down es start

/-- How far a point lies from an interval. -/
def spanGap (x : Int) (p : Int × Int) : Nat := if x < p.1 then (p.1 - x).toNat else if p.2 < x then (x - p.2).toNat else 0

/-- The interval that contains a point, or else the nearest one within 400 mm. -/
def spanFor (x : Int) (l : List (Int × Int)) : Option (Int × Int) :=
  l.foldl (fun best p =>
    if 400000 < spanGap x p then best
    else match best with
      | none => some p
      | some b => if spanGap x p < spanGap x b then some p else some b) none

/-- The zone of a landing on a side: the up-run interval, each end averaged with the down run's (R193). With no fitting interval
of the down run the up-run extent is taken alone, and the mean of two ends is rounded down: the model's choice, R193 is silent (assumption 34). -/
def zoneFor (edges : List LearnEdge) (role : Nat) (x : Int) : Option (Int × Int) :=
  match spanFor x (vaneSpans role false edges none) with
  | none => none
  | some u =>
    match spanFor x (vaneSpans role true edges none) with
    | none => some u
    | some d => some ((u.1 + d.1) / 2, (u.2 + d.2) / 2)

/-- The entering edges of a role in a run, in order. -/
def entering (edges : List LearnEdge) (role : Nat) (down : Bool) : List Int :=
  (edges.filter fun e => e.role == role && e.down == down && e.active).map (·.pos)

/-- The down-run entering edge within 100 mm of an up-run position, else that position. -/
def downFor (l : List Int) (x : Int) : Int :=
  let c := l.filter fun y => decide ((y - x).natAbs ≤ 100000)
  c.foldl (fun b y => if (y - x).natAbs < (b - x).natAbs then y else b) (c.head?.getD x)

/-- BUILD (R193). Its step leaves g as it was: R186 gives g for edge and anchor steps alone, so this is the model's choice (assumption 34). -/
def State.learnBuild (s : State) : State :=
  if s.fld POS.LEARN_STS_STATE ≠ 3 then s
  else
    let es := s.pos.learn
    let refs := entering es 1 false
    let n := refs.length
    let s := s.setFld POS.LEARN_STS_FOUND (min n 255)
    let off := s.sfld POS.LEARN_CFG_LEVEL_OFF * 10
    let front := refs.map (zoneFor es 2)
    let rear := refs.map (zoneFor es 3)
    let zone := front.zipWith (fun f r => match f with | some z => some z | none => r) rear
    let levels := zone.map fun z => match z with | some z => (z.1 + z.2) / 2 + off | none => 0
    let bot := (entering es 4 false).head?
    let top := (entering es 5 false).head?
    let close := (levels.zip (levels.drop 1)).any fun p => decide (p.2 - p.1 < 500000)
    let order := match bot, top with
      | some b, some t => refs.all fun r => decide (b < r) && decide (r < t)
      | _, _ => true
    let err :=
      if n ≠ s.fld POS.LEARN_CFG_EXPECT then 1
      else if zone.any (·.isNone) then 3
      else if close then 2
      else if es.any (·.fast) then 4
      else if 1024 < es.length then 5
      else if !order then 6
      else if bot.isNone || top.isNone then 7
      else 0
    if err ≠ 0 then (s.setFld POS.LEARN_STS_ERROR err).setLearn 5
    else
      let sh := levels.headD 0
      let dn := entering es 1 true
      let place := fun (m : List (Nat × Word)) (i off : Nat) (v : Int) => setMapPos m i off (v - sh)
      let m := (upto n).foldl (fun m i =>
        let r := refs.getD i 0
        let m := place m i 0 (levels.getD i 0)
        let m := match front.getD i none with | some z => place (place m i 0x08 z.1) i 0x10 z.2 | none => m
        let m := match rear.getD i none with | some z => place (place m i 0x18 z.1) i 0x20 z.2 | none => m
        let m := place (place m i 0x28 r) i 0x30 (downFor dn r)
        setMapWord m i 14 (BitVec.ofNat 32 (1 + 2 * b2n (front.getD i none).isSome + 4 * b2n (rear.getD i none).isSome))) []
      let b := bot.getD 0
      let t := top.getD 0
      let m := place (place m 128 0x10 b) 128 0x18 (downFor (entering es 4 true) b)
      let m := place (place m 128 0x20 t) 128 0x28 (downFor (entering es 5 true) t)
      let m := setMapWord (setMapWord m 128 0 0x50414D53#32) 128 1 (BitVec.ofNat 32 (1 + n * 65536))
      let m := setMapWord m 128 2 (s.mapWord 128 2)
      let s := (s.setMap m).mapEdited
      let s := s.posStep (-sh * oneUm) s.pos.g
      let s := s.setPos48 POS.LEARN_ABSOFF_LO (match s.pos.anchorData with
        | some a => um (a - sh * oneUm)
        | none => 0)
      s.setLearn 4

/-! ### Compare channels -/

/-- Arms a channel with the values that the commit leaves (R135, R194). -/
def State.cmpArm (s : State) (c : Nat) : State :=
  let s := s.setPos48 (POS.CMP_NEXT_LO c) (s.pos48 (POS.CMP_POS_LO c))
  let s := s.setFld (POS.CMP_STS_REMAIN c) (s.fld (POS.CMP_CNT_CNT c))
  let s := (s.setFld (POS.CMP_STS_SKIPPED c) 0).setFlag (POS.CMP_STS_DONE c) false
  let s := s.setFlag (POS.CMP_STS_ARMED c) (s.flag (POS.CMP_CFG_EN c))
  let n := s.fld (POS.CMP_CNT_CNT c)
  s.onPos fun p =>
    { p with cmpTest := c :: p.cmpTest.filter (· ≠ c), cmpHits := mput zeroNat p.cmpHits c 0, cmpLim := mput zeroNat p.cmpLim c n }

/-- An item arms a channel; what the rest of the commit writes counts too (R135). -/
def State.cmpArmBy (s : State) (c : Nat) : State := (s.cmpArm c).onPos fun p => { p with cmpNew := c :: p.cmpNew }

/-- The channels that a commit armed take what it left. -/
def State.cmpSettle (s : State) : State :=
  (s.forAll s.pos.cmpNew fun c s => s.cmpArm c).onPos fun p => { p with cmpNew := [] }

/-- Whether the points of a channel are limited: CMP_CNT was not 0 when it was armed (R196, R197). -/
def State.cmpLimited (s : State) (c : Nat) : Bool := mget zeroNat s.pos.cmpLim c != 0

/-- Disarms a channel after its last point. -/
def State.cmpDone (s : State) (c : Nat) : State := (s.setFlag (POS.CMP_STS_ARMED c) false).setFlag (POS.CMP_STS_DONE c) true

/-- Moves NEXT on by `n` spacings in the direction of motion. -/
def State.cmpAdvance (s : State) (c n : Nat) (up : Bool) : State :=
  let d : Int := n * s.regN (POS.CMP_SPACE c)
  s.setPos48 (POS.CMP_NEXT_LO c) (s.pos48 (POS.CMP_NEXT_LO c) + (if up then d else -d))

/-- Takes points from REMAIN; answers the rest. -/
def State.cmpTake (s : State) (c n : Nat) : State :=
  if !s.cmpLimited c then s else s.setFld (POS.CMP_STS_REMAIN c) (s.fld (POS.CMP_STS_REMAIN c) - n)

/-- How many points lie in reach: limited by REMAIN unless there is no limit. -/
def State.cmpLimit (s : State) (c n : Nat) : Nat :=
  if !s.cmpLimited c then n else min n (s.fld (POS.CMP_STS_REMAIN c))

/-- Whether the channel has used up its points. -/
def State.cmpOut (s : State) (c : Nat) : Bool :=
  s.cmpLimited c && s.fld (POS.CMP_STS_REMAIN c) == 0

/-- One hit at the present NEXT: the event and the ring entry (R197, R198). -/
def State.cmpHit (s : State) (c : Nat) (up multi : Bool) (xp x : Int) (tp : Nat) : State :=
  let next := s.pos48 (POS.CMP_NEXT_LO c)
  let k := mget zeroNat s.pos.cmpHits c + 1
  let s := s.onPos fun p => { p with cmpHits := mput zeroNat p.cmpHits c k }
  -- both differences point along the motion, so the quotient is the floor of R198
  let stamp := tp + (31250 * (next * oneUm - xp).natAbs) / (x - xp).natAbs
  let s := s.fire (128 + c)
  if s.flag (POS.CMP_CFG_RING c) then
    let fl := b2n (!up) + 2 * b2n (s.flag (POS.CMP_CFG_AUTO c)) + 4 * b2n (s.flag POS.FUS_STS_CONF_HI) + 8 * b2n multi
    s.hwPush 33 (capEntry stamp next c fl k)
  else s

/-- `n` hits, NEXT advancing after each. -/
def State.cmpHits (s : State) (c : Nat) (up multi : Bool) (xp x : Int) (tp : Nat) : Nat → State
  | 0 => s
  | n + 1 => ((((s.cmpHit c up multi xp x tp).cmpTake c 1).cmpAdvance c 1 up)).cmpHits c up multi xp x tp n

/-- The judgement of a channel at a tick between x_(k-1) and x_k (R195 to R197). -/
def State.cmpJudge (s : State) (c : Nat) (xp x : Int) (tp : Nat) : State :=
  let up := decide (xp < x)
  let dir := s.fld (POS.CMP_CFG_DIR c)
  if !s.flag (POS.CMP_STS_ARMED c) || xp == x || (dir == 0 && !up) || (dir == 1 && up) then s
  else
    let auto := s.flag (POS.CMP_CFG_AUTO c)
    let sp : Int := s.regN (POS.CMP_SPACE c) * oneUm
    let tests := s.pos.cmpTest.contains c
    let s := s.onPos fun p => { p with cmpTest := p.cmpTest.filter (· ≠ c) }
    -- how far the target lies behind x_(k-1), in the direction of motion
    let lag := if up then xp - s.pos48 (POS.CMP_NEXT_LO c) * oneUm else s.pos48 (POS.CMP_NEXT_LO c) * oneUm - xp
    let s := if tests && decide (0 ≤ lag) then
        let s := s.stick (POS.CMP_STS_BEHIND c)
        if auto && s.flag (POS.CMP_CFG_CATCHUP c) && decide (0 < sp) then
          let n := s.cmpLimit c ((lag / sp).toNat + 1)
          let s := ((s.cmpTake c n).cmpAdvance c n up).bump (POS.CMP_STS_SKIPPED c) n
          if s.cmpOut c then s.cmpDone c else s
        else s
      else s
    let next := s.pos48 (POS.CMP_NEXT_LO c) * oneUm
    let crossed := if up then decide (xp < next ∧ next ≤ x) else decide (x ≤ next ∧ next < xp)
    if !s.flag (POS.CMP_STS_ARMED c) || !crossed then s
    else if !auto then (s.cmpHit c up false xp x tp).cmpDone c
    else
      let span := if up then x - next else next - x
      let all := if 0 < sp then (span / sp).toNat + 1 else 1
      let n := s.cmpLimit c all
      let hits := min n 8
      let s := s.cmpHits c up (decide (8 < n)) xp x tp hits
      if n ≤ 8 then (if s.cmpOut c then s.cmpDone c else s)
      else
        let skip := n - 8
        let s := ((s.cmpTake c skip).bump (POS.CMP_STS_SKIPPED c) skip).stick (POS.CMP_STS_MULTI c)
        if s.cmpOut c then (s.cmpAdvance c (skip - 1) up).cmpDone c else s.cmpAdvance c skip up

/-- All channels at a tick. -/
def State.compare (s : State) : State :=
  match s.pos.hist with
  | h1 :: h0 :: _ => s.forAll (upto 16) fun c s => s.cmpJudge c h0.x h1.x h0.t
  | _ => s

/-! ### The tick -/

/-- POS at a tick (R156). -/
def State.posTick (s : State) : State :=
  let s := s.onPos fun p => { p with termRef := false }
  let s := if s.posState = 0 then s.onPos fun p => { p with hist := [], x := 0 } else s.estimate
  let s := s.joinEdges
  let s := (s.latchCounts).clearReads
  let s := s.posOutputs
  let s := s.compare
  let s := s.zones
  s.ckptStart

/-! ### Commits to POS -/

/-- Enters RETAINED or UNREF from OFF (R184), or OFF without a PRIMARY slot (R183); health of the slots; channels armed. -/
def State.posSettle (s0 s : State) : State :=
  let s := s.cmpSettle
  let s := s.forAll (upto 4) fun i s =>
    let ty := s.fld (POS.FUS_SRC_TYPE i)
    if s0.regN (POS.FUS_SRC i) = s.regN (POS.FUS_SRC i) then s
    else if ty = 0 then s.setHealth i 3
    else if s0.fld (POS.FUS_SRC_TYPE i) = ty ∧ s0.fld (POS.FUS_SRC_INPUT i) = s.fld (POS.FUS_SRC_INPUT i) then s
    else s.setHealth i 0
  let s := s.forAll (upto 4) fun i s =>
    let ty := s.fld (POS.FUS_SRC_TYPE i)
    if ty = 3 ∨ ty = 4 then s.setN (POS.FUS_CORR i) 0 else s
  match s.slotOf 1 with
  | none =>
    if s.posState = 0 then s
    else
      let s := s.onPos fun p => { p with hist := [], x := 0, xc := 0, dmLeft := 0, g := 0, win := none, still := some s.freeRun }
      ((s.setI POS.FUS_VEL 0).setI POS.FUS_ACC 0).setPosState 0
  | some p =>
    if s.posState ≠ 0 then s
    else
      let s := s.setFld POS.FUS_STS_ACTING p
      let clean := fun (q : PosSt) (x g : Int) =>
        { q with hist := [], x := x, xc := x, g := g, rf := 0, ext := x, turning := false, dmLeft := 0, win := none, slow := 0, fast := false }
      match s.ckptIdx with
      | some i =>
        let b := s.ckptSlot i
        let s := s.onPos fun q => clean q (sgn 64 (leNat (b.take 8)) * oneUm) (leNat ((b.drop 8).take 4) * oneUm + s.retUnc)
        let s := s.setN (POS.FUS_CORR p) (leNat ((b.drop 12).take 4))
        (s.setFlag POS.CKPT_STS_RESTORED true).setPosState 2
      | none => (s.onPos fun q => clean q 0 0).setPosState 1

/-- Whether an encoder or SSI input is in use by fusion. -/
def State.posUses (s : State) (anchor : Bool) (n : Nat) : Bool :=
  (upto 4).any fun i =>
    let ty := s.fld (POS.FUS_SRC_TYPE i)
    (if anchor then ty == 3 else ty == 1 || ty == 2) && s.fld (POS.FUS_SRC_INPUT i) == n

/-- SYS.MODE codes that the blocks test (R486). -/
def State.mode (s : State) : Nat := s.fld SYS.MODE_MODE

end Sys2Proof.Machine
end

