-- ==== Sys2Proof/Machine/PosCommit.lean ====
section
/-! DEFINITION. What a commit to POS is checked for (R116, R170 to R173, R190, R192, R197) and what it does beside storing its
word. Every block has such a check at the item, a check on what the group leaves, and an effect. -/

namespace Sys2Proof.Machine

/-! ### Field ranges -/

/-- Whether a mask touches the bits `[lo + w - 1 : lo]`. -/
def tch (m : Word) (lo w : Nat) : Bool := bitsOf m.toNat lo w != 0

/-- Whether each touched field (lowest bit, width, least, greatest) of a word is in its range. -/
def inRanges (m v : Word) (l : List (Nat × Nat × Nat × Nat)) : Bool :=
  l.all fun f => !tch m f.1 f.2.1 || (decide (f.2.2.1 ≤ bitsOf v.toNat f.1 f.2.1) && decide (bitsOf v.toNat f.1 f.2.1 ≤ f.2.2.2))

/-- Causes of a refusal (GALLERY.REFUSE.CAUSE); 0 is none. -/
def cRange : Nat := 1
def cVariant : Nat := 2
def cRing : Nat := 3
def cLocked : Nat := 4
def cSchedule : Nat := 5
def cBudget : Nat := 6
def cMode : Nat := 7
def cState : Nat := 8

/-- The first cause of a list of (condition, cause). -/
def firstCause : List (Bool × Nat) → Nat
  | [] => 0
  | (b, c) :: l => if b then c else firstCause l

/-- Bit `n` of a word. -/
def wbit (w : Word) (n : Nat) : Bool := bitB w.toNat n



/-- The check of one register item in POS: block offset, mask and merged value. -/
def posCheck (s : State) (o : Nat) (m v : Word) : Nat :=
  let x := v.toNat
  let changes := fun (a : Nat) => (s.reg a) != v
  let abs := 0x40070000 + o
  let maxL := s.fld SYS.CAPS_MAX_LANDING
  let surveying := s.mode == 4 || s.mode == 5
  if o < 0xC0 then
    if o % 0x20 = 0 then
      firstCause [(!inRanges m v [(29, 2, 0, 2), (0, 6, 1, 50)], cRange),
        (changes abs && s.posUses false (o / 0x20) && s.moving, cState)]
    else 0
  else if 0x100 ≤ o ∧ o < 0x140 then
    if o % 0x20 = 0 then
      firstCause [(!inRanges m v [(27, 2, 0, 2)], cRange), (changes abs && s.posUses true ((o - 0x100) / 0x20) && s.moving, cState)]
    else 0
  else if 0x200 ≤ o ∧ o < 0x240 then (if inRanges m v [(24, 3, 0, 6), (0, 8, 0, 200)] then 0 else cRange)
  else if 0x300 ≤ o ∧ o < 0x310 then
    let ty := bitsOf x 8 3
    let inp := bitsOf x 0 4
    let badIn := tch m 0 11 && decide ((ty = 1 ∨ ty = 2) ∧ 5 < inp ∨ ty = 3 ∧ 1 < inp ∨ ty = 4 ∧ 0 < inp)
    firstCause [(!inRanges m v [(8, 3, 0, 4)] || badIn, cRange), (changes abs && s.moving, cState)]
  else if 0x310 ≤ o ∧ o < 0x328 then (if changes abs && s.moving then cState else 0)
  else if o = 0x328 then (if inRanges m v [(24, 4, 2, 15), (16, 4, 0, 12), (0, 16, 1, 65535)] then 0 else cRange)
  else if o = 0x32C then (if inRanges m v [(24, 8, 1, 255), (20, 4, 1, 15), (12, 8, 1, 255)] then 0 else cRange)
  else if o = 0x334 then (if inRanges m v [(16, 8, 1, 255)] then 0 else cRange)
  else if o = 0x408 then
    let i := bitsOf x 0 8
    if tch m 0 8 && decide (maxL < i ∧ i ≠ 255) then cVariant else 0
  else if 0x410 ≤ o ∧ o < 0x450 then (if surveying then 0 else cMode)
  else if o = 0x450 then
    let n := bitsOf x 0 8
    firstCause [(!surveying, cMode), (tch m 0 8 && decide (n = 0 ∨ 128 < n), cRange), (tch m 0 8 && decide (maxL + 1 < n), cVariant)]
  else if o = 0x460 then
    let n := bitsOf x 24 8
    firstCause [(!inRanges m v [(24, 8, 1, 128), (16, 8, 1, 100)], cRange), (tch m 24 8 && decide (maxL + 1 < n), cVariant)]
  else if o = 0x464 then (if s.mode = 4 then 0 else cMode)
  else if 0x500 ≤ o ∧ o < 0x700 then (if o % 0x20 = 8 && !inRanges m v [(5, 2, 0, 2)] then cRange else 0)
  else if o = 0x704 then (if inRanges m v [(24, 8, 1, 255), (16, 8, 1, 255)] then 0 else cRange)
  else 0

/-- The conditions of R170 on an enabled SSI input. -/
def State.ssiFits (s : State) (m : Nat) : Bool :=
  let bits := s.fld (POS.SSI_CFG_BITS m)
  let f := s.ssiFrame m
  decide (8 + s.fld (POS.SSI_CFG_STAT_BITS m) + s.ssiPar m ≤ bits) && decide (12 ≤ bits ∧ bits ≤ 40) &&
    decide (24 ≤ s.fld (POS.SSI_CFG_CLKDIV m)) && decide (f + 2000 ≤ 31250) &&
    decide (f + s.fld (POS.SSI_TIMING_MONO m) * 1000 ≤ 31250 * 2 ^ s.fld (POS.SSI_CFG_RATE m))

/-- What a group leaves in POS (R170, R172, R173, R197). A change of SSI_CFG of an input that is enabled already is judged by R170 as well: the
model's choice, where R170 names the commit that enables (assumption 34). -/
def posGroup (s0 s : State) : Nat :=
  let moved := fun (a : Nat) => s0.reg a != s.reg a
  let ssi := [0, 1].any fun m => s.flag (POS.SSI_CFG_EN m) && moved (POS.SSI_CFG m) && !s.ssiFits m
  let roles := (upto 16).any fun d => moved (POS.DM_CFG d) && s.flag (POS.DM_CFG_EN d) &&
    (let r := s.fld (POS.DM_CFG_ROLE d)
     r != 0 && r != 6 && (upto 16).any fun e => e != d && s.flag (POS.DM_CFG_EN e) && s.fld (POS.DM_CFG_ROLE e) == r)
  let types := (upto 4).map fun i => s.fld (POS.FUS_SRC_TYPE i)
  let srcMoved := (upto 4).any fun i => moved (POS.FUS_SRC i)
  let srcBad := srcMoved &&
    (([1, 2, 3, 4].any fun t => decide (1 < types.countP (· == t))) || (types.any (fun t => decide (1 < t)) && !types.contains 1))
  let scale := (upto 4).any fun i =>
    (moved (POS.FUS_SRC i) || moved (POS.FUS_SCALE i)) && s.fld (POS.FUS_SRC_TYPE i) != 0 &&
      decide (s.regN (POS.FUS_SCALE i) < 0x100)
  let cmp := (upto 16).any fun c =>
    (moved (POS.CMP_CFG c) || moved (POS.CMP_SPACE c)) && s.flag (POS.CMP_CFG_AUTO c) &&
      decide (s.regN (POS.CMP_SPACE c) < 64 ∨ 0x7FFFFFFF < s.regN (POS.CMP_SPACE c))
  if ssi || roles || srcBad || scale || cmp then cRange else 0

/-- The effect of a register item in POS, after its word is stored. `cmd` holds the command bits it writes as 1. -/
def posApply (s : State) (o : Nat) (m old new cmd : Word) : State :=
  let rose := fun b => wbit new b && !wbit old b
  let fell := fun b => wbit old b && !wbit new b
  if o < 0xC0 then
    let n := o / 0x20
    if o % 0x20 = 0 then
      let s := s.when (rose 31) fun s =>
        (s.setFlag (POS.ENC_STS_Z_SEEN n) false).setEnc n { s.enc n with cap := none, enAt := s.now }
      s.lossShow n
    else if o % 0x20 = 0x1C then
      let s := s.when (wbit cmd 4) fun s => s.zArm n
      let s := s.when (wbit cmd 3) fun s => s.setN (POS.ENC_ERRCNT n) 0
      let s := s.when (wbit cmd 2) fun s => s.setFlag (POS.ENC_STS_IDX_ERR n) false
      let s := s.when (wbit cmd 1) fun s => s.setFlag (POS.ENC_STS_LOSS n) false
      s.when (wbit cmd 0) fun s => s.setFlag (POS.ENC_STS_ILLEGAL n) false
    else s
  else if 0x100 ≤ o ∧ o < 0x140 then
    let i := (o - 0x100) / 0x20
    if o % 0x20 = 0 then
      s.when (rose 31) fun s => (s.setFlag (POS.SSI_STS_STALE i) true).setSsi i { s.ssi i with ends := none, read := none, bad := 0 }
    else if o % 0x20 = 0x18 then
      let s := s.when (wbit cmd 1) fun s => s.setN (POS.SSI_ERRCNT i) 0
      s.when (wbit cmd 0) fun s => s.setFld ⟨POS.SSI_STS i, 1, 4⟩ 0
    else s
  else if 0x200 ≤ o ∧ o < 0x240 then
    let d := (o - 0x200) / 4
    s.setFlag ⟨POS.DM_LVL, d, 1⟩ (s.dmActive d)
  else if o = 0x324 then s.setI POS.FUS_ABS_OFF_HI (sgn 16 new.toNat)
  else if o = 0x338 then
    let s := s.when (wbit cmd 8) (·.ckptAsk)
    let s := s.forAll (upto 4) fun i s => if wbit cmd (4 + i) && decide (s.health i ≠ 3) then s.setHealth i 0 else s
    let s := s.when (wbit cmd 3) fun s => s.setFlag POS.CKPT_STS_MIS false
    let s := s.when (wbit cmd 2) fun s => s.setFlag POS.FUS_STS_SLIP false
    s.when (wbit cmd 1) fun s => s.onPos fun p => { p with reref := true }
  else if o = 0x408 then s.mapShow
  else if 0x410 ≤ o ∧ o < 0x450 then s.mapWrite ((o - 0x410) / 4) new
  else if o = 0x450 then
    let s := s.when (wbit new 8 && tch m 0 9) fun s => s.mapSetN (bitsOf new.toNat 0 8)
    let s := s.when (wbit cmd 31) (·.mapSave)
    s.when (wbit cmd 30) fun s => s.mapLoad (if s.flag POS.MAP_STS_VALID then some (s.fld POS.MAP_STS_BANK) else none)
  else if o = 0x464 then
    let s := s.when (wbit cmd 4) (·.learnCancel)
    let s := s.when (wbit cmd 2) (·.learnStop)
    let s := s.when (wbit cmd 0) (·.learnStart false)
    let s := s.when (wbit cmd 1) (·.learnStart true)
    s.when (wbit cmd 3) (·.learnBuild)
  else if 0x500 ≤ o ∧ o < 0x700 then
    let c := (o - 0x500) / 0x20
    if o % 0x20 = 0 then s.cmpArmBy c
    else if o % 0x20 = 4 then (s.setI (POS.CMP_POS_HI c) (sgn 16 new.toNat)).cmpArmBy c
    else if o % 0x20 = 8 then
      let s := s.when (wbit cmd 31) fun s =>
        ((s.setFlag (POS.CMP_STS_BEHIND c) false).setFlag (POS.CMP_STS_MULTI c) false).setFld (POS.CMP_STS_SKIPPED c) 0
      let s := s.when (rose 7) (·.cmpArmBy c)
      s.when (fell 7) fun s => s.setFlag (POS.CMP_STS_ARMED c) false
    else s
  else s

end Sys2Proof.Machine
end

