-- ==== Sys2Proof/Machine/Profile.lean ====
section
/-! DEFINITION. Jerk-limited profiles (R204 to R206) in fixed point: positions, speeds and accelerations in units of 2^-32,
times in units of 2^-16 ns. A profile is planned as speed ramps and a cruise; lengths are found by integer square roots and
bisection, and the end of a move is set to its target exactly. -/

namespace Sys2Proof.Machine

/-- Units of position, speed and acceleration in one µm (/s, /s²). -/
def kUnit : Int := 4294967296

/-- Units of time in one second, and in one tick. -/
def uSec : Int := 65536000000000
def uTick : Nat := 2048000000

/-- State (p, v, a) after time `n` under jerk `j`. -/
def jerkStep (p v a j : Int) (n : Nat) : Int × Int × Int :=
  let t : Int := n
  (p + v * t / uSec + a * t * t / (2 * uSec * uSec) + j * kUnit * t * t * t / (6 * uSec * uSec * uSec),
   v + a * t / uSec + j * kUnit * t * t / (2 * uSec * uSec),
   a + j * kUnit * t / uSec)

/-- Moves into the segment that holds the elapsed time. -/
def profGo : List Seg → Int → Int → Int → Nat → Prof
  | [], p, v, a, el => ⟨p, v, a, el, []⟩
  | g :: rest, p, v, a, el =>
    if el < g.dur then ⟨p, v, a, el, g :: rest⟩
    else
      let q := jerkStep p v a g.j g.dur
      profGo rest q.1 q.2.1 q.2.2 (el - g.dur)

/-- A profile after a further time `n`. -/
def Prof.run (x : Prof) (n : Nat) : Prof := profGo x.segs x.p x.v x.a (x.el + n)

/-- The present position, speed and acceleration. -/
def Prof.at (x : Prof) : Int × Int × Int :=
  match x.segs with
  | [] => (x.p, x.v, x.a)
  | g :: _ => jerkStep x.p x.v x.a g.j x.el

/-- The number of the present segment, 0 when none. -/
def Prof.seg (x : Prof) : Nat :=
  match x.segs with
  | [] => 0
  | g :: _ => g.id

/-- A profile that starts from a state with the given segments. -/
def Prof.from (q : Int × Int × Int) (segs : List Seg) : Prof := ⟨q.1, q.2.1, q.2.2, 0, segs.filter fun g => g.dur ≠ 0⟩

/-- The end state of segments. -/
def segsEnd (segs : List Seg) (q : Int × Int × Int) : Int × Int × Int :=
  segs.foldl (fun q g => jerkStep q.1 q.2.1 q.2.2 g.j g.dur) q

/-- Time to change an acceleration by `d` under jerk `j`. -/
def jerkTime (d : Int) (j : Nat) : Nat := if j = 0 then 0 else (d.natAbs * uSec.toNat) / (4294967296 * j)

/-- The segments of a speed change from `v0` (at acceleration `a0`) to `v1` (at acceleration 0), with acceleration limit `up`
upward and `dn` downward, jerk `j`; `id` numbers the first segment. -/
def rampSegs (v0 a0 v1 : Int) (up dn j id : Nat) : List Seg :=
  -- speeds equal up to the rounding of a profile need no ramp
  if j = 0 ∨ ((v1 - v0).natAbs < 65536 ∧ a0.natAbs < 65536) then []
  else
    let vflat := v0 + a0 * a0.natAbs / (2 * (j : Int) * kUnit)
    let pos := decide (vflat ≤ v1)
    let sg : Int := if pos then 1 else -1
    let lim : Int := (if pos then up else dn) * kUnit
    let dv := sg * (v1 - v0)
    let b := sg * a0
    let sq := (j : Int) * dv * kUnit + b * b / 2
    let ap0 : Int := isqrt sq.toNat
    let ap := if lim < ap0 then lim else ap0
    -- speed gained while the acceleration goes b → ap → 0
    let g1 := if b ≤ ap then ap * ap - b * b else b * b - ap * ap
    let gain := (g1 + ap * ap) / (2 * (j : Int) * kUnit)
    let hold := if ap ≤ 0 ∨ dv ≤ gain then 0 else ((dv - gain) * uSec / ap).toNat
    [⟨id, if b ≤ ap then sg * j else -(sg * j), jerkTime (ap - b) j⟩, ⟨id + 1, 0, hold⟩, ⟨id + 2, -(sg * j), jerkTime ap j⟩]

/-- The distance that a ramp covers. -/
def rampDist (v0 a0 v1 : Int) (up dn j : Nat) : Int := (segsEnd (rampSegs v0 a0 v1 up dn j 1) (0, v0, a0)).1

/-- Bisection: the greatest value in `[lo, hi)` that satisfies a downward-closed condition. -/
def bisect (ok : Int → Bool) : Nat → Int → Int → Int
  | 0, lo, _ => lo
  | n + 1, lo, hi =>
    if hi ≤ lo + 1 then lo
    else
      let m := (lo + hi) / 2
      if ok m then bisect ok n m hi else bisect ok n lo m

/-- The length of a cruise that ends only with a change of limits. -/
def holdTime : Nat := 2 ^ 62

/-- The segments of a move over a distance `dist` ≥ 0 in the positive direction, from speed `v` ≥ 0 and acceleration `a`, ending
at speed `vE` and acceleration 0, or at the greatest lower speed that can be reached there; with them that speed. None when the
deceleration alone covers more. A speed limit of 0, which no entry can have when it is pushed, holds the axis at rest until it is raised (R214, R215). -/
def moveSegs (v a dist vE : Int) (e : Eff) : Option (List Seg × Int) :=
  let vmax : Int := e.v * kUnit
  let vE0 := min vE vmax
  let vE := if v < vE0 ∧ dist < rampDist v a vE0 e.a e.d e.j then
      bisect (fun x => decide (rampDist v a x e.a e.d e.j ≤ dist)) 70 0 vE0
    else vE0
  let direct := rampDist v a vE e.a e.d e.j
  let total := fun (vp : Int) => rampDist v a vp e.a e.d e.j + rampDist vp 0 vE e.a e.d e.j
  let join := fun (vp : Int) =>
    let d := dist - total vp
    rampSegs v a vp e.a e.d e.j 1 ++
      [⟨4, 0, if vp ≤ 0 then (if 0 < d then holdTime else 0) else (d * uSec / vp).toNat⟩] ++ rampSegs vp 0 vE e.a e.d e.j 5
  let vflat := max (v + a * a.natAbs / (2 * (max e.j 1 : Nat) * kUnit)) vE
  if e.a = 0 ∨ e.d = 0 ∨ e.j = 0 then some ([⟨4, 0, holdTime⟩], 0)
  else if dist < direct then none
  else if total vmax ≤ dist then some (join vmax, vE)
  else if vmax ≤ vflat then
    -- above the ceiling: slow down to a speed from which the target can be met (R215)
    some (join (bisect (fun x => decide (total x ≤ dist)) 70 vE vmax), vE)
  else if dist < total vflat then
    -- while decelerating: ease off first, then decelerate to the limit
    let eased := fun (n : Int) => jerkStep 0 v a e.j n.toNat
    let far := fun (n : Int) =>
      let q := eased n
      q.1 + rampDist q.2.1 q.2.2 vE e.a e.d e.j
    let n := bisect (fun n => decide (far n ≤ dist)) 60 0 (jerkTime a e.j)
    let q := eased n
    some (⟨3, e.j, n.toNat⟩ :: rampSegs q.2.1 q.2.2 vE e.a e.d e.j 5, vE)
  else some (join (bisect (fun x => decide (total x ≤ dist)) 70 vflat vmax), vE)

/-- The mirror image of segments. -/
def mirror (segs : List Seg) : List Seg := segs.map fun g => { g with j := -g.j }

/-- Whether a target lies on the negative side of a state: behind it, or at it while it moves there. -/
def towardNeg (q : Int × Int × Int) (tgt : Int) : Bool := decide (tgt < q.1) || (tgt == q.1 && decide (q.2.1 < 0))

/-- A profile that decelerates to zero first and then runs to the target (R212). -/
def planVia (q : Int × Int × Int) (tgt : Int) (e : Eff) : Prof :=
  let neg := decide (q.2.1 < 0) || (q.2.1 == 0 && decide (q.2.2 < 0))
  let sg : Int := if neg then -1 else 1
  let stop := rampSegs (sg * q.2.1) (sg * q.2.2) 0 e.d e.d e.j 5
  let stop := if neg then mirror stop else stop
  let r := segsEnd stop q
  let l := ((moveSegs 0 0 (tgt - r.1).natAbs 0 e).getD ([], 0)).1
  Prof.from q (stop ++ (if tgt < r.1 then mirror l else l))

/-- A profile from a state to a target (units of 2^-32) with speed `vE` there in the direction of motion, and the signed speed that it
reaches it with. None when it would have to stop first: the target lies behind, or short of the stopping point. -/
def planOn (q : Int × Int × Int) (tgt vE : Int) (e : Eff) : Option (Prof × Int) :=
  let neg := towardNeg q tgt
  let sg : Int := if neg then -1 else 1
  let v := sg * q.2.1
  if v < 0 then none
  else (moveSegs v (sg * q.2.2) (sg * (tgt - q.1)) vE e).map fun r => (Prof.from q (if neg then mirror r.1 else r.1), sg * r.2)

/-- A profile to a target: straight on where the values `e` allow it, else after a stop (R212). -/
def planTo (q : Int × Int × Int) (tgt vE : Int) (e : Eff) : Prof × Int := (planOn q tgt vE e).getD (planVia q tgt e, 0)

/-- A profile to a target without a reversal (R213): straight on with the values `e`, else with those that the axis moved with so far
(assumption 35); none when the target cannot be reached so. -/
def planAhead (q : Int × Int × Int) (tgt vE : Int) (e : Eff) (old : Option Eff) : Option (Prof × Int) :=
  (planOn q tgt vE e).orElse fun _ =>
    match old with
    | some o => (planOn q tgt vE { e with d := o.d, j := o.j }).orElse fun _ => planOn q tgt vE { e with d := o.d + o.d / 256 + 1, j := o.j }
    | none => none

/-- A profile that comes to rest with the given deceleration and jerk. -/
def planStop (q : Int × Int × Int) (d j : Nat) : Prof :=
  let neg := decide (q.2.1 < 0)
  let sg : Int := if neg then -1 else 1
  let l := rampSegs (sg * q.2.1) (sg * q.2.2) 0 d d j 5
  Prof.from q (if neg then mirror l else l)

/-- Where a stop from a state comes to rest. -/
def stopPos (q : Int × Int × Int) (d j : Nat) : Int := (segsEnd (planStop q d j).segs q).1

end Sys2Proof.Machine
end

