-- ==== Sys2Proof/Machine/Motion.lean ====
section
/-! DEFINITION. MOTION (R202 to R236): limits, queue, starts and blends, stops and faults, homing, the reversal trigger,
gearing, the hoist reference, and the planning tick. -/

namespace Sys2Proof.Machine

def State.ax (s : State) (a : Nat) : AxSt := mget (fun _ => AxSt.reset) s.mot.axes a
def State.setAx (s : State) (a : Nat) (x : AxSt) : State :=
  { s with mot := { s.mot with axes := mput (fun _ => AxSt.reset) s.mot.axes a x } }
def State.onAx (s : State) (a : Nat) (f : AxSt → AxSt) : State := s.setAx a (f (s.ax a))
def State.onMot (s : State) (f : MotSt → MotSt) : State := { s with mot := f s.mot }

/-- AX_STS.STATE: 0 DISABLED, 1 IDLE, 2 MOVING, 3 HOMING, 4 STOPPING, 5 GEARED, 6 REVERSING, 7 FAULT. -/
def State.axState (s : State) (a : Nat) : Nat := s.fld (MOTION.AX_STS_STATE a)
def State.setAxState (s : State) (a v : Nat) : State := s.setFld (MOTION.AX_STS_STATE a) v

/-- A MOTION event of axis `a` (R236). -/
def State.fireAx (s : State) (a n : Nat) : State := s.fire (160 + 4 * a + n)

/-- Sets a flag of AX_FLAGS; a rise fires the event of the flags. -/
def State.raiseAx (s : State) (a : Nat) (f : Fld) : State := (s.stick f).when (!s.flag f) fun s => s.fireAx a 2

/-- The present position, speed and acceleration of the set-point, units of 2^-32. -/
def State.sp (s : State) (a : Nat) : Int × Int × Int := (s.ax a).prof.at

/-- The fused position in units of 2^-32. -/
def State.fusedK (s : State) : Int := s.pos.x * 65536

/-- Enters IDLE; with an empty queue the event fires (R236). -/
def State.axIdle (s : State) (a : Nat) : State :=
  let s := (s.setAxState a 1).onAx a fun x => { x with exec := none, prevTgt := none }
  s.when (s.ax a).queue.isEmpty fun s => s.fireAx a 1

/-! ### Limits (R205, R216) -/

/-- The ceilings of an axis as the mode lowers them. -/
def State.axCeil (s : State) (a : Nat) : Eff :=
  let v := s.regN (MOTION.AX_VMAX a)
  let v := if a ≠ 0 then v
    else if s.mode = 4 then min v (s.fld POS.LEARN_CFG_VMAX * 10000)
    else if s.mode = 5 then min v 630000 else v
  ⟨v, s.regN (MOTION.AX_AMAX a), s.regN (MOTION.AX_AMAX a), s.regN (MOTION.AX_JMAX a)⟩

/-- A parameter with its default. -/
def orDef (x d : Nat) : Nat := if x = 0 then d else x

/-- The parameters of an entry before the ceilings: defaults for 0, |V| except in VEL mode where the sign is the direction. -/
def State.rawEff (s : State) (a : Nat) (r : MoveReq) : Eff :=
  ⟨orDef (sgn 32 r.v).natAbs (s.regN (MOTION.AX_DEF_V a)), orDef r.a (s.regN (MOTION.AX_DEF_A a)),
   orDef r.d (s.regN (MOTION.AX_DEF_D a)), orDef r.j (s.regN (MOTION.AX_DEF_J a))⟩

/-- The effective values (R205) and whether a ceiling limited one. -/
def State.effOf (s : State) (a : Nat) (r : MoveReq) : Eff × Bool :=
  let w := s.rawEff a r
  let c := s.axCeil a
  let v := min w.v c.v
  let v := if r.mode = 4 then min v (s.fld MOTION.LEVEL_CFG_RELEV_V * 1000) else v
  (⟨v, min w.a c.a, min w.d c.d, min w.j c.j⟩, decide (c.v < w.v ∨ c.a < w.a ∨ c.d < w.d ∨ c.j < w.j))

/-- Effective values with which an axis in motion goes on: an acceleration, deceleration or jerk that a ceiling has made 0 keeps the value
it had (assumption 35). -/
def Eff.orOld (e o : Eff) : Eff := ⟨e.v, orDef e.a o.a, orDef e.d o.d, orDef e.j o.j⟩

/-- The soft limits (µm). -/
def State.softLo (s : State) (a : Nat) : Int := s.pos48 (MOTION.AX_SWLN_LO a)
def State.softHi (s : State) (a : Nat) : Int := s.pos48 (MOTION.AX_SWLP_LO a)

/-- The target of an entry before the soft limits, given the target before it (R208). -/
def State.rawTarget (s : State) (a : Nat) (r : MoveReq) (before : Int) : Int :=
  if r.mode = 0 then r.tgt
  else if r.mode = 1 then before + r.tgt
  else if r.mode = 2 then (if (sgn 32 r.v) < 0 then s.softLo a else s.softHi a)
  else s.mapPos r.landing 0 + r.tgt

/-! ### Starting a motion -/

/-- A ramp to rest with deceleration `d` and jerk `j`; `after` names what follows. The queue of an axis that is being disabled is flushed at
rest (R217). -/
def State.axRamp (s : State) (a st d j after : Nat) : State :=
  let q := s.sp a
  let r : MoveReq := ⟨5, 0, 0, 0, 0, 0, s.fld (MOTION.AX_STS_TAG a), false, 0⟩
  let e : Eff := ⟨0, d, d, j⟩
  let x := match (s.ax a).exec with
    | some x => { x with eff := { x.eff with d := d, j := j }, vE := 0, fixed := true, vEnd := 0 }
    | none => ⟨r, um (q.1 / 65536), e, 0, true, e, false, 0⟩
  (s.onAx a fun y => { y with prof := planStop q d j, exec := some x, queue := if st == 3 || (st == 4 && after == 0) then y.queue else [],
                              after := after, prevTgt := none }).setAxState a st

/-- The profile of an axis to a target (µm) and the speed that it reaches it with. Axis 0 never reverses in motion (R213): none when it would
have to. -/
def State.axPlan (s : State) (a : Nat) (tgt vE : Int) (e : Eff) (old : Option Eff) : Option (Prof × Int) :=
  if a = 0 then planAhead (s.sp a) (tgt * kUnit) vE e old else some (planTo (s.sp a) (tgt * kUnit) vE e)

/-- Axis 0 cannot reach its target any more without a reversal: it comes to rest with the deceleration and the jerk of its move, as under STOP
(R213, assumption 35). -/
def State.axStray (s : State) (a : Nat) (e : Eff) : State := s.axRamp a 4 e.d e.j 1

/-- Starts a motion from the present set-point; `via` when it has to stop first (R212). -/
def State.axRun (s : State) (a st : Nat) (x : Exec) (via : Bool) : State :=
  let q := s.sp a
  let old := (s.ax a).exec.map (·.eff)
  let e := match old with
    | some o => if q.2.1 = 0 then x.eff else x.eff.orOld o
    | none => x.eff
  let s := s.setFld (MOTION.AX_STS_TAG a) x.req.tag
  match if via then some (planVia q (x.tgt * kUnit) e, 0) else s.axPlan a x.tgt x.vE e old with
  | some p =>
    (s.onAx a fun y => { y with prof := p.1, exec := some { x with eff := e, vEnd := p.2 }, moves := y.moves + 1 }).setAxState a st
  | none => s.axStray a e

/-- Starts an entry (R207 to R209); a speed move leaves no target for a REL entry after it (R208). -/
def State.axStart (s : State) (a : Nat) (r : MoveReq) (via : Bool) : State :=
  let here := um ((s.sp a).1 / 65536)
  let raw := s.rawTarget a r ((s.ax a).prevTgt.getD here)
  let tgt := clampInt (s.softLo a) (s.softHi a) raw
  let s := s.when (tgt ≠ raw) fun s => s.raiseAx a (MOTION.AX_FLAGS_SOFTLIM a)
  let e := s.effOf a r
  let s := s.when e.2 fun s => s.raiseAx a (MOTION.AX_FLAGS_LIMITED a)
  let s := s.onAx a fun q => { q with prevTgt := if r.mode = 2 then none else some tgt }
  s.axRun a 2 ⟨r, tgt, e.1, 0, false, e.1, false, 0⟩ via

/-- Plans the executing motion again from the present set-point (R214, R215); `old` are the values that it had. -/
def State.axReplan (s : State) (a : Nat) (x : Exec) (old : Eff) : State :=
  let q := s.sp a
  let x := { x with eff := x.eff.orOld old }
  let s := s.when (decide (((x.eff.v : Nat) : Int) * kUnit < (q.2.1.natAbs : Int))) fun s =>
    s.raiseAx a (MOTION.AX_FLAGS_LIMITED a)
  match s.axPlan a x.tgt x.vE x.eff (some old) with
  | some p => s.onAx a fun y => { y with prof := p.1, exec := some { x with again := false, vEnd := p.2 } }
  | none => s.axStray a x.eff

/-- Homing is given up (R219). -/
def State.homeAbort (s : State) (a : Nat) : State :=
  if s.axState a = 3 then (s.setFld (MOTION.HOME_STS_STEP a) 5).fireAx a 3 else s

/-- Ends gearing when axis 3 leaves GEARED. -/
def State.gearOff (s : State) (a : Nat) : State :=
  if a = 3 ∧ s.axState a = 5 then s.setFlag MOTION.GEAR_STS_ENGAGED false else s

/-- STOP and QSTOP (R217): a jerk-limited ramp, then IDLE. -/
def State.axStop (s : State) (a : Nat) (quick : Bool) : State :=
  let st := s.axState a
  let af := (s.ax a).after
  if st = 0 ∨ st = 7 then s
  else if st = 1 then s.onAx a fun x => { x with queue := [] }
  else if st = 4 ∧ (af = 0 ∨ af = 3) then s
  else
    let s := s.homeAbort a
    let e := match (s.ax a).exec with
      | some x => (x.eff.d, x.eff.j)
      | none => (s.regN (MOTION.AX_QS_D a), s.regN (MOTION.AX_QS_J a))
    let e := if quick || st == 5 then (s.regN (MOTION.AX_QS_D a), s.regN (MOTION.AX_QS_J a)) else e
    (s.gearOff a).axRamp a 4 e.1 e.2 (if quick || st == 5 || (st == 4 && af == 2) then 2 else 1)

/-- AX_CFG.EN 1 → 0, and the entry to DARK (R216, R217). -/
def State.axDisable (s : State) (a : Nat) : State :=
  let st := s.axState a
  if st = 0 ∨ st = 7 then s
  else
    let s := s.homeAbort a
    (s.gearOff a).axRamp a 4 (s.regN (MOTION.AX_QS_D a)) (s.regN (MOTION.AX_QS_J a)) 0

/-- An item that takes effect at the axis's next tick. -/
def State.axPost (s : State) (a : Nat) (x : AxAct) : State := s.onAx a fun y => { y with acts := y.acts ++ [x] }

/-- Every axis at the entry to DARK. -/
def State.motionDark (s : State) : State := s.forAll (upto 4) fun a s => s.axPost a .disable

/-- The set-point of a stepper door that its microstep count stands for (R280, R286), units of 2^-32. -/
def State.stepSp (s : State) (a : Nat) : Int :=
  s.regI (DOOR.MS_CNT (a - 1)) * s.regN (MOTION.AX_FBSCALE a) * 65536 + (s.ax a).fbOff

/-- EN applied (R203): the axis enters IDLE at its present set-point, that of MS_CNT for a stepper door (R286). An axis that is still being
disabled is enabled once it is at rest. -/
def State.axEnable (s : State) (a : Nat) : State :=
  if s.axState a = 4 ∧ (s.ax a).after = 0 then s.onAx a fun x => { x with after := 3 }
  else if s.axState a ≠ 0 then s
  else
    let stepper := decide (a = 1 ∨ a = 2) && s.flag (DOOR.DRV_CFG_EN (a - 1)) && s.fld (DOOR.DRV_CFG_MODE (a - 1)) == 2
    let p := if a = 0 then s.fusedK else if stepper then s.stepSp a else (s.sp a).1
    let s := s.onAx a fun x => { x with prof := Prof.rest p }
    let s := (s.setFld (MOTION.AX_DONE_CNT a) 0).setFlag (MOTION.HOME_STS_HOMED a) false
    s.axIdle a

/-! ### Faults (R218) -/

/-- Enters FAULT: causes SAFE (6) and TRIP (7) stop the set-point where the load is, the others quick-stop. In an axis that is in FAULT already
SAFE and TRIP end its ramp and become the cause shown (assumption 35). -/
def State.axFault (s : State) (a cause : Nat) (at' : Option Int) : State :=
  let st := s.axState a
  if st = 0 then s
  else if st = 7 then
    -- a ramp of an earlier cause ends where the load is (R218)
    match at' with
    | none => s
    | some p =>
      let s := s.onAx a fun x => { x with prof := Prof.rest p, exec := none }
      if s.fld (MOTION.AX_FLAGS_FAULT a) = cause then s else (s.setFld (MOTION.AX_FLAGS_FAULT a) cause).fireAx a 2
  else
    let abort := decide (st = 3)
    let s := s.when abort fun s => s.setFld (MOTION.HOME_STS_STEP a) 5
    let s := s.gearOff a
    let s := match at' with
      | none => s.axRamp a 7 (s.regN (MOTION.AX_QS_D a)) (s.regN (MOTION.AX_QS_J a)) 7
      | some p => (s.onAx a fun x => { x with prof := Prof.rest p, exec := none, queue := [] }).setAxState a 7
    let s := (s.setFld (MOTION.AX_FLAGS_FAULT a) cause).fireAx a 2
    s.when abort fun s => s.fireAx a 3

/-- The feedback position of an axis, if it has one (µm, units of 2^-32). -/
def State.fbK (s : State) (a : Nat) : Option Int :=
  let src := s.fld (MOTION.AX_CFG_FB_SRC a)
  let x := s.ax a
  if src = 0 then none
  else if src ≤ 6 then some ((s.enc (src - 1)).tick * s.regN (MOTION.AX_FBSCALE a) * 65536 + x.fbOff)
  else if src = 7 then some (x.stepFb * s.regN (MOTION.AX_FBSCALE a) * 65536 + x.fbOff)
  else some s.fusedK

/-- Where the load stands: the fused position for axis 0, the feedback position for the others. -/
def State.loadK (s : State) (a : Nat) : Int := if a = 0 then s.fusedK else (s.fbK a).getD (s.sp a).1

/-- FAULT TRIP of a door axis: the set-point stops at the feedback position at the next tick. -/
def State.axTrip (s : State) (a : Nat) : State := s.onAx a fun x => { x with faultPend := some 7 }

/-- FAULT SAFE of axis 0: the set-point takes the fused position at the next tick. -/
def State.axSafe (s : State) : State := s.onAx 0 fun x => { x with faultPend := some 6 }

/-- Whether |FERR| exceeds its limit with the check enabled. -/
def State.ferrOver (s : State) (a : Nat) : Bool :=
  s.flag (MOTION.AX_CFG_FERR_EN a) && decide (s.regN (MOTION.AX_FERR_MAX a) < (s.regI (MOTION.FERR a)).natAbs)

/-- |FERR| has exceeded AX_FERR_MAX on 4 consecutive ticks (R218). -/
def execFerrFault (a : Fin 4) (t : Nat) (s : State) : Host.Outcome State Fault Refusal :=
  done (
    let s := s.atTime t
    if s.ferrOver a ∧ 4 ≤ (s.ax a).ferr then s.axFault a 1 none else s)

/-- The fault conditions of a tick, after its items (R218, R219). In FAULT for SAFE or TRIP the set-point follows the load (R217). -/
def State.axFaults (s : State) (a : Nat) : State :=
  let src := s.fld (MOTION.AX_CFG_FB_SRC a)
  let lost := (decide (1 ≤ src ∧ src ≤ 6) && s.flag (POS.ENC_STS_LOSS_NOW (src - 1))) || (src == 7 && (s.ax a).stepBad) ||
    (a == 3 && s.axState 3 == 5 && s.flag (POS.ENC_STS_LOSS_NOW (s.fld MOTION.GEAR_CFG_MASTER)))
  let s := match (s.ax a).faultPend with
    | some c => (s.onAx a fun x => { x with faultPend := none }).axFault a c (if c = 3 then none else some (s.loadK a))
    | none => s
  let s := s.when lost fun s => s.axFault a 2 none
  let s := s.when (a == 0 && s.posState == 4) fun s => s.axFault a 5 none
  let c := s.fld (MOTION.AX_FLAGS_FAULT a)
  s.when (s.axState a == 7 && (c == 6 || c == 7)) fun s => s.onAx a fun x => { x with prof := Prof.rest (s.loadK a) }

/-- CLR_FAULT with the axis at rest: IDLE. -/
def State.axClearFault (s : State) (a : Nat) : State :=
  if s.axState a = 7 then (s.setFld (MOTION.AX_FLAGS_FAULT a) 0).axIdle a else s

/-! ### Homing (R220, R221) -/

/-- A homing motion in direction DIR (or back) at a speed in mm/s. -/
def State.homeRun (s : State) (a v : Nat) (back : Bool) : State :=
  let up := s.flag (MOTION.HOME_CFG_DIR a) != back
  let e := (s.effOf a ⟨0, 0, v * 1000, 0, 0, 0, 0, false, 0⟩).1
  let tgt : Int := if up then 2 ^ 47 - 1 else -(2 ^ 47)
  s.axRun a 3 ⟨⟨6, 0, v * 1000, 0, 0, 0, 0, false, 0⟩, tgt, e, 0, true, e, false, 0⟩ false

/-- Homing ends DONE at rest. -/
def State.homeDone (s : State) (a : Nat) : State :=
  let s := (s.setFld (MOTION.HOME_STS_STEP a) 4).setFlag (MOTION.HOME_STS_HOMED a) true
  let s := s.when (decide (a = 1 ∨ a = 2)) fun s => s.setFlag (DOOR.DOOR_STS_UNSURE (a - 1)) false
  (s.axIdle a).fireAx a 3

/-- Shifts set-point and feedback of an axis (units of 2^-32). -/
def State.axShift (s : State) (a : Nat) (d : Int) : State :=
  s.onAx a fun x => { x with prof := { x.prof with p := x.prof.p + d }, fbOff := x.fbOff + d
                             spHist := x.spHist.map fun h => (h.1 + d, h.2) }

/-- MQ_CMD.HOME takes effect. -/
def State.homeStart (s : State) (a : Nat) : State :=
  let m := s.fld (MOTION.HOME_CFG_METHOD a)
  let here := (s.sp a).1
  let s := s.setFld (MOTION.HOME_STS_IGNORED a) 0
  let s := s.onAx a fun x => { x with home := ⟨here, s.now, none, [], none, false⟩ }
  if m = 0 then (s.axShift a (s.pos48 (MOTION.HOME_OFF_LO a) * kUnit - here)).homeDone a
  else (s.setFld (MOTION.HOME_STS_STEP a) 1).homeRun a (s.fld (MOTION.HOME_V_V1 a)) false

/-- Stops the homing motion with AX_DEF_D. -/
def State.homeStop (s : State) (a : Nat) : State :=
  let e := (s.effOf a ⟨0, 0, 0, 0, 0, 0, 0, false, 0⟩).1
  (s.axRamp a 3 e.d e.j 1).onAx a fun x => { x with home := { x.home with stopping := true } }

/-- The set-point position at an instant between the last two ticks (R158, R221), units of 2^-32. -/
def State.spAt (s : State) (a t : Nat) : Int :=
  let q := s.sp a
  let l := (s.ax a).spHist
  match l.find? fun h => decide (h.2.2 ≤ (t : Int)) with
  | some h =>
    match (l.takeWhile fun g => decide ((t : Int) < g.2.2)).getLast? with
    | some g => if g.2.2 = h.2.2 then h.1 else h.1 + ((g.1 - h.1) * ((t : Int) - h.2.2)).tdiv (g.2.2 - h.2.2)
    | none => h.1 + q.2.1 * ((t : Int) - h.2.2) / 1000000000
  | none => q.1

/-- An edge that homing uses: its captured position, and whether it is the reference edge; it takes effect at the next tick. -/
def State.homeMark (s : State) (a : Nat) (p : Int) (ref : Bool) : State :=
  s.onAx a fun x => { x with home := { x.home with edge := some (p, ref) } }

/-- A marked edge at its tick (R220, R221): the capture, the shift of the reference edge and the stop. `off` when EN := 0 applies at this
tick, and the edge is not used (R219). -/
def State.homeEdge (s : State) (a : Nat) (off : Bool) : State :=
  match (s.ax a).home.edge with
  | none => s
  | some (p, ref) =>
    let s := s.onAx a fun x => { x with home := { x.home with edge := none } }
    if off || s.axState a != 3 then s
    else
      let s := if s.fld (MOTION.HOME_STS_STEP a) = 2 then s else s.setPos48 (MOTION.HOME_CAP_LO a) (um (p / 65536))
      let s := if ref then s.axShift a (s.pos48 (MOTION.HOME_OFF_LO a) * kUnit - p) else s
      s.homeStop a

/-- DOOR reports stall for the axis: the reference edge of HARDSTOP. -/
def State.homeStall (s : State) (a : Nat) : State :=
  if s.axState a = 3 ∧ s.fld (MOTION.HOME_CFG_METHOD a) = 3 ∧ !(s.ax a).home.stopping then s.homeMark a (s.sp a).1 true else s

/-- An edge of field channel `c` at its comparator, as the limits of axis `a` read it (R221): the new level, its first sample and the
instant. It waits for the next tick (R202). -/
def execHomingEdge (a : Fin 4) (c : Fin 48) (lvl : Bool) (stamp t : Nat) (s : State) : Host.Outcome State Fault Refusal :=
  done (
    let s := s.atTime t
    if !s.flag (FIELD.CH_STS_VALID c) then s
    else s.onAx a fun x =>
      { x with home := { x.home with edges := x.home.edges ++ [⟨c, lvl, stamp, decide (stamp + 2000000 ≤ s.now), s.now⟩] } })

/-- An edge at its tick (R221): valid once the level has held for 2 ms; every edge of the expected limit within 50 ms after the latched one is
ignored, and a limit that was active when HOME applied is no edge. The opposite limit's fault comes after the items of the tick, and with
`off`, an EN := 0 among them, no edge is used (R219). -/
def State.homeJudge (s : State) (a : Nat) (off : Bool) (e : HomeEdge) : State :=
  let m := s.fld (MOTION.HOME_CFG_METHOD a)
  let h := (s.ax a).home
  let step := s.fld (MOTION.HOME_STS_STEP a)
  let exp := s.fld (MOTION.HOME_CFG_EXP_CH a) == e.c
  let opp := s.fld (MOTION.HOME_CFG_OPP_CH a) == e.c && s.flag (MOTION.HOME_CFG_OPP_EN a)
  let near := match h.latch with
    | some t0 => decide (t0 < e.stamp) && decide (e.stamp ≤ t0 + 50000000)
    | none => false
  if exp && near then (s.bump (MOTION.HOME_STS_IGNORED a) 1).raiseAx a (MOTION.AX_FLAGS_CHATTER a)
  else if off || !e.valid || s.axState a != 3 then s
  else if opp && e.lvl != s.flag (MOTION.HOME_CFG_OPP_POL a) then
    s.onAx a fun x => { x with faultPend := x.faultPend.orElse fun _ => some 3 }
  else
    let active := e.lvl != s.flag (MOTION.HOME_CFG_EXP_POL a)
    if !exp || (m != 1 && m != 2) || h.stopping || h.edge.isSome then s
    else if active && (step == 1 || step == 3) && decide (h.since < e.stamp) then
      (s.onAx a fun x => { x with home := { x.home with latch := some e.stamp } }).homeMark a (s.spAt a e.stamp) (m == 1 || step == 3)
    else if !active && step == 2 then s.homeMark a (s.spAt a e.stamp) false
    else s

/-- The edges that came before the tick, in order. -/
def State.homeEdges (s : State) (a : Nat) (off : Bool) : State :=
  let l := (s.ax a).home.edges
  let s := s.onAx a fun x => { x with home := { x.home with edges := l.filter fun e => decide (s.now ≤ e.at') } }
  (l.filter fun e => decide (e.at' < s.now)).foldl (fun s e => s.homeJudge a off e) s

/-- The homing stop has come to rest. -/
def State.homeRest (s : State) (a : Nat) : State :=
  let step := s.fld (MOTION.HOME_STS_STEP a)
  let v2 := s.fld (MOTION.HOME_V_V2 a)
  let s := s.onAx a fun x => { x with home := { x.home with stopping := false } }
  if s.fld (MOTION.HOME_CFG_METHOD a) = 4 then
    (s.onAx a fun x => { x with prof := Prof.rest s.fusedK }).homeDone a
  else if s.fld (MOTION.HOME_CFG_METHOD a) = 2 ∧ step = 1 then (s.setFld (MOTION.HOME_STS_STEP a) 2).homeRun a v2 true
  else if step = 2 then (s.setFld (MOTION.HOME_STS_STEP a) 3).homeRun a v2 false
  else s.homeDone a

/-! ### Reversal (R231) -/

/-- DOOR signals an obstruction: an armed axis reverses at the next tick. -/
def State.revSignal (s : State) (a : Nat) : State :=
  if s.flag (MOTION.AX_STS_REV_ARMED a) then s.onAx a fun x => { x with revPend := true } else s

def State.revFire (s : State) (a : Nat) : State :=
  if !(s.ax a).revPend then s
  else
    let s := s.onAx a fun x => { x with revPend := false }
    let st := s.axState a
    if st = 0 ∨ st = 7 ∨ !s.flag (MOTION.AX_STS_REV_ARMED a) then s
    else
      let s := (s.setFlag (MOTION.AX_STS_REV_ARMED a) false).homeAbort a
      let s := s.gearOff a
      let r : MoveReq := ⟨7, 0, min (s.regN (MOTION.REV_V a)) (2 ^ 31 - 1), 0, s.regN (MOTION.REV_D a), 0, s.fld (MOTION.AX_STS_TAG a), false, 0⟩
      let e := s.effOf a r
      let s := s.when e.2 fun s => s.raiseAx a (MOTION.AX_FLAGS_LIMITED a)
      let s := s.onAx a fun x => { x with queue := [], prevTgt := none }
      s.axRun a 6 ⟨r, s.pos48 (MOTION.REV_TGT_LO a), e.1, 0, true, e.1, false, 0⟩ false

/-! ### Queue at a tick (R206 to R215) -/

/-- The joint speed of R210 (units of 2^-32, magnitude) toward the next entry. -/
def State.joinSpeed (s : State) (a : Nat) (x : Exec) (n : MoveReq) : Int :=
  let e := (s.effOf a n).1
  let here := x.tgt
  let t := clampInt (s.softLo a) (s.softHi a) (s.rawTarget a n here)
  let from' := (s.sp a).1 / kUnit
  let up := decide (from' < here ∨ (from' = here ∧ 0 ≤ (s.sp a).2.1))
  let same := if up then decide (here < t) else decide (t < here)
  if !same then 0
  else
    let cap : Int := min x.eff.v e.v * kUnit
    let d : Int := (t - here).natAbs * kUnit
    if rampDist cap 0 0 e.a e.d e.j ≤ d then cap
    else bisect (fun v => decide (rampDist v 0 0 e.a e.d e.j ≤ d)) 70 0 cap

/-- A move ends (R206, R210): at its target exactly, with the joint speed and acceleration 0; AX_DONE and the event. -/
def State.moveEnd (s : State) (a : Nat) (x : Exec) : State :=
  let s := s.onAx a fun y => { y with prof := ⟨x.tgt * kUnit, x.vEnd, 0, 0, []⟩ }
  let s := (s.setFld (MOTION.AX_DONE_TAG a) x.req.tag).wrapAdd (MOTION.AX_DONE_CNT a) 1
  let s := s.when (decide (3 ≤ x.req.mode)) fun s => s.onMot fun m => { m with levelTgt := some x.tgt }
  let s := s.when (decide (x.req.mode = 2)) fun s => s.raiseAx a (MOTION.AX_FLAGS_SOFTLIM a)
  s.fireAx a 0

/-- Takes the entry at the head of the queue and starts it. -/
def State.axNext (s : State) (a : Nat) (x : Option Exec) : State :=
  let y := s.ax a
  match y.queue with
  | [] =>
    match x with
    | some _ => s.axIdle a
    | none => s
  | r :: rest => (s.onAx a fun y => { y with queue := rest }).axStart a r false

/-- What follows when the executing profile is complete; further entries that end at once follow at the same tick. -/
def State.axFinish (s : State) (a : Nat) : Nat → State
  | 0 => s
  | n + 1 =>
    let y := s.ax a
    match y.exec with
    | none => s
    | some x =>
      if s.axState a = 2 ∧ y.prof.segs = [] then ((s.moveEnd a x).axNext a (some x)).axFinish a n
      else s

/-- A change of limits meets the executing move (R214, R215). -/
def State.axLimits (s : State) (a segBefore : Nat) : State :=
  let y := s.ax a
  match y.exec with
  | none => s
  | some x =>
    let w := s.effOf a x.req
    let e := w.1
    let seg := y.prof.seg
    let changed := decide (e ≠ x.seen)
    let old := x.eff
    let x := { x with seen := e }
    let s := s.onAx a fun y => { y with exec := some x }
    let on := s.when changed fun s => s.onAx a fun y => { y with exec := some { x with again := true } }
    -- a deceleration that a turn follows is not the move's last (R212, R231)
    if 5 ≤ segBefore ∧ 5 ≤ seg then
      if y.prof.segs.any fun g => decide (g.id < 5) then on else s.when changed fun s => s.raiseAx a (MOTION.AX_FLAGS_LATE_LIMIT a)
    else if (changed && (segBefore == 4 || segBefore == 0)) || ((changed || x.again) && seg != segBefore) then
      (s.when w.2 fun s => s.raiseAx a (MOTION.AX_FLAGS_LIMITED a)).axReplan a { x with eff := e } old
    else on

/-- The decision point (R210, R211): the first tick at which the executing move decelerates toward its target. -/
def State.axJoint (s : State) (a : Nat) : State :=
  let y := s.ax a
  match y.exec with
  | none => s
  | some x =>
    if s.axState a ≠ 2 || x.fixed || decide (y.prof.seg < 5 ∧ y.prof.segs ≠ []) then s
    else
      let s := s.onAx a fun y => { y with exec := some { x with fixed := true } }
      if !x.req.blend || x.req.mode == 2 then s
      else match y.queue with
        | [] => s.raiseAx a (MOTION.AX_FLAGS_BLEND_LATE a)
        | n :: _ =>
          let v := s.joinSpeed a x n
          if v = 0 then s else s.axReplan a { x with fixed := true, vE := v } x.eff

/-- SYNC of axis 0 (R227): the set-point position takes the fused position at each tick of segment 4 and at each tick at rest. -/
def State.axSync (s : State) : State :=
  if !s.flag (MOTION.AX_CFG_SYNC 0) then s
  else
    let y := s.ax 0
    if y.prof.segs = [] then s.onAx 0 fun y => { y with prof := { y.prof with p := s.fusedK } }
    else if y.prof.seg = 4 then
      match y.exec with
      | some x =>
        let q := y.prof.at
        let s := s.onAx 0 fun y => { y with prof := Prof.from (s.fusedK, q.2.1, q.2.2) y.prof.segs }
        match s.axPlan 0 x.tgt x.vE x.eff (some x.eff) with
        | some p => s.onAx 0 fun y => { y with prof := p.1, exec := some { x with vEnd := p.2 } }
        | none => s.axStray 0 x.eff
      | none => s
    else s

/-- A replacement applies (R212): in place of the executing move, or at the head of the queue. On axes 1 to 3 a target short of where the
executing move's D and J would stop, or behind, is reached after a stop, with LIMITED. -/
def State.axReplace (s : State) (a : Nat) (r : MoveReq) : State :=
  let y := s.ax a
  match y.exec with
  | some x =>
    if s.axState a = 2 ∧ y.prof.segs ≠ [] then
      let q := s.sp a
      let here := um (q.1 / 65536)
      let tgt := clampInt (s.softLo a) (s.softHi a) (s.rawTarget a r (y.prevTgt.getD here)) * kUnit
      let stop := stopPos q x.eff.d x.eff.j
      let short := if q.2.1 < 0 then decide (stop < tgt) else if 0 < q.2.1 then decide (tgt < stop) else false
      if a ≠ 0 && short then (s.axStart a r true).raiseAx a (MOTION.AX_FLAGS_LIMITED a) else s.axStart a r false
    else s.onAx a fun y => { y with queue := r :: y.queue }
  | none => s.onAx a fun y => { y with queue := r :: y.queue }

/-! ### Gearing (R232 to R235) -/

def State.gearTerm (s : State) (m : Int) : Int :=
  let den : Int := s.fld MOTION.GEAR_RATIO_DEN
  let n := (m - s.mot.m0) * s.regN MOTION.GEAR_MSCALE * s.sfld MOTION.GEAR_RATIO_NUM
  if den = 0 then 0 else n.fdiv (den * 65536)

/-- Axis 3 engages at the tick (R232). -/
def State.gearStart (s : State) : State :=
  let m := (s.enc (s.fld MOTION.GEAR_CFG_MASTER)).tick
  if s.axState 3 ≠ 1 then s
  else
    let s := ((s.setAxState 3 5).setFlag MOTION.GEAR_STS_ENGAGED true).setFld MOTION.GEAR_STS_SWITCHES 0
    s.onMot fun g => { g with m0 := m, base := um ((s.sp 3).1 / 65536), mPrev := m }

/-- The set-point of a geared axis at the tick (R233, R234); no ratio switch with `still`, when the axis is leaving GEARED (R235). -/
def State.gearTick (s : State) (still : Bool) : State :=
  let m := (s.enc (s.fld MOTION.GEAR_CFG_MASTER)).tick
  let at' := s.pos48 MOTION.GEAR_AT_LO
  let p := s.mot.mPrev
  let cross := !still && s.flag MOTION.GEAR_STS_SW_ARMED && (decide (p < at' ∧ at' ≤ m) || decide (m ≤ at' ∧ at' < p))
  let s := s.when cross fun s =>
    let b := s.mot.base + s.gearTerm at'
    let s := s.onMot fun g => { g with base := b, m0 := at' }
    let s := s.setReg MOTION.GEAR_RATIO (s.reg MOTION.GEAR_NEXT)
    ((s.setFlag MOTION.GEAR_STS_SW_ARMED false).bump MOTION.GEAR_STS_SWITCHES 1).fireAx 3 3
  let sp := s.mot.base + s.gearTerm m
  let old : Int × Int × Int := ((s.ax 3).spHist.drop 7).headD (((s.ax 3).spHist.getLast?).getD (sp * kUnit, 0, 0))
  let v := (sp * kUnit - old.1) * 4000
  let acc := (v - old.2.1) * 4000
  let s := (s.onAx 3 fun x => { x with prof := ⟨sp * kUnit, v, acc, 0, []⟩ }).onMot fun g => { g with mPrev := m }
  if (s.regN (MOTION.AX_VMAX 3) : Int) * kUnit < (v.natAbs : Int) ∧ !s.flag (MOTION.AX_FLAGS_GEAR_FAST 3) then
    (s.setFlag (MOTION.AX_FLAGS_GEAR_FAST 3) true).fireAx 3 2
  else s

/-! ### The hoist reference (R222 to R226) -/

/-- The 46-byte payload of the frame. -/
def State.hrefPayload (s : State) : List Byte :=
  let st := s.axState 0
  let q := s.sp 0
  let quick := decide (st = 7 ∨ (st = 4 ∧ (s.ax 0).after ≠ 1)) && decide ((s.ax 0).prof.segs ≠ [])
  let v := if st = 7 then 0 else satInt 32 (um (q.2.1 / 65536))
  let fl := b2n (decide (st ≠ 0 ∧ st ≠ 7)) + 2 * b2n (st == 2) + 4 * b2n quick + 8 * b2n (s.flag (MOTION.AX_CFG_SYNC 0))
  let b := leBytes 1 1 ++ leBytes 1 fl ++ leBytes 2 s.mot.hrefSeq ++ leBytes 4 (s.now / 1000000000) ++
    leBytes 4 (s.now % 1000000000) ++ leBytes 8 (unsgn 64 (um (q.1 / 65536))) ++ leBytes 4 (unsgn 32 v) ++
    leBytes 4 (unsgn 32 (satInt 32 (um (q.2.2 / 65536)))) ++ leBytes 8 (unsgn 64 (um s.pos.x)) ++ leBytes 4 s.conf ++ leBytes 2 st
  b ++ leBytes 4 (crc32c b)

/-- The frame from the destination address to the payload; `src` is the port address. -/
def State.hrefFrame (s : State) (src : Nat) : List Byte :=
  let vlan := if s.flag MOTION.HREF_CFG_VLAN then
      beBytes 2 0x8100 ++ beBytes 2 (s.fld MOTION.HREF_CFG_PCP * 8192 + s.fld MOTION.HREF_CFG_VID) else []
  beBytes 6 (s.regN MOTION.HREF_MAC_LO + 2 ^ 32 * (s.regN MOTION.HREF_MAC_HI % 65536)) ++ beBytes 6 src ++ vlan ++
    beBytes 2 0x88B6 ++ s.hrefPayload

/-- The speed reference of the hoist, µm/s: 0 in FAULT. -/
def State.hrefV (s : State) : Int := if s.axState 0 = 7 then 0 else um ((s.sp 0).2.1 / 65536)

/-- The code on ball DAC0 and the step count and direction on HSTEP and HDIR: only a device that holds the claim drives them (R460). -/
def State.hoistBalls (s : State) : Option (Nat × Nat × Int × Bool) :=
  if s.drives && s.outputsOn then some (s.mot.dac, s.mot.dac1, s.mot.steps, s.mot.hdir) else none

/-- What leaves at t = 3.5 µs; `src` is the address of the port. -/
def State.hrefTick (s : State) (src : Nat) (p0 : Int) : State :=
  let mode := s.fld MOTION.HREF_CFG_MODE
  let s := s.onMot fun m => { m with hrefOut := false }
  if s.axState 0 = 0 then s
  else if mode = 1 then
    if s.mot.hrefWait = 0 then
      let f := s.hrefFrame src
      if s.drives then
        s.onMot fun m => { m with hrefLast := f, hrefOut := true, hrefSeq := (m.hrefSeq + 1) % 65536, hrefWait := s.fld MOTION.HREF_CFG_PER }
      else s.onMot fun m => { m with hrefWait := s.fld MOTION.HREF_CFG_PER }
    else s.onMot fun m => { m with hrefWait := m.hrefWait - 1 }
  else if mode = 2 then
    let fs : Int := s.fld MOTION.DAC_CFG_FS
    let d := if fs = 0 then 0 else (s.hrefV * 32767).fdiv (fs * 1000)
    s.onMot fun m => { m with dac := (clampInt 0 65535 ((s.fld MOTION.DAC_CFG_ZERO : Int) + d)).toNat }
  else if mode = 3 then
    let um' : Int := s.regN MOTION.STEP_CFG
    let p1 := (s.sp 0).1
    if um' = 0 ∨ s.axState 0 = 7 then s
    else
      let n := (p1 / 65536).fdiv um' - (p0 / 65536).fdiv um'
      s.onMot fun m => { m with steps := m.steps + n, hdir := if n = 0 then m.hdir else decide (n < 0) }
  else s

/-! ### Levelling (R229) -/

/-- Whether axis 0 stands off its landing by more than the threshold. -/
def State.relevOff (s : State) : Bool :=
  let l := s.fld POS.ZONE_STS_LANDING
  s.flag MOTION.RELEV_CFG_EN && s.axState 0 == 1 && (s.flag POS.ZONE_STS_ZF || s.flag POS.ZONE_STS_ZR) &&
    decide ((s.fld ⟨MOTION.LEVEL_CFG, 0, 16⟩ * 10 : Int) * oneUm < ((s.pos.x - s.mapPos l 0 * oneUm).natAbs : Int))

/-- Sets RELEV_REQ and fires source 163. -/
def State.relevRaise (s : State) : State :=
  let s := s.onMot fun m => { m with relDone := true }
  (s.raiseAx 0 (MOTION.AX_FLAGS_RELEV_REQ 0)).fireAx 0 3

/-- Whether the level error has exceeded its threshold for RELEV_CFG.T ms and has not been reported. -/
def State.relevLong (s : State) : Bool :=
  match s.mot.relSince with
  | some t0 => !s.mot.relDone && decide (t0 + s.fld MOTION.RELEV_CFG_T * 1000000 ≤ s.freeRun)
  | none => false

/-- The level error has exceeded its threshold for RELEV_CFG.T ms (R229). -/
def execRelevReq (t : Nat) (s : State) : Host.Outcome State Fault Refusal :=
  done (
    let s := s.atTime t
    if s.relevOff && s.relevLong then s.relevRaise else s)

def State.relevTick (s : State) : State :=
  if !s.relevOff then s.onMot fun m => { m with relSince := none, relDone := false }
  else
    let t0 := s.mot.relSince.getD s.freeRun
    let s := s.onMot fun m => { m with relSince := some t0 }
    s.when s.relevLong (·.relevRaise)

/-! ### The microstep count (R280) -/

def State.dr (s : State) (d : Nat) : DoorSt := mget (fun _ => DoorSt.reset) s.door.doors d
def State.setDr (s : State) (d : Nat) (x : DoorSt) : State :=
  { s with door := { s.door with doors := mput (fun _ => DoorSt.reset) s.door.doors d x } }
def State.onDr (s : State) (d : Nat) (f : DoorSt → DoorSt) : State := s.setDr d (f (s.dr d))

/-- The CRC-32C of a keeper slot, over MS_CNT and the MOVING bit (assumption 36). -/
def slotCrc (ms : Int) (moving : Bool) : Nat := crc32c (leBytes 4 (unsgn 32 ms) ++ leBytes 1 (b2n moving))

/-- What a valid keeper slot holds (R286). -/
def DoorSlot.read (x : DoorSlot) : Option (Int × Bool) :=
  if x.valid && x.crc == slotCrc x.ms x.moving then some (x.ms, x.moving) else none

/-- Queues a write of a door's keeper slot (R286). -/
def State.doorKeep (s : State) (d : Nat) (moving : Bool) : State :=
  let ms := s.regI (DOOR.MS_CNT d)
  s.onDr d fun x => { x with writes := x.writes ++ [⟨ms, moving, true, slotCrc ms moving⟩], restKept := !moving }

/-- The drive of a door is on: EN as the last tick applied it, or a disabled drive that has not stopped yet (R297). Its mode: 0 OFF, 1 FOC,
2 STEPPER; a drive that is on keeps the mode of its last tick. -/
def State.drvOn (s : State) (d : Nat) : Bool := (s.dr d).enOn || (s.dr d).closing
def State.drvMode (s : State) (d : Nat) : Nat := if s.drvOn d then (s.dr d).cmode else s.fld (DOOR.DRV_CFG_MODE d)

/-- A door's UNSURE rises (R285): for FB_SRC STEP the feedback is invalid at the tick while the axis is enabled. -/
def State.unsureRise (s : State) (d : Nat) : State :=
  let a := d + 1
  let up := !s.flag (DOOR.DOOR_STS_UNSURE d)
  let s := s.setFlag (DOOR.DOOR_STS_UNSURE d) true
  s.when (up && decide (s.axState a ≠ 0)) fun s => s.onAx a fun x => { x with stepBad := true }

/-- MS_CNT follows the set-point of the tick, by at most 512 microsteps (R280). -/
def State.msFollow (s : State) (d : Nat) : State :=
  let a := d + 1
  let ms := s.regI (DOOR.MS_CNT d)
  let s := s.onDr d fun x => { x with msOld := ms }
  if !(s.drvOn d && s.drvMode d == 2) then s
  else
    let sc : Int := s.regN (MOTION.AX_FBSCALE a)
    let tgt := if sc = 0 ∨ s.axState a = 0 then ms else (((s.sp a).1 - (s.ax a).fbOff) / 65536).fdiv sc
    let mv := clampInt (-512) 512 (tgt - ms)
    let s := s.setI (DOOR.MS_CNT d) (ms + mv)
    let s := s.onAx a fun x => { x with stepFb := ms + mv }
    let s := s.when (decide (mv ≠ 0) && (s.dr d).restKept) fun s => s.doorKeep d true
    s.when (mv ≠ tgt - ms) fun s => (s.stick (DOOR.DOOR_FLAGS_STP_FAST d)).unsureRise d

/-! ### The planning tick (R202) -/

/-- The registers of an axis at a tick. -/
def State.axShow (s : State) (a : Nat) : State :=
  let y := s.ax a
  let q := y.prof.at
  let s := s.setPos48 (MOTION.SP_POS_LO a) (um (q.1 / 65536))
  let s := (s.setI (MOTION.SP_VEL a) (satInt 32 (um (q.2.1 / 65536)))).setI (MOTION.SP_ACC a) (satInt 32 (um (q.2.2 / 65536)))
  let s := s.setFld (MOTION.AX_STS_QCNT a) y.queue.length
  let st := s.axState a
  let s := s.setFld (MOTION.AX_STS_SEG a) (if st = 0 ∨ st = 1 ∨ st = 5 then 0 else y.prof.seg)
  let s := if q.2.1 = 0 then s else s.setFlag (MOTION.AX_STS_DIR a) (decide (q.2.1 < 0))
  let fb := s.fbK a
  let s := match fb with
    | some f => (s.setPos48 (MOTION.FB_POS_LO a) (um (f / 65536))).setI (MOTION.FERR a) (satInt 32 (um ((f - q.1) / 65536)))
    | none => (s.setPos48 (MOTION.FB_POS_LO a) 0).setI (MOTION.FERR a) 0
  let dj := match y.exec with
    | some x => (x.eff.d, x.eff.j)
    | none => (s.regN (MOTION.AX_QS_D a), s.regN (MOTION.AX_QS_J a))
  let q1 := (y.prof.run uTick).at
  s.setPos48 (MOTION.STOP_POS_LO a) (um (if q.2.1 = 0 ∧ y.prof.segs = [] then q.1 / 65536 else stopPos q1 dj.1 dj.2 / 65536))

/-- An item takes effect at the tick (R207, R212, R217, R218, R220, R231, R232, R234). -/
def State.axAct (s : State) (a : Nat) (x : AxAct) : State :=
  match x with
  | .enable => s.axEnable a
  | .disable => s.axDisable a
  | .clearFault => s.axClearFault a
  | .flush =>
    let s := s.onAx a fun y => { y with queue := [] }
    match (s.ax a).exec with
    | some e => if s.axState a = 2 ∧ e.vE ≠ 0 then s.axReplan a { e with vE := 0 } e.eff else s
    | none => s
  | .stop => s.axStop a false
  | .qstop => s.axStop a true
  | .home => s.homeStart a
  | .replace r => s.axReplace a r
  | .push r => s.onAx a fun y => { y with queue := y.queue ++ [r] }
  | .arm b => s.setFlag (MOTION.AX_STS_REV_ARMED a) b
  | .gearOn => s.gearStart
  | .gearOff => if s.axState 3 = 5 then s.axStop 3 true else s
  | .gearArm => s.setFlag MOTION.GEAR_STS_SW_ARMED true

/-- Whether an item takes axis 3 out of GEARED. -/
def AxAct.leaves (x : AxAct) : Bool := x == .disable || x == .stop || x == .qstop || x == .gearOff

/-- The set-point of the tick as the motion so far gives it: the profile one tick on, or the geared position. -/
def State.axAdvance (s : State) (a : Nat) : State :=
  let st := s.axState a
  if st = 5 then
    -- a switch that is armed for this tick is judged at it (R134, R234)
    let s := s.when ((s.ax 3).acts.contains .gearArm) fun s =>
      (s.setFlag MOTION.GEAR_STS_SW_ARMED true).onAx 3 fun y => { y with acts := y.acts.filter fun x => x != .gearArm }
    s.gearTick ((s.ax 3).acts.any AxAct.leaves || (s.ax 3).faultPend.isSome || s.flag (POS.ENC_STS_LOSS_NOW (s.fld MOTION.GEAR_CFG_MASTER)))
  else if st = 2 ∨ st = 3 ∨ st = 4 ∨ st = 6 ∨ st = 7 then s.onAx a fun y => { y with prof := y.prof.run uTick }
  else s

/-- The items of a tick bring an entry to a blending move that ends at it, and that found none at its decision point: BLEND_LATE, and the entry
starts from rest (R219). `w` is the state before the items. -/
def State.blendLate (s w : State) (a : Nat) : State :=
  match (w.ax a).exec with
  | some x =>
    if w.axState a = 2 ∧ s.axState a = 2 ∧ (w.ax a).prof.segs = [] ∧ (w.ax a).queue = [] ∧ (s.ax a).queue ≠ [] ∧ x.req.blend ∧ x.req.mode ≠ 2 then
      (s.raiseAx a (MOTION.AX_FLAGS_BLEND_LATE a)).onAx a fun y => { y with exec := y.exec.map fun e => { e with fixed := true } }
    else s
  | none => s

/-- The items of the tick in order, then a fault, then the reversal trigger (R219). -/
def State.axItems (s : State) (a : Nat) : State :=
  let l := (s.ax a).acts
  let off := l.contains .disable
  let s := (s.homeEdges a off).homeEdge a off
  let s := s.onAx a fun y => { y with acts := [] }
  let w := s
  let s := l.foldl (fun s x => s.axAct a x) s
  let s := s.blendLate w a
  let s := (s.axFaults a).onAx a fun x => { x with stepBad := false }
  s.revFire a

/-- The queue at the tick: limits, hand-over of a speed move, ends and starts, joints (R206 to R215). -/
def State.axQueue (s : State) (a segBefore : Nat) : State :=
  let st := s.axState a
  let s := s.when (st == 6 || (st == 3 && !(s.ax a).home.stopping)) fun s => s.axLimits a segBefore
  let s : State := if s.axState a = 2 then
      let s := s.axLimits a segBefore
      let y := s.ax a
      match y.exec with
      | some x =>
        -- a speed move runs until the next entry starts
        if x.req.mode = 2 ∧ y.queue ≠ [] ∧ y.prof.segs ≠ [] then
          let s := (s.setFld (MOTION.AX_DONE_TAG a) x.req.tag).wrapAdd (MOTION.AX_DONE_CNT a) 1
          ((s.fireAx a 0).onAx a fun y => { y with prevTgt := none }).axNext a (some x)
        else s.axJoint a
      | none => s
    else s
  let s := s.axFinish a 20
  let s : State := if s.axState a = 1 then (s.axNext a none).axFinish a 20 else s
  s.axJoint a

/-- What a ramp that has come to rest leads to. -/
def State.axRest (s : State) (a : Nat) : State :=
  if (s.ax a).prof.segs ≠ [] then s
  else
    let st := s.axState a
    let rest := fun (p : Int) (s : State) => s.onAx a fun y => { y with prof := Prof.rest p }
    let here := (s.sp a).1
    if st = 4 then
      let s := rest here s
      let af := (s.ax a).after
      if af = 0 ∨ af = 3 then
        let s := (s.onAx a fun y => { y with queue := [], exec := none }).setAxState a 0
        if af = 3 then s.axEnable a else s
      else s.axIdle a
    else if st = 6 then
      (rest (match (s.ax a).exec with
        | some x => x.tgt * kUnit
        | none => here) s).axIdle a
    else if st = 7 then rest here s
    else if st = 3 ∧ (s.ax a).home.stopping then (rest here s).homeRest a
    else s

/-- The ends of a homing approach that need no edge: the terminal reference, and too long a travel without a reference edge, which the stops of
LIMIT2 before its second approach do not have yet (R220, R221). -/
def State.homeLimits (s : State) (a : Nat) : State :=
  let m := s.fld (MOTION.HOME_CFG_METHOD a)
  let step := s.fld (MOTION.HOME_STS_STEP a)
  if s.axState a ≠ 3 ∨ ((s.ax a).home.stopping ∧ !(m == 2 && decide (step = 1 ∨ step = 2))) then s
  else
    let d := s.regN (MOTION.HOME_MAXD a)
    if m = 4 ∧ s.pos.termRef ∧ s.posState = 3 then s.homeStop a
    else if (m ≠ 4 ∨ d ≠ 0) ∧ (d : Int) * kUnit < (((s.sp a).1 - (s.ax a).home.start).natAbs : Int) then s.axFault a 4 none
    else s

/-- One axis at a tick (R202): a motion that an item starts runs from the set-point of this tick. -/
def State.axTick (s : State) (a : Nat) : State :=
  let homing := s.axState a == 3
  let segBefore := (s.ax a).prof.seg
  let s := (((s.axAdvance a).axItems a).axQueue a segBefore).axRest a
  let s := s.when homing fun s => s.homeLimits a
  let s := if a = 0 then s.axSync else s
  let s := if a = 1 ∨ a = 2 then s.msFollow (a - 1) else s
  let s := s.axShow a
  let q := s.sp a
  let s := s.onAx a fun y => { y with spHist := ((q.1, q.2.1, (s.now : Int)) :: y.spHist).take 70 }
  -- following error
  let n := if s.ferrOver a then (s.ax a).ferr + 1 else 0
  let s := s.onAx a fun y => { y with ferr := min n 4 }
  s.when (decide (4 ≤ n)) fun s => s.axFault a 1 none

/-- MOTION at a tick; `src` is the address of the port that sends the hoist reference. -/
def State.motionTick (s : State) (src : Nat) : State :=
  let p0 := (s.sp 0).1
  let s := s.forAll (upto 4) fun a s => s.axTick a
  (s.hrefTick src p0).relevTick

/-- The state that the waiting items leave an axis in (R116, R207, R217). -/
def State.axSoon (s : State) (a : Nat) : Nat :=
  (s.ax a).acts.foldl (fun st x =>
    match x with
    | .enable => if st = 0 then 1 else st
    | .disable => if st = 0 ∨ st = 7 then st else 4
    | .clearFault => if st = 7 then 1 else st
    | .stop => if st = 0 ∨ st = 1 ∨ st = 7 then st else 4
    | .qstop => if st = 0 ∨ st = 1 ∨ st = 7 then st else 4
    | .home => if st = 1 ∧ s.fld (MOTION.HOME_CFG_METHOD a) ≠ 0 then 3 else st
    | .replace _ => if st = 1 then 2 else st
    | .push _ => if st = 1 then 2 else st
    | .gearOn => if st = 1 then 5 else st
    | .gearOff => if st = 5 then 4 else st
    | _ => st) (s.axState a)

end Sys2Proof.Machine
end

