-- ==== Sys2Proof/Machine/Keeper.lean ====
section
/-! DEFINITION. The keeper island's clock and log (R503 to R505). -/

namespace Sys2Proof.Machine

def State.onKeep (s : State) (f : KeepSt → KeepSt) : State := { s with keep := f s.keep }
def State.onSys (s : State) (f : SysSt → SysSt) : State := { s with sys := f s.sys }

/-- The real-time clock in ns. -/
def State.rtcNs (s : State) : Nat := (s.keep.rtcOff + s.freeRun).toNat

def State.rtcSec (s : State) : Nat := s.rtcNs / 1000000000 % 2 ^ 48

/-- The sub-second in 1/32 768 s. -/
def State.rtcSub (s : State) : Nat := s.rtcNs % 1000000000 * 32768 / 1000000000

/-- Sets the clock to an instant in ns. -/
def State.rtcSet (s : State) (ns : Int) : State := s.onKeep fun k => { k with rtcOff := ns - s.freeRun }

/-- The clock's registers. -/
def State.rtcShow (s : State) : State :=
  let t := s.rtcSec
  ((s.setN KEEPER.RTC_SEC_LO (t % 2 ^ 32)).setN KEEPER.RTC_SEC_HI (t / 2 ^ 32)).setN KEEPER.RTC_SUB s.rtcSub

def crc16Bits : Nat → Nat → Nat
  | 0, c => c
  | n + 1, c => crc16Bits n (if 32768 ≤ c then (c * 2 ^^^ 0x11021) % 65536 else c * 2)

/-- CRC-16 with polynomial 0x1021 and start 0xFFFF, not reflected (R505). -/
def crc16 (bs : List Byte) : Nat := bs.foldl (fun c b => crc16Bits 8 (c ^^^ (b.toNat * 256))) 0xFFFF

/-- A record of the keeper log; `hw` tells a record that the hardware writes (R505, R510). -/
def State.logRec (s : State) (kind detail data : Nat) (hw : Bool) : State :=
  let q := s.keep.nrec % 65536
  let b := leBytes 4 s.rtcSec ++ leBytes 2 s.rtcSub ++ leBytes 1 kind ++ leBytes 1 detail ++ leBytes 4 data ++ leBytes 2 q
  let rec' := b ++ leBytes 2 (crc16 b)
  let slot := s.fld KEEPER.LOG_STS_NEXT
  let s := s.forAll (upto 4) fun w s => s.setN (KEEPER.LOG (4 * slot + w)) (leNat ((rec'.drop (4 * w)).take 4))
  let s := s.onKeep fun k => { k with nrec := k.nrec + 1 }
  let s := (s.setFld KEEPER.LOG_STS_SEQ q).setFld KEEPER.LOG_STS_NEXT (slot + 1)
  let s := if slot = 255 then s.setFlag KEEPER.LOG_STS_FULL true else s
  let s := s.hwPush 51 rec'
  if hw then s.fire 254 else s

/-- A hardware record with the tide number as its DATA. -/
def State.logHw (s : State) (kind detail : Nat) : State := s.logRec kind detail (s.regN GALLERY.TIDE_NUM_LO) true

end Sys2Proof.Machine
end

