-- ==== Sys2Proof/Machine/Relief.lean ====
section
/-! DEFINITION. Relief of a lane (R146 to R153): its start, its failures and LOCKOUT, and the abort of a copy. -/

namespace Sys2Proof.Machine

def State.onGal (s : State) (f : GalSt → GalSt) : State := { s with gal := f s.gal }

/-- Sets LANE_STS.LAST_CAUSE. -/
def State.laneCause (s : State) (l c : Nat) : State := s.setFld (GALLERY.LANE_STS_LAST_CAUSE l) c

/-- A lane is judged from now on: it was heard on both paths at this instant (R144). -/
def State.charOn (s : State) (l : Nat) : State :=
  s.onGal fun g => { g with heard := mput zeroNat (mput zeroNat g.heard (2 * l) s.now) (2 * l + 1) s.now }

/-- The lane that relief is serving, if any. -/
def State.recipient (s : State) : Option Nat :=
  let r := s.fld GALLERY.RELIEF_STS_RECIPIENT
  if r < 3 then some r else none

/-- No relief is running. -/
def State.reliefIdle (s : State) : State :=
  let s := s.setN GALLERY.RELIEF_STS (setBits (setBits (s.regN GALLERY.RELIEF_STS) 0 4 15) 4 4 0)
  s.onGal fun g => { g with relief := ReliefSt.idle }

/-- The failures of a lane in the last hour (R153). -/
def State.failsOf (s : State) (l : Nat) : Nat :=
  s.gal.fails.countP fun f => f.1 == l && decide (s.now < f.2 + 3600000000000)

/-- Relief of a lane ends as a failure: the lane is REMOVED again, or LOCKOUT at the third failure in an hour (R153). -/
def State.reliefFail (s : State) (l cause : Nat) : State :=
  let s := s.onGal fun g =>
    { g with fails := (l, s.now) :: g.fails.filter (fun f => decide (s.now < f.2 + 3600000000000)) }
  let n := s.failsOf l
  let s := (s.setFld (GALLERY.LANE_STS_RELIEF_FAIL l) (min n 3)).laneCause l cause
  let s := (s.setLaneState l (if 3 ≤ n then 8 else 3)).onLane l fun x => { x with run := false }
  let s := if 3 ≤ n then s.logHw 0xB l else s
  -- after a copy that aborted, relief restarts from step 1 (R150); a lane in LOCKOUT waits for a new REQ
  let s := if cause = 5 ∨ 3 ≤ n then s.onGal fun g => { g with relPend := setBits g.relPend l 1 (b2n (decide (n < 3))) } else s
  s.reliefIdle

/-- The recipient of a copy loses its clock or its rail: a recipient fault during COPY (R153). -/
def State.copyFault (s : State) (l : Nat) : State :=
  if s.recipient = some l ∧ s.laneState l = 6 then s.reliefFail l 5 else s

/-- Relief ends without a failure: the lane stays REMOVED (R154). -/
def State.reliefStop (s : State) (l : Nat) : State :=
  ((s.setLaneState l 3).onLane l fun x => { x with run := false }).reliefIdle

/-- Relief of a lane starts with RESET (R146). -/
def State.reliefStart (s : State) (l : Nat) : State :=
  let s := s.setLaneState l 4
  let s := s.setFld (GALLERY.LANE_STS_SHADOW_CNT l) 0
  let s := s.setN GALLERY.RELIEF_STS (4 * l + 3)
  s.onGal fun g => { g with relief := ReliefSt.idle, relPend := setBits g.relPend l 1 0 }

/-- The donor: the lowest-lettered VOTING lane (R147). -/
def State.donor (s : State) : Option Nat := [0, 1, 2].find? fun l => s.laneState l == 0

end Sys2Proof.Machine
end

