-- ==== Sys2Proof/Machine/Ctrl.lean ====
section
/-! DEFINITION. The control engines (R237 to R264): sources, the run, the repetitive controller, the vote at OUT_PHASE, and
commits to CTRL. -/

namespace Sys2Proof.Machine

def State.eng (s : State) (l n : Nat) : EngSlot := mget (fun _ => EngSlot.reset) (s.lane l).eng n
def State.setEng (s : State) (l n : Nat) (e : EngSlot) : State :=
  s.onLane l fun x => { x with eng := mput (fun _ => EngSlot.reset) x.eng n e }
def State.onEng (s : State) (l n : Nat) (f : EngSlot → EngSlot) : State := s.setEng l n (f (s.eng l n))

/-- SL_STS.STATE: 0 DISABLED, 1 RAMPING, 2 RUNNING, 3 FAULT. -/
def State.slotState (s : State) (l n : Nat) : Nat := s.fld (CTRL.SL_STS_STATE l n)

/-- The engines of these lanes run: every lane that runs tides (R140), and a lane that holds its final copy (R149), in P0 and P1
(R263). -/
def State.engines (s : State) : List Nat :=
  if 1 < s.fld SYS.PWR_STS_STATE then []
  else [0, 1, 2].filter fun l => let st := s.laneState l; (decide (st ≤ 2 ∨ st = 7) || (st == 6 && s.gal.relief.phase == 5)) && !(s.lane l).clkLost && !(s.lane l).railHeld

/-- The result of an ADC channel (R272). -/
def State.adcRes (s : State) (n : Nat) : Int := (s.fld (DOOR.ADC_RAW_CODE n) : Int) - s.fld (DOOR.ADC_ZERO_CODE n)
def State.adcBad (s : State) (n : Nat) : Bool := bitB (s.fld DOOR.ADC_STS_INVALID) n

/-- The raw value of a source and whether it is bad (R243, R245). -/
def State.source (s : State) (l n c : Nat) : Int × Bool :=
  if c = 0 then (0, false)
  else if c = 1 then (s.regI (CTRL.SP_CONST l n), false)
  else if 0x10 ≤ c ∧ c ≤ 0x1F then (s.adcRes (c - 0x10), s.adcBad (c - 0x10))
  else if 0x20 ≤ c ∧ c ≤ 0x25 then ((s.enc (c - 0x20)).tick, s.flag (POS.ENC_STS_LOSS_NOW (c - 0x20)))
  else if 0x26 ≤ c ∧ c ≤ 0x2B then ((s.enc (c - 0x26)).diff, s.flag (POS.ENC_STS_LOSS_NOW (c - 0x26)))
  else if 0x30 ≤ c ∧ c ≤ 0x3F then
    let a := c % 4
    let off := s.axState a == 0
    (if c < 0x34 then s.pos48 (MOTION.SP_POS_LO a)
     else if c < 0x38 then s.regI (MOTION.SP_VEL a)
     else if c < 0x3C then s.regI (MOTION.SP_ACC a)
     else s.pos48 (MOTION.FB_POS_LO a), off)
  else if 0x40 ≤ c ∧ c ≤ 0x42 then
    let st := s.posState
    (if c = 0x40 then s.pos48 POS.FUS_POS_LO else if c = 0x41 then s.regI POS.FUS_VEL else s.regI POS.FUS_ACC,
     decide (st = 0 ∨ st = 1 ∨ st = 4))
  else if 0x50 ≤ c ∧ c ≤ 0x5F then
    let d := (c - 0x50) / 8
    let q := (c - 0x50) % 8
    (s.regI (DOOR.Q d q), bitB (s.dr d).bad q)
  else if 0x60 ≤ c ∧ c ≤ 0x6B then (s.regI (CTRL.SL_OUT l (c - 0x60)), s.slotState l (c - 0x60) == 3)
  else (0, true)

/-- Whether a source code is defined (R243). -/
def sourceOk (c : Nat) : Bool :=
  decide (c ≤ 1 ∨ (0x10 ≤ c ∧ c ≤ 0x2B) ∨ (0x30 ≤ c ∧ c ≤ 0x42) ∨ (0x50 ≤ c ∧ c ≤ 0x6B))


/-- A biquad (R247) with coefficients b0, b1, b2, a1, a2 at consecutive words from `k` on: output and new history. -/
def State.biquad (s : State) (k : Nat) (h : Int × Int × Int × Int) (x : Int) : Int × (Int × Int × Int × Int) :=
  let c := fun i => s.regI (k + 4 * i)
  let sum := c 0 * x + c 1 * h.1 + c 2 * h.2.1 - c 3 * h.2.2.1 - c 4 * h.2.2.2
  let y := satInt 32 (asr (satInt 64 sum) 29)
  (y, (x, h.1, y, h.2.2.1))

/-- Cells of a slot. -/
def State.rcN (s : State) (l n : Nat) : Nat := if s.flag (CTRL.RC_CFG_CELLS l n) then 1024 else 256

/-- The index of a run: its value, or none outside (R257). -/
def State.rcIndex (s : State) (l n : Nat) (e : EngSlot) (src : Int) : Option Nat :=
  let sp : Int := s.regN (CTRL.RC_SPAN l n)
  let m := s.fld (CTRL.RC_CFG_MODE l n)
  let cells : Int := s.rcN l n
  if sp = 0 then none
  else if m = 0 then some (((e.ph : Int) % sp) * cells / sp).toNat
  else
    let q := src - s.pos48 (CTRL.RC_ORG_LO l n)
    if m = 1 then (if 0 ≤ q ∧ q < sp then some (q * cells / sp).toNat else none)
    else some ((q % sp) * cells / sp).toNat

/-- The cell applied (R258). -/
def State.rcOut (s : State) (l n idx : Nat) (up : Bool) : Nat :=
  let cells : Int := s.rcN l n
  let lead : Int := s.fld (CTRL.RC_CFG_LEAD l n)
  let i : Int := if up then idx + lead else idx - lead
  if s.fld (CTRL.RC_CFG_MODE l n) = 1 then (clampInt 0 (cells - 1) i).toNat else (i % cells).toNat

/-- The integrator preset of a start (R250). -/
def State.iPreset (s : State) (l n : Nat) : Int :=
  let p := s.regI (CTRL.I_PRESET l n)
  if s.flag (CTRL.SL_CFG_ILIM_EN l n) then clampInt (s.regI (CTRL.I_LO l n)) (s.regI (CTRL.I_HI l n)) p else p

/-- Whether a source that the slot uses is bad (R251). -/
def State.slotBad (s : State) (l n : Nat) : Bool :=
  (s.source l n (s.fld (CTRL.SL_SRC_MEAS l n))).2 || (s.source l n (s.fld (CTRL.SL_SRC_SP l n))).2 ||
    (s.source l n (s.fld (CTRL.SL_SRC_FF l n))).2 ||
    (s.flag (CTRL.SL_CFG_RC_EN l n) && s.fld (CTRL.RC_CFG_MODE l n) != 0 && (s.source l n (s.fld (CTRL.SL_SRC_IDX l n))).2)

/-- A line of a lane's state outside DRAM that is written: for the parts 0 to 11 the state line of that slot (0), a line of 16 of its cells (from
1 on) or of its registers (from 65 on), for 12 the SAFE configuration (R148, R262). -/
def State.dirtyLine (s : State) (l n k : Nat) : State :=
  s.onLane l fun x => if x.engDirty.contains (n, k) then x else { x with engDirty := x.engDirty ++ [(n, k)] }

/-- The lines of a slot's cells from `a` up to `b` are written. -/
def State.dirtyCells (s : State) (l n a b : Nat) : State :=
  s.forAll (upto ((b + 15) / 16 - a / 16)) fun i s => s.dirtyLine l n (1 + a / 16 + i)

/-- Sets a flag of SL_STS; answers also whether it rose. -/
def State.raiseSl (s : State) (f : Fld) (b : Bool) : State × Bool :=
  if b then (s.stick f, !s.flag f) else (s, false)

/-- What a run fixes first: the destination and the phase of its output (R254), its count, CLR_FAULT, after which a mismatch of the last run
is the first of a new pair (R261), and its dirty state line (R262). -/
def State.runBegin (s : State) (l n : Nat) : State :=
  let e := s.eng l n
  let s := s.setN (CTRL.SL_RUNS l n) (if e.runs0 then 1 else s.regN (CTRL.SL_RUNS l n) + 1)
  let out := decide (s.slotState l n = 3) && e.clrF
  let s := s.when out fun s => s.setFld (CTRL.SL_STS_STATE l n) 0
  let s := s.setEng l n { e with runs0 := false, clrF := false, start := e.start || out, mis := if out then min e.mis 1 else e.mis
                                 due := true, live := true, at' := s.now, dst := s.fld (CTRL.SL_DST_DST l n)
                                 phase := s.fld (CTRL.SL_CFG_OUT_PHASE l n) }
  let s := s.onLane l fun x => { x with tally := { x.tally with runs := x.tally.runs + 1 } }
  s.dirtyLine l n 0

/-- A run of slot `n` on lane `l` (R246 to R261); answers the sources it raises. -/
def State.slotRun (s : State) (l n : Nat) : State × List Nat :=
  let s := s.runBegin l n
  let e := s.eng l n
  let cfg := fun (f : Nat → Nat → Fld) => s.flag (f l n)
  let st := s.slotState l n
  let frozen := fun (s : State) (c : Nat) =>
    (s.setFlag (CTRL.SL_STS_FROZEN l n) (c != 0)).setFld (CTRL.SL_STS_FRZ_CAUSE l n) c
  let rcEn := cfg CTRL.SL_CFG_RC_EN
  let safe := fun (s : State) =>
    let s := s.setReg (CTRL.SL_OUT l n) (s.reg (CTRL.OUT_SAFE l n))
    frozen (s.onEng l n fun e => { e with ran := none }) (if !rcEn then 0 else if cfg CTRL.RC_CFG_FREEZE then 1 else 2)
  if st = 3 then (safe s, [])
  else if s.slotBad l n || decide (2 ≤ e.mis) then
    ((safe (s.setFld (CTRL.SL_STS_STATE l n) 3)), [176])
  else
    let sh := s.fld (CTRL.SL_SHIFT_SHIFT l n)
    let m := satInt 32 (asr (s.source l n (s.fld (CTRL.SL_SRC_MEAS l n))).1 sh)
    let spv := satInt 32 (asr (s.source l n (s.fld (CTRL.SL_SRC_SP l n))).1 sh)
    let ffv := satInt 32 (asr (s.source l n (s.fld (CTRL.SL_SRC_FF l n))).1 (s.fld (CTRL.SL_SHIFT_FFSHIFT l n)))
    let start := e.start || st == 0
    let e := if start then { e with h0 := (0, 0, 0, 0), h1 := (0, 0, 0, 0), lim := 0, ph := 0 } else e
    let i0 := if start || e.clrI then s.iPreset l n else s.regI (CTRL.SL_I l n)
    let b0 := cfg CTRL.SL_CFG_BQ0_EN
    let onErr := cfg CTRL.SL_CFG_BQ0_ERR
    let f0 := if b0 && !onErr then s.biquad (CTRL.BQ0_B0 l n) e.h0 m else (m, e.h0)
    let m := f0.1
    let ramping := if start then cfg CTRL.SL_CFG_RAMP_EN else st == 1
    let rate : Int := s.regN (CTRL.RAMP_RATE l n)
    let q0 := if start then m else e.q
    let q := if ramping then q0 + clampInt (-rate) rate (spv - q0) else e.q
    let sp := if ramping then q else spv
    let er := satInt 32 (sp - m)
    let f0 := if b0 && onErr then s.biquad (CTRL.BQ0_B0 l n) f0.2 er else (f0.1, f0.2)
    let er := if b0 && onErr then f0.1 else er
    let x := if cfg CTRL.SL_CFG_DMEAS then satInt 32 (-m) else er
    let xp := if start then x else e.xp
    let g := fun (k : Nat) (v : Int) => satInt 32 (asr (s.regI k * v) 16)
    let p := g (CTRL.KP l n) er
    let d := g (CTRL.KD l n) (x - xp)
    let ff := g (CTRL.KFF l n) ffv
    let hold := cfg CTRL.SL_CFG_AW && decide (0 < e.lim * er.sign)
    let t := g (CTRL.KI l n) er
    let lo := s.regI (CTRL.I_LO l n)
    let hi := s.regI (CTRL.I_HI l n)
    let ilim := cfg CTRL.SL_CFG_ILIM_EN
    let i1 := if hold then i0 else if ilim then clampInt lo hi (i0 + t) else sgn 32 (unsgn 32 (i0 + t))
    let iAct := !hold && ilim && decide (i1 ≠ i0 + t)
    let wrapped := !hold && !ilim && decide (i1 ≠ i0 + t)
    -- the repetitive controller
    let mode := s.fld (CTRL.RC_CFG_MODE l n)
    let idx := if rcEn then s.rcIndex l n e (s.source l n (s.fld (CTRL.SL_SRC_IDX l n))).1 else none
    let up := match idx, e.idx with
      | some a, some b => if mode = 0 ∨ b < a then true else if a < b then false else e.up
      | _, _ => if mode = 0 then true else e.up
    let r : Int := match idx with
      | some a => if cfg CTRL.RC_CFG_APPLY then s.regI (CTRL.CELL l n (s.rcOut l n a up)) else 0
      | none => 0
    let u := satInt 32 (p + i1 + d + ff + r)
    let f1 := if cfg CTRL.SL_CFG_BQ1_EN then s.biquad (CTRL.BQ1_B0 l n) e.h1 u else (u, e.h1)
    let u := f1.1
    let oLo := s.regI (CTRL.OUT_LO l n)
    let oHi := s.regI (CTRL.OUT_HI l n)
    let lim : Int := if oHi < u then 1 else if u < oLo then -1 else 0
    let u := clampInt oLo oHi u
    let emax := s.regN (CTRL.RC_EMAX l n)
    let frz :=
      if !rcEn then 0
      else if cfg CTRL.RC_CFG_FREEZE then 1
      else if ramping then 2
      else if emax ≠ 0 ∧ emax < er.natAbs then 3
      else if lim ≠ 0 then 4
      else if mode ≠ 0 ∧ idx.isSome ∧ idx = e.ran then 5
      else if idx.isNone then 6 else 0
    let s := match idx with
      | some a =>
        if rcEn && frz == 0 && !e.fresh.contains a then
          let c := s.regI (CTRL.CELL l n a)
          let f := s.fld (CTRL.RC_CFG_FORGET l n)
          let c := if 0 < f then c - asr c f else c
          s.setI (CTRL.CELL l n a) (satInt 32 (c + g (CTRL.RC_GAIN l n) er))
        else s
      | none => s
    let emaxRise := decide (frz = 3) && s.fld (CTRL.SL_STS_FRZ_CAUSE l n) != 3
    let s := frozen s frz
    let runs := ramping && decide (q = spv)
    let s := s.setFld (CTRL.SL_STS_STATE l n) (if ramping && !runs then 1 else 2)
    let a := s.raiseSl (CTRL.SL_STS_LIMITED l n) (lim != 0)
    let b := a.1.raiseSl (CTRL.SL_STS_WRAP l n) wrapped
    let c := b.1.raiseSl (CTRL.SL_STS_ILIMIT l n) iAct
    let s := ((c.1.setI (CTRL.SL_OUT l n) u).setI (CTRL.SL_ERR l n) er).setI (CTRL.SL_I l n) i1
    let s := match idx with
      | some k => s.setN (CTRL.SL_RCIDX l n) k
      | none => s
    let s := s.setEng l n { e with xp := x, lim := lim, q := q, h0 := f0.2, h1 := f1.2, ph := e.ph + 1,
                                   idx := if idx.isSome then idx else e.idx, ran := idx, up := up, start := false, clrI := false }
    let s := match idx with
      | some a => s.dirtyLine l n (1 + a / 16)
      | none => s
    (s, (if a.2 then [177] else []) ++ (if b.2 then [178] else []) ++ (if c.2 then [179] else []) ++
      (if runs then [180] else []) ++ (if emaxRise then [181] else []))

/-- The tick number (R237). -/
def State.tickNo (s : State) : Nat := s.now / 31250

/-- Whether a slot is due at a tick (R238). -/
def State.slotDue (s : State) (l n : Nat) : Bool :=
  s.flag (CTRL.SL_CFG_EN l n) && s.tickNo % 16 % 2 ^ s.fld (CTRL.SL_CFG_DIV l n) == s.fld (CTRL.SL_CFG_PHASE l n)

/-- A source fires with the stamp of a tick (R264). -/
def State.fireAt (s : State) (src t : Nat) : State :=
  let x := State.fire { s with now := t } src
  { x with now := s.now }

/-- Fires the sources that at least two voting engines raise, or both in 2oo2 (R264). -/
def State.fireVoted (s : State) (raised : List (Nat × List Nat)) (t : Nat) : State :=
  s.forAll [176, 177, 178, 179, 180, 181, 182] fun src s =>
    let n := raised.countP fun p => s.votes p.1 && p.2.contains src
    if 2 ≤ n then s.fireAt src t else s

/-! ### Consumers (R252, R253) -/

/-- The value that a consumer applies from the outputs of the voting engines of slot `n`. -/
def State.slotVote (s : State) (n : Nat) : Option Word :=
  let vs := s.voters.map fun l => s.reg (CTRL.SL_OUT l n)
  if vs.length < 2 then none else vs.find? fun v => decide (2 ≤ vs.countP (· == v))

/-- A destination takes a value: a door engine input (a voltage with the angle of its tick), or a DAC. -/
def State.deliver (s : State) (dst : Nat) (v : Word) : State :=
  let code := (asr v.toInt 16 + 32768).toNat
  if 0x10 ≤ dst ∧ dst ≤ 0x1F then
    let d := (dst - 0x10) / 8
    let n := (dst - 0x10) % 8
    s.onDr d fun x =>
      let i := mget (fun _ => EngIn.none) x.ins n
      let young := decide (s.now < i.at' + 500)
      let t := s.tickAt.getD 0
      { x with ins := mput (fun _ => EngIn.none) x.ins n ⟨v, if young then i.old else i.new, s.now, if young then i.was else i.at'⟩,
               angleOld := if n ≤ 1 ∧ x.angle.tick ≠ t then x.angle else x.angleOld,
               angle := if n ≤ 1 then ⟨x.theta, x.omega, t⟩ else x.angle }
  else if dst = 0x20 then s.onMot fun m => { m with dac1 := code }
  else if dst = 0x21 then s.onMot fun m => { m with dac := code }
  else s

/-- The tick, the destination and the phase of a waiting output of slot `n`, as at least two engines of voting lanes hold them, else as the
lowest-lettered one does: the Bool says which (R253, R254). -/
def State.slotOut (s : State) (n : Nat) : Option ((Nat × Nat × Nat) × Bool) :=
  let l := s.voters.filterMap fun l => let e := s.eng l n; if e.due then some (e.at', e.dst, e.phase) else none
  match l.find? fun x => decide (2 ≤ l.countP (· == x)) with
  | some x => some (x, true)
  | none => l.head?.map fun x => (x, false)

/-- The consumer at `dst` votes the engines' outputs of slot `n`, of the run at tick `tk`, and applies the result (R253); destination NONE
has no consumer and no vote (R252). Where no two engines `agree` on where the output goes, the run is mismatched. -/
def State.outVote (s : State) (n tk dst : Nat) (agree : Bool) : State :=
  let s := if dst = 0 ∧ agree then s.forAll [0, 1, 2] fun l s => s.onEng l n fun e => { e with mis := 0 } else match if agree then s.slotVote n else none with
    | some v =>
      let s := s.deliver dst v
      s.forAll [0, 1, 2] fun l s =>
        let same := s.reg (CTRL.SL_OUT l n) == v
        let s := s.onEng l n fun e => { e with mis := 0 }
        if same then s
        else if s.votes l then s.stick (CTRL.SL_STS_MINOR l n)
        else if s.laneState l = 7 then s.reliefFail l 6
        else s
    | none =>
      let rose := [0, 1, 2].map fun l => (l, if s.flag (CTRL.SL_STS_MIS l n) then [] else [182])
      let s := s.forAll [0, 1, 2] fun l s =>
        ((s.stick (CTRL.SL_STS_MIS l n)).bumpReg (CTRL.ENG_MIS l) 1).onEng l n fun e => { e with mis := e.mis + 1 }
      s.fireVoted rose tk
  s.forAll [0, 1, 2] fun l s => s.onEng l n fun e => { e with due := false }

/-- OUT_PHASE of slot `n` (R240): 250 ns times the phase after the tick of the run, both as that tick fixed them. -/
def State.outPhase (s : State) (n : Nat) : State :=
  match s.slotOut n with
  | none => s
  | some x => if s.now = x.1.1 + 250 * x.1.2.2 then s.outVote n x.1.1 x.1.2.1 x.2 else s

def execOutPhase (n : Fin 12) (t : Nat) (s : State) : Host.Outcome State Fault Refusal := done ((s.atTime t).outPhase n)

/-- The staged items of lane `l` that act on cells, and on slots that do not run, take effect at the tick (R254, R260, R261): its
clearings and preloads; EN that fell, whose output is OUT_SAFE from this tick; CLR_FAULT of a disabled slot. -/
def State.slotTake (s : State) (l n : Nat) : State :=
  let e := s.eng l n
  let s := s.when e.clrCells fun s =>
    ({ s with regs := merase s.regs (CTRL.CELL l n 0) (CTRL.CELL l n 1024) } : State).dirtyCells l n 0 (s.rcN l n)
  let s := e.pre.foldl (fun s p => (s.setReg (CTRL.CELL l n p.1) p.2).dirtyLine l n (1 + p.1 / 16)) s
  let s := s.when (e.clrCells || !e.pre.isEmpty) fun s => s.onEng l n fun e =>
    { e with clrCells := false, pre := [], fresh := e.pre.map (·.1) ++ e.fresh }
  if s.flag (CTRL.SL_CFG_EN l n) then s
  else
    let s := s.when e.clrF fun s => (s.setFld (CTRL.SL_STS_STATE l n) 0).onEng l n fun e => { e with clrF := false, mis := min e.mis 1 }
    if !e.live then s
    else
      let s := s.setReg (CTRL.SL_OUT l n) (s.reg (CTRL.OUT_SAFE l n))
      let s := if s.slotState l n = 3 then s else s.setFld (CTRL.SL_STS_STATE l n) 0
      s.onEng l n fun e => { e with
        live := false, due := true, at' := s.now, dst := s.fld (CTRL.SL_DST_DST l n), phase := s.fld (CTRL.SL_CFG_OUT_PHASE l n) }

/-- The engines at a tick (R239). The consumer of a slot that was disabled receives OUT_SAFE at once (R261). -/
def State.ctrlTick (s : State) : State :=
  let lanes := s.engines
  let s := s.forAll [0, 1, 2] fun l s => s.forAll (upto 12) fun n s => s.slotTake l n
  let s := s.forAll (upto 12) fun n s =>
    let out : State × List (Nat × List Nat) := lanes.foldl (fun (p : State × List (Nat × List Nat)) l =>
      if p.1.slotDue l n then
        let q := p.1.slotRun l n
        (q.1, p.2 ++ [(l, q.2)])
      else p) (s, [])
    let s := out.1.fireVoted out.2 s.now
    match s.slotOut n with
    | none => s
    | some x =>
      if x.1.1 = s.now ∧ 2 ≤ s.voters.countP (fun l => !s.flag (CTRL.SL_CFG_EN l n)) then s.outVote n x.1.1 x.1.2.1 x.2 else s
  s.forAll [0, 1, 2] fun l s => s.forAll (upto 12) fun n s =>
    if (s.eng l n).fresh.isEmpty then s else s.onEng l n fun e => { e with fresh := [] }

/-- Every enabled slot starts at its next run (R263). -/
def State.ctrlRestart (s : State) : State :=
  s.forAll [0, 1, 2] fun l s => s.forAll (upto 12) fun n s =>
    if s.flag (CTRL.SL_CFG_EN l n) then s.onEng l n fun e => { e with start := true } else s

/-! ### Commits -/

/-- The cost of a run (R241). -/
def State.slotCost (s : State) (l n : Nat) : Nat :=
  160 + 60 * b2n (s.flag (CTRL.SL_CFG_BQ0_EN l n)) + 60 * b2n (s.flag (CTRL.SL_CFG_BQ1_EN l n)) +
    160 * b2n (s.flag (CTRL.SL_CFG_RC_EN l n)) + 30 * b2n (s.flag (CTRL.SL_CFG_RAMP_EN l n))

/-- The summed cost C(p, n) of the slots due at period index `p` up to slot `n`. -/
def State.costTo (s : State) (l p n : Nat) : Nat :=
  ((upto (n + 1)).filter fun k =>
    s.flag (CTRL.SL_CFG_EN l k) && p % 2 ^ s.fld (CTRL.SL_CFG_DIV l k) == s.fld (CTRL.SL_CFG_PHASE l k)).foldl
      (fun a k => a + s.slotCost l k) 0

/-- The schedule check of R242. -/
def State.schedOk (s : State) (l : Nat) : Bool :=
  (upto 16).all fun p => (upto 12).all fun n =>
    !(s.flag (CTRL.SL_CFG_EN l n) && p % 2 ^ s.fld (CTRL.SL_CFG_DIV l n) == s.fld (CTRL.SL_CFG_PHASE l n)) ||
      decide (s.costTo l p n * 10000 + 350 * 49104 ≤ s.fld (CTRL.SL_CFG_OUT_PHASE l n) * 25 * 49104)

/-- ENG_LOAD of the schedule in effect. -/
def State.engLoad (s : State) (l : Nat) : State :=
  let best := (upto 16).foldl (fun (b : Nat × Nat) p => let c := s.costTo l p 11; if b.2 < c then (p, c) else b) (0, 0)
  (s.setFld (CTRL.ENG_LOAD_WORST_P l) best.1).setFld (CTRL.ENG_LOAD_CYCLES l) best.2

/-- The check of a register item in CTRL of lane `l`. -/
def ctrlCheck (s : State) (l o : Nat) (m v : Word) : Nat :=
  let x := v.toNat
  if o < 0xC00 then
    let n := o / 0x100
    let r := o % 0x100
    if r = 0 then
      let bad := (tch m 28 3 || tch m 24 4) && decide (2 ^ bitsOf x 28 3 ≤ bitsOf x 24 4)
      if !inRanges m v [(28, 3, 0, 4), (0, 7, 14, 124)] || bad then cRange else 0
    else if r = 4 then
      if [0, 8, 16, 24].all fun k => !tch m k 8 || sourceOk (bitsOf x k 8) then 0 else cRange
    else if r = 0xC then
      let d := bitsOf x 0 8
      firstCause [(tch m 0 8 && !(decide (d = 0 ∨ (0x10 ≤ d ∧ d ≤ 0x12) ∨ (0x18 ≤ d ∧ d ≤ 0x1A) ∨ d = 0x20 ∨ d = 0x21)), cRange),
        (decide (d = 0x21) && s.fld MOTION.HREF_CFG_MODE == 2, cState)]
    else if r = 0x68 then
      let lead := (tch m 16 10 || tch m 29 1) && decide ((if wbit v 29 then 1024 else 256) ≤ bitsOf x 16 10)
      if !inRanges m v [(30, 2, 0, 2)] || lead then cRange else 0
    else if r = 0x80 then
      let c := v &&& m
      firstCause [(wbit c 1 && !s.flag (CTRL.SL_CFG_EN l n), cState),
        (wbit c 0 && s.slotState l n == 3 && s.slotBad l n, cState)]
    else 0
  else if 0x2000 ≤ o ∧ o < 0xE000 then
    let n := (o - 0x2000) / 0x1000
    if s.rcN l n ≤ (o % 0x1000) / 4 then cRange else 0
  else 0

/-- What a group leaves in CTRL of lane `l` (R242, R249, R250, R252, R257, R260). -/
def ctrlGroup (s0 s : State) (l : Nat) : Nat :=
  let moved := fun (k : Nat) => s0.reg k != s.reg k
  let any := (upto 12).any
  let bounds := any fun n =>
    (moved (CTRL.SL_CFG l n) || moved (CTRL.I_LO l n) || moved (CTRL.I_HI l n) || moved (CTRL.OUT_LO l n) || moved (CTRL.OUT_HI l n)) &&
      ((s.flag (CTRL.SL_CFG_ILIM_EN l n) && decide (s.regI (CTRL.I_HI l n) < s.regI (CTRL.I_LO l n))) ||
       decide (s.regI (CTRL.OUT_HI l n) < s.regI (CTRL.OUT_LO l n)))
  let ramp := any fun n =>
    (moved (CTRL.SL_CFG l n) || moved (CTRL.RAMP_RATE l n)) && s.flag (CTRL.SL_CFG_RAMP_EN l n) && s.reg (CTRL.RAMP_RATE l n) == 0
  let span := any fun n =>
    (moved (CTRL.SL_CFG l n) || moved (CTRL.RC_SPAN l n)) && s.flag (CTRL.SL_CFG_RC_EN l n) && decide (s.regN (CTRL.RC_SPAN l n) < 16)
  let dst := any fun n => (moved (CTRL.SL_CFG l n) || moved (CTRL.SL_DST l n)) && s.flag (CTRL.SL_CFG_EN l n) &&
    s.fld (CTRL.SL_DST_DST l n) != 0 &&
    (upto 12).any fun k => k != n && s.flag (CTRL.SL_CFG_EN l k) && s.fld (CTRL.SL_DST_DST l k) == s.fld (CTRL.SL_DST_DST l n)
  let rc := any fun n =>
    s0.flag (CTRL.SL_CFG_RC_EN l n) && s.flag (CTRL.SL_CFG_RC_EN l n) &&
      (moved (CTRL.RC_SPAN l n) || s0.fld (CTRL.RC_CFG_MODE l n) != s.fld (CTRL.RC_CFG_MODE l n) ||
        s0.fld (CTRL.RC_CFG_CELLS l n) != s.fld (CTRL.RC_CFG_CELLS l n))
  let sched := (any fun n => moved (CTRL.SL_CFG l n)) && !s.schedOk l
  if bounds || ramp || span || dst then cRange else if rc then cState else if sched then cSchedule else 0

/-- The effect of a register item in CTRL of lane `l`. -/
def ctrlApply (s : State) (l o : Nat) (m old new cmd : Word) : State :=
  if o < 0xC00 then
    let n := o / 0x100
    let r := o % 0x100
    if r = 0 then
      (s.when (wbit new 31 && !wbit old 31) fun s => s.onEng l n fun e => { e with start := true, runs0 := true, live := true }).engLoad l
    else if r = 0x78 then s.setI (CTRL.RC_ORG_HI l n) (sgn 16 new.toNat)
    else if r = 0x68 then
      if wbit old 29 && !wbit new 29 then
        (({ s with regs := merase s.regs (CTRL.CELL l n 256) (CTRL.CELL l n 1024) } : State).onEng l n fun e =>
          { e with pre := e.pre.filter fun p => decide (p.1 < 256) }).dirtyCells l n 256 1024
      else s
    else if r = 0x80 then
      let s := s.when (wbit cmd 4) fun s => s.onEng l n fun e => { e with clrI := true }
      let s := s.when (wbit cmd 3) fun s => s.onEng l n fun e => { e with clrCells := true, pre := [] }
      let s := s.when (wbit cmd 2) fun s => s.setFld ⟨CTRL.SL_STS l n, 6, 5⟩ 0
      let s := s.when (wbit cmd 1) fun s => s.onEng l n fun e => { e with start := true }
      s.when (wbit cmd 0) fun s => s.onEng l n fun e => { e with clrF := true }
    else s
  else if 0x2000 ≤ o ∧ o < 0xE000 then
    let n := (o - 0x2000) / 0x1000
    let i := (o % 0x1000) / 4
    let base := ((s.eng l n).pre.find? fun p => p.1 == i).elim old (·.2)
    let v := (base &&& ~~~m) ||| (new &&& m)
    (s.setReg (CTRL.CELL l n i) old).onEng l n fun e => { e with pre := (e.pre.filter fun p => p.1 != i) ++ [(i, v)] }
  else s

end Sys2Proof.Machine
end

