-- ==== Sys2Proof/Machine/Door.lean ====
section
/-! DEFINITION. DOOR (R265 to R303): ADC, trips, PWM update points, field-oriented control, stepper regulators, force, energy and
friction, obstruction tests, the keeper slots and the learned profiles. -/

namespace Sys2Proof.Machine

/-- Q31 one. -/
def q31 : Int := 2147483648

/-- The square root of 3 in units of 2^-64. -/
def sqrt3 : Int := 31950697969885030203

/-- A signed 32-bit result; one that does not fit the register is a free value (no rule states it). -/
def State.setFits (s : State) (k : Nat) (v : Int) : State :=
  if -2147483648 ≤ v ∧ v ≤ 2147483647 then s.setI k v
  else
    let f := s.free
    f.2.setN k f.1

/-- An unsigned 32-bit result; one that does not fit is a free value. -/
def State.setFitsN (s : State) (k v : Nat) : State :=
  if v < 4294967296 then s.setN k v
  else
    let f := s.free
    f.2.setN k f.1

/-- Sets a sticky flag and fires a source when it rises. -/
def State.raise (s : State) (f : Fld) (src : Nat) : State := (s.stick f).when (!s.flag f) fun s => s.fire src

/-- Whether the PWM may run (R269, R298). -/
def State.drvRuns (s : State) (d : Nat) : Bool :=
  let m := s.drvMode d
  let p := s.fld SYS.PWR_STS_STATE
  s.drvOn d && (m == 1 || m == 2) && !s.flag (DOOR.DOOR_STS_TRIP d) && s.axState (d + 1) != 0 &&
    (decide (p ≤ 1) || (p == 2 && m == 2))

/-- The duties at the PWM balls of a door: high impedance on a device that does not hold the claim (R460), low while the PWM does not run,
which a trip brings about at once and anything else at an update point (R269, R270). -/
def State.pwmBalls (s : State) (d : Nat) : Option (Int × Int × Int) :=
  if !s.drives then none
  else if s.flag (DOOR.DOOR_STS_RUNNING d) && s.outputsOn then some ((s.dr d).du, (s.dr d).dv, (s.dr d).dw) else some (0, 0, 0)

/-! ### Trips (R270, R273) -/

/-- A trip of a door: 1 INPUT, 2 ADC with its channel. -/
def State.tripDoor (s : State) (d cause ch : Nat) : State :=
  let a := d + 1
  let v := (s.sp a).2.1
  let s := if s.axState a = 2 ∧ v ≠ 0 then s.onDr d fun x => { x with hit := some v } else s
  let s := if s.flag (DOOR.DOOR_STS_TRIP d) then s.stick (DOOR.DOOR_STS_TRIP d)
    else
      let s := (s.stick (DOOR.DOOR_STS_TRIP d)).setFlag (DOOR.DOOR_STS_RUNNING d) false
      ((s.setFld (DOOR.DOOR_STS_TRIP_CAUSE d) cause).setFld (DOOR.DOOR_STS_TRIP_CH d) ch).fire 186
  s.axTrip a

/-- TRIP_NOW follows the filtered level of GPIO(d), which is active as TRIP_POL says; a ball that no row has driven is inactive
(assumption 36). -/
def State.tripPin (s : State) (d : Nat) : State :=
  if s.flag (DOOR.DRV_CFG_TRIP_EN d) && (s.dr d).pin == some (s.flag (DOOR.DRV_CFG_TRIP_POL d)) then
    (s.setFlag (DOOR.DOOR_STS_TRIP_NOW d) true).tripDoor d 1 0
  else s.setFlag (DOOR.DOOR_STS_TRIP_NOW d) false

/-- The active level has held at the trip ball for the 40 ns of its filter. -/
def execTripInput (d : Fin 2) (t : Nat) (s : State) : Host.Outcome State Fault Refusal :=
  done (((s.atTime t).onDr d fun x => { x with pin := some (s.flag (DOOR.DRV_CFG_TRIP_POL d)) }).tripPin d)

def execTripInputRelease (d : Fin 2) (t : Nat) (s : State) : Host.Outcome State Fault Refusal :=
  done (((s.atTime t).onDr d fun x => { x with pin := some (!s.flag (DOOR.DRV_CFG_TRIP_POL d)) }).tripPin d)

/-! ### ADC (R271, R272) -/

def State.adc (s : State) (n : Nat) : AdcSt := mget (fun _ => (⟨0, 0, false⟩ : AdcSt)) s.door.adc n
def State.setAdc (s : State) (n : Nat) (x : AdcSt) : State :=
  { s with door := { s.door with adc := mput (fun _ => (⟨0, 0, false⟩ : AdcSt)) s.door.adc n x } }

/-- INVALID of a channel: disabled or saturated (R272). -/
def State.adcShow (s : State) (n : Nat) : State :=
  s.setFld ⟨DOOR.ADC_STS, n, 1⟩ (b2n (!bitB (s.fld DOOR.ADC_CFG_EN) n || (s.adc n).bad))

/-- The channel is saturated: SAT and INVALID. -/
def State.adcSat (s : State) (n : Nat) : State :=
  ((s.stick ⟨DOOR.ADC_STS, 16 + n, 1⟩).setAdc n { s.adc n with bad := true }).adcShow n

def endCode (c : Nat) : Bool := c == 0 || c == 65535

def State.adcOver (s : State) (n : Nat) : Bool :=
  let c := s.fld (DOOR.ADC_RAW_CODE n)
  decide (s.fld (DOOR.ADC_LIM_HI n) < c ∨ c < s.fld (DOOR.ADC_LIM_LO n))

/-- The code of a conversion of channel `n`, with its saturation (R272). -/
def State.adcCode (s : State) (n code : Nat) : State :=
  let s := s.setN (DOOR.ADC_RAW n) code
  let x := s.adc n
  let x : AdcSt := if endCode code then ⟨min (x.sat + 1) 4, 0, x.bad⟩ else ⟨0, min (x.ok + 1) 4, x.bad⟩
  let s := s.setAdc n x
  if x.sat = 4 then s.adcSat n else if x.ok = 4 then (s.setAdc n { x with bad := false }).adcShow n else s

/-- A conversion of channel `n`: its code, then its limits (R273). -/
def State.adcConvert (s : State) (n code : Nat) : State :=
  let s := s.adcCode n code
  let act := bitsOf (s.regN DOOR.ADC_LIMACT) (2 * n) 2
  if s.adcOver n ∧ (act = 1 ∨ act = 2) then s.tripDoor (act - 1) 2 n else s

/-- Whether group `g` samples at an instant: half a µs times `g` after a tick, with one of its channels enabled (R271). -/
def State.adcDue (s : State) (g t : Nat) : Bool :=
  decide (500 * g ≤ t) && (t - 500 * g) % 31250 == 0 && bitsOf (s.fld DOOR.ADC_CFG_EN) (4 * g) 4 != 0

/-- Group `g` samples and converts its four channels; the limits are judged (R271, R273). -/
def execAdcGroupSample (g : Fin 4) (c0 c1 c2 c3 : BitVec 16) (t : Nat) (s : State) : Host.Outcome State Fault Refusal :=
  done (
    let s := s.atTime t
    if s.now = t ∧ s.adcDue g t then
      s.forAll (upto 4) fun i s => s.adcConvert (4 * g.val + i) (([c0, c1, c2, c3].getD i 0).toNat)
    else s)

/-- Channel `n` has given an end code on 4 consecutive ticks (R272). -/
def execAdcSaturation (n : Fin 16) (t : Nat) (s : State) : Host.Outcome State Fault Refusal :=
  done (let s := s.atTime t; if (s.adc n).sat = 4 then s.adcSat n else s)

/-- The codes that a tick works with: those of its own samples that are still waiting among the commands count, for the tick's quantities
are formed once its last conversion is complete (R271, R274). -/
def State.adcAhead (s : State) : State :=
  s.pending.foldl (fun s c =>
    match c with
    | .adcGroupSample g c0 c1 c2 c3 t =>
      if t = s.now + 500 * g.val ∧ s.adcDue g t then
        s.forAll (upto 4) fun i s => s.adcCode (4 * g.val + i) (([c0, c1, c2, c3].getD i 0).toNat)
      else s
    | _ => s) s

/-- The ADC shows what its conversions have given so far; `s0` is the state before the codes of `adcAhead`. -/
def State.adcBack (s0 s : State) : State :=
  let s := s.forAll (upto 16) fun n s => s.setReg (DOOR.ADC_RAW n) (s0.reg (DOOR.ADC_RAW n))
  { s.setReg DOOR.ADC_STS (s0.reg DOOR.ADC_STS) with
    door := { s.door with adc := s0.door.adc }
    again := mput zeroWord s.again DOOR.ADC_STS (mget zeroWord s0.again DOOR.ADC_STS) }

/-- A phase current in Q31 of CUR_FS (R275). -/
def State.phaseI (s : State) (ch : Nat) : Int := satInt 32 (s.adcRes ch * 32768)

/-! ### Update points (R269, R276, R277, R281, R282) -/

/-- A rotation by an angle in 2^-32 turn, Q31. -/
def rotate (th : Nat) (x y : Int) : Int × Int :=
  (asr (x * cosTurn th - y * sinTurn th) 64, asr (x * sinTurn th + y * cosTurn th) 64)

/-- Whether the newest delivery of an engine input is too young for duties loaded now: less than 0.5 µs old (R269). -/
def State.engYoung (s : State) (d n : Nat) : Bool := decide (s.now < (mget (fun _ => EngIn.none) (s.dr d).ins n).at' + 500)

/-- The value of an engine input for duties loaded now (R269). -/
def State.engIn (s : State) (d n : Nat) : Word :=
  let i := mget (fun _ => EngIn.none) (s.dr d).ins n
  if s.engYoung d n then i.old else i.new

/-- The angle of the voltage that duties loaded now take: that of the tick of its newest part (R269, R276). -/
def State.angleIn (s : State) (d : Nat) : AngleAt :=
  if s.engYoung d 0 && s.engYoung d 1 then (s.dr d).angleOld else (s.dr d).angle

/-- The duties of a voltage vector, and whether it was scaled. -/
def dutiesOf (va vb : Int) : (Int × Int × Int) × Bool :=
  let h := asr (vb * sqrt3) 65
  let u := va
  let v := asr (-va) 1 + h
  let w := asr (-va) 1 - h
  let hi := max u (max v w)
  let lo := min u (min v w)
  let past := decide (q31 < hi - lo)
  let f := fun (x : Int) => if past then x * q31 / (hi - lo) else x
  let m := (f hi + f lo) / 2
  ((q31 / 2 + f u - m, q31 / 2 + f v - m, q31 / 2 + f w - m), past)

/-- Whether an enabled slot delivers I_AMP of the door, as most voting lanes have it. -/
def State.iampSlot (s : State) (d : Nat) : Bool :=
  let n := s.voters.countP fun l => (upto 12).any fun n => s.flag (CTRL.SL_CFG_EN l n) && s.fld (CTRL.SL_DST_DST l n) == 0x12 + 8 * d
  decide (s.voters.length < 2 * n)

/-- The stepper current amplitude, STP_IAMP as the last tick found it (R281, R297, R298). -/
def State.iamp (s : State) (d : Nat) : Int :=
  if s.fld SYS.PWR_STS_STATE ≠ 2 ∧ (s.dr d).ampEng then (s.engIn d 2).toNat else (s.dr d).amp

/-- Phase references at a microstep, in 1/65535 of the amplitude (R281). -/
def stepRefs (tbl : List (Nat × Nat)) (ms : Int) : Int × Int :=
  let m := (ms % 4096).toNat
  let i := m % 1024
  let t := fun (k : Nat) => ((mget stepSine tbl k : Nat) : Int)
  match m / 1024 with
  | 0 => (t (1023 - i), t i)
  | 1 => (-t i, t (1023 - i))
  | 2 => (-t (1023 - i), -t i)
  | _ => (t i, -t (1023 - i))

/-- A current regulator: new sum and voltage (R282). -/
def stepPi (kp ki e sum : Int) : Int × Int :=
  let sum := clampInt (-q31) q31 (sum + asr (ki * e) 8)
  (sum, clampInt (-q31) q31 (asr (kp * e) 8 + sum))

/-- The instant of the last tick. -/
def State.lastTick (s : State) : Nat := s.tickAt.getD 0

/-- New duties at an update point. -/
def State.loadDuties (s : State) (d : Nat) : State :=
  let x := s.dr d
  if s.drvMode d = 1 then
    let g := s.angleIn d
    let th := if x.adv then unsgn 32 ((g.theta : Int) + g.omega * ((s.now : Int) - g.tick) / 31250) else g.theta
    let v := rotate th (s.engIn d 0).toInt (s.engIn d 1).toInt
    let r := dutiesOf v.1 v.2
    let s := s.when r.2 fun s => s.stick (DOOR.DOOR_FLAGS_OVERMOD d)
    s.onDr d fun x => { x with du := r.1.1, dv := r.1.2.1, dw := r.1.2.2, loadAt := s.now }
  else
    let ms := if s.now < s.lastTick + 3500 then x.msOld else s.regI (DOOR.MS_CNT d)
    let refs := stepRefs (if s.now < x.tblAt then x.tblOld else x.tbl) ms
    let amp := s.iamp d
    let kp : Int := bitsOf x.piW (DOOR.STP_PI_KP d).lo (DOOR.STP_PI_KP d).width
    let ki : Int := bitsOf x.piW (DOOR.STP_PI_KI d).lo (DOOR.STP_PI_KI d).width
    let a := stepPi kp ki (amp * refs.1 / 65535 - s.phaseI (s.fld (DOOR.SENSE_CFG_CH_U d))) x.sa
    let b := stepPi kp ki (amp * refs.2 / 65535 - s.phaseI (s.fld (DOOR.SENSE_CFG_CH_V d))) x.sb
    let m := (max a.2 (max b.2 0) + min a.2 (min b.2 0)) / 2
    s.onDr d fun x => { x with sa := a.1, sb := b.1, du := q31 / 2 + a.2 - m, dv := q31 / 2 + b.2 - m, dw := q31 / 2 - m }

/-- Whether new duties are due at an update point: always under STEPPER, and under FOC when VD or VQ was delivered at least 0.5 µs
ago and is not loaded yet, a newer delivery notwithstanding (R269, R282). -/
def State.loadDue (s : State) (d : Nat) : Bool :=
  let x := s.dr d
  s.drvMode d == 2 || x.ins.any fun p =>
    let t := (if s.now < p.2.at' + 500 then p.2.was else p.2.at') + 500
    decide (p.1 ≤ 1 ∧ t ≤ s.now ∧ x.loadAt < t)

/-- Whether the present instant is a valley (or a peak) of a door's counter: PER × 2.5 ns apart, from a valley at the tick that applied EN, or
with SYNC at tick number 0 (R266, R267). An instant between two nanoseconds is the one before. -/
def State.updateDue (s : State) (d : Nat) (peak : Bool) : Bool :=
  match (if s.flag (DOOR.DRV_CFG_SYNC d) then some 0 else (s.dr d).pwmAt) with
  | none => false
  | some a =>
    let half := 5 * s.fld (DOOR.PWM_CFG_PER d)
    let n := 2 * (s.now - a) + 1
    s.drvOn d && decide (a ≤ s.now) && decide (0 < half ∧ n % half ≤ 1) && (n / half % 2 == b2n peak)

/-- A valley or peak of a door's counter: the drive of a disabled door stops once its axis rests, a stepper's after the write of its keeper
slot (R297); the PWM stops or goes on, and new duties are loaded (R269). -/
def State.updatePoint (s : State) (d : Nat) : State :=
  let st := s.axState (d + 1)
  let rest := decide (st = 0 ∨ st = 1) || decide ((s.ax (d + 1)).prof.segs = [])
  let kept := s.drvMode d != 2 || (s.dr d).writes == []
  let s := s.when ((s.dr d).closing && rest && kept) fun s => s.onDr d fun x => { x with closing := false }
  let run := s.drvRuns d
  let load := run && s.loadDue d
  let ran := s.flag (DOOR.DOOR_STS_RUNNING d)
  let s := s.onDr d fun x => { x with duWas := if ran then some (x.du, x.dv, x.dw) else none }
  let s := s.setFlag (DOOR.DOOR_STS_RUNNING d) (run && (ran || load))
  if load then s.loadDuties d else s

def execUpdatePoint (d : Fin 2) (peak : Bool) (t : Nat) (s : State) : Host.Outcome State Fault Refusal :=
  done (let s := s.atTime t; if s.now = t ∧ s.updateDue d peak then s.updatePoint d else s)

/-- One half period of a leg (R268), `u` counts after its update point: the side that conducts at that point (the low side at a valley, the high
side at a peak) is on until `u` is `w`, the other side after it. `w0` is what `w` was in the half period before, if the PWM ran; a side turns on
no sooner than `dt` counts after its partner turned off, across the update point too, and not for an on-time that is no longer. -/
def legHalf (per dt w u : Int) (w0 : Option Int) : Bool × Bool :=
  let last := w0.getD w
  let mayNear := decide (dt < last + w)
  let mayFar := decide (dt < 2 * (per - w))
  -- in the half before, the near side turned on as the far side turned off, `last` counts before the update point
  let farWas := w0.any fun x => decide (dt < 2 * (per - x))
  let nearWas := w0.any fun x => decide (0 < x ∧ dt < 2 * x)
  let near := mayNear && decide (u < w) && (!farWas || decide (dt < u + last))
  let far := mayFar && decide (w < u) &&
    (if mayNear && decide (0 < w) then decide (dt < u - w) else !nearWas || decide (dt < u))
  (near, far)

/-- The compare value of leg `j` (0 U, 1 V, 2 W) for duties (R268). -/
def legCmp (per : Int) (x : Int × Int × Int) (j : Nat) : Int :=
  per * (q31 - (if j = 0 then x.1 else if j = 1 then x.2.1 else x.2.2)) / q31

/-- The on-states (high side, low side) of leg `j` (0 U, 1 V, 2 W) with the counter at `c`, rising or falling (R268). -/
def State.legOut (s : State) (d j c : Nat) (rising : Bool) : Bool × Bool :=
  if !s.flag (DOOR.DOOR_STS_RUNNING d) then (false, false)
  else
    let per : Int := s.fld (DOOR.PWM_CFG_PER d)
    let dt : Int := s.fld (DOOR.PWM_CFG_DT d)
    let x := s.dr d
    let cmp := legCmp per (x.du, x.dv, x.dw) j
    let old := x.duWas.map fun y => legCmp per y j
    if rising then
      let r := legHalf per dt cmp c old
      (r.2, r.1)
    else legHalf per dt (per - cmp) (per - c) (old.map fun y => per - y)

/-! ### Quantities at a tick (R275, R276, R279, R284, R287, R288) -/

/-- The electrical angle of a FOC door (R276). -/
def State.focTheta (s : State) (d : Nat) : Nat :=
  let cpr : Int := s.fld (DOOR.ANG_CPR_CPR d)
  let c := (s.enc (s.fld (DOOR.ANG_CFG_SRC d))).tick - s.regI (DOOR.ANG_OFF d)
  if cpr = 0 then 0 else unsgn 32 ((c % cpr) * s.fld (DOOR.ANG_CFG_PP d) * 4294967296 / cpr)

/-- An arc tangent in 1/4096 turn, rounded down: the greatest angle index whose direction is not past (x, y). -/
def atan2Idx (y x : Int) : Int :=
  -- the half turn first, then bisection by the sign of the cross product
  let up := decide (0 < y ∨ (y = 0 ∧ 0 < x))
  let p := if up then (x, y) else (-x, -y)
  let past := fun (k : Nat) => decide (cosTurn (k * 1048576) * p.2 - sinTurn (k * 1048576) * p.1 < 0)
  let k := (upto 11).foldl (fun (a : Nat) i => let b := a + 2 ^ (10 - i); if past b then a else b) 0
  (if up then (k : Int) else (k : Int) + 2048)

/-- Whether the feedback of an axis is lost (FB_LOST). -/
def State.fbGone (s : State) (a : Nat) : Bool :=
  let src := s.fld (MOTION.AX_CFG_FB_SRC a)
  (decide (1 ≤ src ∧ src ≤ 6) && s.flag (POS.ENC_STS_LOSS_NOW (src - 1))) ||
    (s.axState a == 7 && s.fld (MOTION.AX_FLAGS_FAULT a) == 2)

/-- The feedback position of an axis, µm. -/
def State.fbUm (s : State) (a : Nat) : Int := (s.fbK a).getD 0 / 4294967296

/-- The set-point speed that a door is judged by at a tick, units of 2^-32 µm/s: with a trip since the last tick, the one it
ended (R299). -/
def State.doorSpeed (s : State) (d : Nat) : Int := (s.dr d).hit.getD (s.sp (d + 1)).2.1

/-- Whether |set-point speed| is at least `v` mm/s. -/
def State.fastEnough (s : State) (d v : Nat) : Bool := decide ((v : Int) * 1000 * kUnit ≤ (s.doorSpeed d).natAbs)

/-- Whether quantity `n` is invalid. -/
def State.qBad (s : State) (d n : Nat) : Bool := bitB (s.dr d).bad n

/-- The load angle from the back-EMF, with the microstep count as it stands before it follows the set-point of the tick (R274, R284); where the EMF is 0 it has no angle and the value is free. -/
def State.loadAngle (s : State) (d : Nat) : Int × State :=
  let x := s.dr d
  let fs : Int := s.fld (DOOR.ELEC1_CUR_FS d)
  let vb := s.regI (DOOR.Q d 7)
  let r : Int := s.fld (DOOR.ELEC2_MOT_R d)
  let l : Int := s.fld (DOOR.ELEC2_MOT_L d)
  let iA := s.phaseI (s.fld (DOOR.SENSE_CFG_CH_U d))
  let iB := s.phaseI (s.fld (DOOR.SENSE_CFG_CH_V d))
  -- microvolts in Q31
  let ea := (x.du - x.dw) * vb * 1000 - r * iA * fs - l * (iA - x.ia) * fs * 32
  let eb := (x.dv - x.dw) * vb * 1000 - r * iB * fs - l * (iB - x.ib) * fs * 32
  if ea = 0 ∧ eb = 0 then
    let f := s.free
    (sgn 12 f.1, f.2)
  else
    let thr := atan2Idx eb ea - (s.doorSpeed d).sign * 1024
    (sgn 12 (unsgn 12 ((s.dr d).msOld - thr)), s)

/-- The quantities of a door at a tick. -/
def State.doorQuantities (s : State) (d : Nat) : State :=
  let a := d + 1
  let mode := s.drvMode d
  let cu := s.fld (DOOR.SENSE_CFG_CH_U d)
  let cv := s.fld (DOOR.SENSE_CFG_CH_V d)
  let cb := s.fld (DOOR.SENSE_CFG_CH_VBUS d)
  let loss := s.flag (POS.ENC_STS_LOSS_NOW (s.fld (DOOR.ANG_CFG_SRC d)))
  let x := s.dr d
  let s := s.setN (DOOR.Q d 7) (s.fld (DOOR.ADC_RAW_CODE cb) * s.fld (DOOR.ELEC1_VBUS_FS d) * 10 / 65535)
  let badV := s.adcBad cb
  let badI := mode != 1 || s.adcBad cu || s.adcBad cv || loss
  let badTh := decide (mode ≠ 1 ∧ mode ≠ 2) || (mode == 1 && loss)
  let badLa := mode != 2 || !s.fastEnough d (s.fld (DOOR.STALL_CFG_VMIN d)) || badV
  let badF := if mode = 1 then badI else if mode = 2 then badLa else true
  let badKe := s.fld (MOTION.AX_CFG_FB_SRC a) == 0 || s.fbGone a
  let bad := 3 * b2n badI + 4 * b2n badTh + 8 * b2n badF + 16 * b2n badF + 32 * b2n badKe + 64 * b2n badLa + 128 * b2n badV
  let s := s.onDr d fun x => { x with bad := bad }
  let s := if mode = 1 then
      let ia := s.phaseI cu
      let ib := s.phaseI cv
      let th := s.focTheta d
      let be := satInt 32 (asr ((ia + 2 * ib) * sqrt3 / 3) 64)
      let r := rotate (4294967296 - th) ia be
      let s := s.onDr d fun y => { y with theta := th, omega := sgn 32 (th + 4294967296 - x.theta), ia := ia, ib := ib }
      let s := ((s.setI (DOOR.Q d 0) (satInt 32 r.1)).setI (DOOR.Q d 1) (satInt 32 r.2)).setN (DOOR.Q d 2) th
      s.setFits (DOOR.Q d 3) (asr (satInt 32 r.2 * s.regI (DOOR.FORCE_K d)) 31)
    else if mode = 2 then
      let th := (s.regI (DOOR.MS_CNT d) % 4096).toNat * 1048576
      let s := s.setN (DOOR.Q d 2) th
      let s := if badLa then s
        else
          let q := s.loadAngle d
          let s := q.2.setI (DOOR.Q d 6) q.1
          s.setFits (DOOR.Q d 3) (asr (s.iamp d * sinTurn (unsgn 12 q.1 * 1048576) * s.regI (DOOR.FORCE_K d)) 95)
      s.onDr d fun y => { y with ia := s.phaseI cu, ib := s.phaseI cv }
    else s
  -- speeds: change over the last 8 ticks, units of 2^-16 µm
  let f := (s.fbK a).getD 0 / 65536
  let f3 := (s.fbK 3).getD 0 / 65536
  let x := s.dr d
  let dv := f - (x.fb.drop 7).headD ((x.fb.getLast?).getD f)
  let d3 := if s.flag (DOOR.OBS_CFG_AUX d) then f3 - (x.fb3.drop 7).headD ((x.fb3.getLast?).getD f3) else 0
  let s := s.onDr d fun x => { x with fb := (f :: x.fb).take 9, fb3 := (f3 :: x.fb3).take 9 }
  let m : Int := s.fld (DOOR.MASS_CFG_MASS d)
  let ma : Int := s.fld (DOOR.MASS_CFG_AUX d)
  s.setFitsN (DOOR.Q d 5) (10 * (m * dv * dv + ma * d3 * d3) * 16000000 / (4294967296 * 2000000000000)).toNat

/-- |v_d| in units of 2^-16 µm/s at a tick (before the tick's own position is the newest of the list). -/
def DoorSt.slow (x : DoorSt) (old : Int) (lim : Nat) : Bool :=
  decide (((x.fb.headD 0 - old).natAbs : Int) * 4000 < (lim : Int) * 1000 * 65536)

/-- The friction bin at the present position (R288). -/
def State.fricBin (s : State) (d : Nat) : Nat :=
  let st : Int := s.regN (DOOR.STROKE d)
  if st = 0 then 0 else (clampInt 0 255 (s.fbUm (d + 1) * 256 / st)).toNat

/-- FORCE − F_in − FRIC at a tick, mN. -/
def State.forceRest (s : State) (d : Nat) (r : Nat) : Int :=
  let fin := (s.fld (DOOR.INERTIA_MASS d) : Int) * 10 * (s.sp (d + 1)).2.2 / (1000000 * kUnit)
  let fr := if s.regN (DOOR.STROKE d) = 0 then 0 else s.regI (DOOR.FRIC d r (s.fricBin d))
  s.regI (DOOR.Q d 3) - fin - fr

/-- OBS_FORCE (R288). -/
def State.obsForce (s : State) (d : Nat) : Int :=
  let v := s.doorSpeed d
  if v = 0 then 0 else if 0 < v then s.forceRest d 0 else -s.forceRest d 1

/-! ### Obstruction (R290 to R293) -/

/-- Declares an obstruction with its cause (R292): at most once per move. -/
def State.declareObs (s : State) (d cause : Nat) : State :=
  let a := d + 1
  let mv := (s.ax a).moves
  if (s.dr d).declared = some mv then s
  else
    let closing := decide (s.doorSpeed d < 0)
    let s := s.onDr d fun x => { x with declared := some mv }
    let s := (s.setFld (DOOR.DOOR_STS_OBS_CAUSE d) cause).stick (DOOR.DOOR_FLAGS_OBS d)
    let s := (s.setPos48 (DOOR.OBS_CAP_LO d) (s.fbUm a)).setReg (DOOR.OBS_CAP_F d) (s.reg (DOOR.Q d 4))
    let s := s.fire (184 + d)
    if closing && s.flag (MOTION.AX_STS_REV_ARMED a) then s.revSignal a
    else s.axPost a .qstop

/-- Whether the axis is MOVING with a set-point speed other than 0 at the tick. -/
def State.obsJudged (s : State) (d : Nat) : Bool :=
  (s.axState (d + 1) == 2 || (s.dr d).hit.isSome) && s.doorSpeed d != 0

/-- Whether the blanking of FORCE, LOAD_ANG and STALL leaves the tick to be judged. -/
def State.forceJudged (s : State) (d : Nat) : Bool :=
  let x := s.fbUm (d + 1)
  let b : Int := s.fld (DOOR.BLANK_FORCE d) * 100
  let st : Int := s.regN (DOOR.STROKE d)
  s.obsJudged d && !s.qBad d 3 && (if s.doorSpeed d < 0 then decide (b ≤ x) else decide (x ≤ st - b))

/-- The limit of OBS_FORCE in the direction of motion, mN. -/
def State.forceLim (s : State) (d : Nat) : Int :=
  if s.doorSpeed d < 0 then s.fld (DOOR.OBS_F_CLOSE d) * 10 else s.fld (DOOR.OBS_F_OPEN d) * 10

/-- The condition of test `c` (1 FORCE, 2 LOAD_ANG, 3 EDGE, 4 STALL, 5 KE) at a tick, without its count; `stall` says whether a
stall stands. -/
def State.obsTest (s : State) (d : Nat) (stall : Bool) (c : Nat) : Bool :=
  if c = 1 then s.flag (DOOR.OBS_CFG_FORCE_EN d) && s.forceJudged d && decide (s.forceLim d < s.obsForce d)
  else if c = 2 then
    s.flag (DOOR.OBS_CFG_LA_EN d) && s.forceJudged d && !s.qBad d 6 &&
      decide (s.fld (DOOR.LA_CFG_LA_OBS d) ≤ (s.regI (DOOR.Q d 6)).natAbs)
  else if c = 3 then
    s.flag (DOOR.OBS_CFG_EDGE_EN d) && s.obsJudged d && decide (s.doorSpeed d < 0) && !s.flag (DOOR.OBS_CFG_NUDGE d) &&
      decide ((s.fld (DOOR.BLANK_EDGE d) * 100 : Int) ≤ s.fbUm (d + 1)) &&
      (s.flag (FIELD.CH_STS_IN (s.fld (DOOR.OBS_CFG_EDGE_CH d))) != s.flag (DOOR.OBS_CFG_EDGE_POL d))
  else if c = 4 then s.flag (DOOR.OBS_CFG_STALL_EN d) && s.forceJudged d && stall
  else
    let lim := if s.flag (DOOR.OBS_CFG_NUDGE d) then s.fld (DOOR.KE_LIM_NUDGE d) else s.fld (DOOR.KE_LIM_NORMAL d)
    !s.qBad d 5 && decide (s.doorSpeed d < 0) && decide (lim < s.regN (DOOR.Q d 5))

/-- A test has held for its time and DOOR declares (R290, R292): its count is full and its condition stands, at the instant of a tick that has
been sampled. -/
def execDeclaration (d : Fin 2) (cause : Fin 6) (t : Nat) (s : State) : Host.Outcome State Fault Refusal :=
  done (
    let s := s.atTime t
    let x := s.dr d
    let stall := decide (s.fld (DOOR.LA_CFG_STALL_T d) ≤ x.cStall)
    let held := s.fld (DOOR.OBS_CFG_OBS_T d)
    let held := if cause.val = 1 then decide (held ≤ x.cForce) else cause.val != 2 || decide (held ≤ x.cLoad)
    let ke := cause.val != 5 || (s.fld (DOOR.OBS_CFG_KE_ACT d) == 2 && s.obsJudged d)
    if s.tickAt = some s.now ∧ cause.val ≠ 0 ∧ held ∧ ke ∧ s.obsTest d stall cause then s.declareObs d cause else s)

/-- The instantaneous stall condition (R291); `old` is the feedback of 8 ticks ago. -/
def State.stallNow (s : State) (d : Nat) (old : Int) : Bool :=
  let mode := s.drvMode d
  if mode = 1 then
    decide (s.fld (DOOR.STALL_CFG_IQ d) * 65536 ≤ (s.regI (DOOR.Q d 1)).natAbs) &&
      (s.dr d).slow old (s.fld (DOOR.STALL_CFG_VMIN d)) && s.doorSpeed d != 0
  else mode == 2 && !s.qBad d 6 && decide (s.fld (DOOR.LA_CFG_LA_STALL d) ≤ (s.regI (DOOR.Q d 6)).natAbs)

/-- A stall (R291): the flag, the event, UNSURE, and the reference edge of HARDSTOP. -/
def State.stall (s : State) (d : Nat) : State :=
  let s := (s.stick (DOOR.DOOR_FLAGS_STALL d)).fire 187
  if s.axState (d + 1) = 3 then s.homeStall (d + 1) else s.unsureRise d

/-- The feedback position 8 ticks before the newest. -/
def DoorSt.fbOld (x : DoorSt) : Int := (x.fb.drop 8).headD ((x.fb.getLast?).getD 0)

/-- A stall is reported once while its condition holds. -/
def State.stallJudge (s : State) (d : Nat) : State :=
  if !(s.dr d).stalled ∧ s.fld (DOOR.LA_CFG_STALL_T d) ≤ (s.dr d).cStall then
    (s.stall d).onDr d fun x => { x with stalled := true }
  else s

/-- The stall conditions have held for STALL_T ticks (R291). -/
def execStall (d : Fin 2) (t : Nat) (s : State) : Host.Outcome State Fault Refusal :=
  done (
    let s := s.atTime t
    if s.stallNow d (s.dr d).fbOld then s.stallJudge d else s)

/-- The permit of a door (R295). -/
def State.doorPerm (s : State) (d : Nat) : Bool :=
  let n := s.voters.countP fun l => s.flag (if d = 0 then SAFE.STS_PERM_F l else SAFE.STS_PERM_R l)
  decide (2 ≤ n)

/-- DSTATE (R296). -/
def State.doorStateNow (s : State) (d : Nat) : Nat :=
  let a := d + 1
  let st := s.axState a
  let v := (s.sp a).2.1
  let x := s.fbUm a
  if st = 7 ∨ s.flag (DOOR.DOOR_STS_TRIP d) then 7
  else if st = 6 then 4
  else if st = 0 ∨ st = 1 then
    if x ≤ (s.fld (DOOR.TOL_CLOSED d) * 100 : Nat) then 0
    else if (s.regN (DOOR.STROKE d) : Int) - (s.fld (DOOR.TOL_OPEN d) * 100 : Nat) ≤ x then 2 else 5
  else if st = 3 ∨ st = 4 then 5
  else if 0 < v then 1
  else if v < 0 then (if s.flag (DOOR.OBS_CFG_NUDGE d) then 6 else 3)
  else s.fld (DOOR.DOOR_STS_DSTATE d)

/-- A count of consecutive ticks. -/
def tickCount (b : Bool) (n : Nat) : Nat := if b then min (n + 1) 256 else 0

/-- Friction learning (R289). -/
def State.fricLearn (s : State) (d : Nat) : State :=
  let a := d + 1
  let v := s.doorSpeed d
  let r := if v < 0 then 1 else 0
  let i := s.fricBin d
  let x := s.fbUm a
  if s.flag (DOOR.FR_CFG_LEARN d) && !s.qBad d 3 && s.axState a == 2 && s.fastEnough d (s.fld (DOOR.FR_CFG_VMIN d)) && v != 0 &&
      decide (0 ≤ x ∧ x < (s.regN (DOOR.STROKE d) : Int)) && decide ((s.dr d).declared ≠ some (s.ax a).moves) &&
      decide (2 * s.obsForce d < s.forceLim d) && !(s.dr d).pre.contains (256 * r + i) then
    let k := DOOR.FRIC d r i
    s.setFits k (s.regI k + asr (s.forceRest d r) (s.fld (DOOR.FR_CFG_GAIN d)))
  else s

/-- One door at a tick (R274). -/
def State.doorTick1 (s : State) (d : Nat) : State :=
  let a := d + 1
  let old := (s.dr d).fb
  let old := (old.drop 7).headD ((old.getLast?).getD ((s.fbK a).getD 0 / 65536))
  let s := s.doorQuantities d
  let s := s.setFits (DOOR.Q d 4) (s.obsForce d)
  -- stall
  let n := tickCount (s.stallNow d old) (s.dr d).cStall
  let tS := s.fld (DOOR.LA_CFG_STALL_T d)
  let s := (s.onDr d fun x => { x with cStall := n, stalled := x.stalled && n != 0 }).stallJudge d
  -- tests
  let st := decide (tS ≤ n)
  let nF := tickCount (s.obsTest d st 1) (s.dr d).cForce
  let nL := tickCount (s.obsTest d st 2) (s.dr d).cLoad
  let s := s.onDr d fun x => { x with cForce := nF, cLoad := nL }
  let obsT := s.fld (DOOR.OBS_CFG_OBS_T d)
  let s := s.when (decide (obsT ≤ nF)) fun s => s.declareObs d 1
  let s := s.when (decide (obsT ≤ nL)) fun s => s.declareObs d 2
  let s := s.when (s.obsTest d st 3) fun s => s.declareObs d 3
  let s := s.when (s.obsTest d st 4) fun s => s.declareObs d 4
  let s := s.when (s.obsTest d st 5) fun s =>
    -- at every tick whose KE is above the limit (assumption 36)
    let s := (s.stick (DOOR.DOOR_FLAGS_KE_OVER d)).fire 188
    let act := s.fld (DOOR.OBS_CFG_KE_ACT d)
    if act = 1 then s.axPost a .qstop
    else if act = 2 ∧ s.obsJudged d then s.declareObs d 5 else s
  -- permit
  let s := s.setFlag (DOOR.DOOR_STS_PERM d) (s.doorPerm d)
  let s := s.when (decide (0 < (s.sp a).2.1) && !s.flag (DOOR.DOOR_STS_PERM d)) fun s =>
    ((s.stick (DOOR.DOOR_FLAGS_PERMIT_DROP d)).fire 189).axPost a .qstop
  let s := s.fricLearn d
  -- keeper and state
  let s := s.when (s.axState a == 1 && (s.dr d).axWas != 1 && s.drvMode d == 2) fun s => s.doorKeep d false
  let ds := s.doorStateNow d
  let s := if ds = s.fld (DOOR.DOOR_STS_DSTATE d) then s else (s.setFld (DOOR.DOOR_STS_DSTATE d) ds).fire 190
  let stNow := s.axState a
  s.onDr d fun x => { x with pre := [], hit := none, axWas := stNow }

/-- The stepper doors write their slots at the entry to P3 or P4 (R286). -/
def State.doorsKeepAll (s : State) : State :=
  s.forAll [0, 1] fun d s => s.when (s.drvMode d == 2) fun s => s.doorKeep d false

def execDoorSlotWriteComplete (d : Fin 2) (t : Nat) (s : State) : Host.Outcome State Fault Refusal :=
  done ((s.atTime t).onDr d fun x =>
    match x.writes with
    | [] => x
    | w :: ws => { x with slot := w, writes := ws })

/-! ### Learned profiles (R300 to R302) -/

/-- The MRAM offset of copy `k` of record `r`. -/
def profAt (r k : Nat) : Nat := 0xA00000 + 0x8000 * r + 0x4000 * k

/-- Whether a copy is valid. -/
def State.profValid (s : State) (r k : Nat) : Bool :=
  let b := profAt r k
  let n := rdLE s.mram (b + 12) 4
  decide (n ≤ 1024) && crc32c (rdBytes s.mram b 60) == rdLE s.mram (b + 60) 4 &&
    crc32c (rdBytes s.mram (b + 64) (4 * n)) == rdLE s.mram (b + 64 + 4 * n) 4

def State.profSeq (s : State) (r k : Nat) : Nat := rdLE s.mram (profAt r k + 8) 4

/-- The valid copy with the higher SEQ. -/
def State.profBest (s : State) (r : Nat) : Option Nat :=
  match s.profValid r 0, s.profValid r 1 with
  | false, false => none
  | true, false => some 0
  | false, true => some 1
  | true, true => some (if s.profSeq r 0 < s.profSeq r 1 then 1 else 0)

/-- The lane whose configuration a shared unit takes. -/
def State.firstVoter (s : State) : Nat := s.voters.headD 0

/-- N, KEY0 and KEY1 of a target in effect. -/
def State.profKeys (s : State) (kind tgt : Nat) : Nat × Nat × Nat :=
  if kind = 1 then (512, s.regN (DOOR.STROKE tgt), 0)
  else
    let l := s.firstVoter
    let c := s.regN (CTRL.RC_CFG l tgt)
    let clear := fun (x : Nat) (f : Fld) => setBits x f.lo f.width 0
    let c := [CTRL.RC_CFG_FREEZE l tgt, CTRL.RC_CFG_APPLY l tgt, CTRL.RC_CFG_LEAD l tgt, CTRL.RC_CFG_FORGET l tgt].foldl clear c
    (s.rcN l tgt, c, s.regN (CTRL.RC_SPAN l tgt))

/-- Ends a profile operation: 2 DONE or 3 FAILED with its cause. -/
def State.profEnd (s : State) (st cause : Nat) : State :=
  let s := (s.setFld DOOR.PROF_STS_STATE st).setFld DOOR.PROF_STS_CAUSE cause
  ({ s with door := { s.door with prof := none } }).fire 191

/-- The value of a cell that at least two engines of voting lanes hold. -/
def State.cellVote (s : State) (n i : Nat) : Option Word :=
  let vs := s.voters.map fun l => s.reg (CTRL.CELL l n i)
  vs.find? fun v => decide (2 ≤ vs.countP (· == v))

/-- PROF_CTL.GO: the unit is busy, and the operation starts at its tick (R134). -/
def State.profGo (s : State) (load : Bool) (kind tgt r : Nat) : State :=
  let s := s.setN DOOR.PROF_STS (setBits (setBits 0 30 2 1) 21 5 r)
  { s with door := { s.door with go := some ⟨load, kind, tgt, r, [], 0, 0⟩ } }

/-- An operation starts at its tick: a save captures the data of its target (R301). -/
def State.profStart (s : State) (load : Bool) (kind tgt r : Nat) : State :=
  let k := s.profKeys kind tgt
  let start := fun (data : List Nat) (s : State) =>
    { s with door := { s.door with prof := some ⟨load, kind, tgt, r, data, k.2.1, k.2.2⟩ } }
  if load then start [] s
  else if kind = 1 then start ((upto 512).map fun i => s.regN (DOOR.FRIC tgt (i / 256) (i % 256))) s
  else
    let vs := (upto k.1).map fun i => s.cellVote tgt i
    if vs.all (·.isSome) then start (vs.map fun v => (v.getD 0).toNat) s else s.profEnd 3 3

/-- A save writes its copy. -/
def State.profWrite (s : State) (p : ProfSt) : State :=
  let r := p.rec'
  let best := s.profBest r
  let seq := match best with
    | some k => (s.profSeq r k + 1) % 4294967296
    | none => 1
  let k := match best with
    | some k => 1 - k
    | none => 0
  let h := leBytes 4 0x464F5250 ++ leBytes 2 1 ++ leBytes 1 p.kind ++ leBytes 1 0 ++ leBytes 4 seq ++ leBytes 4 p.data.length ++
    leBytes 4 p.key0 ++ leBytes 4 p.key1 ++ padTo 36 []
  let dat := p.data.flatMap (leBytes 4)
  let b := h ++ leBytes 4 (crc32c h) ++ dat ++ leBytes 4 (crc32c dat)
  let s := { s with mram := wrBytes s.mram (profAt (r % 32) (k % 2)) (b.take 0x4000) }
  (s.setFld DOOR.PROF_STS_SEQ (seq % 65536)).profEnd 2 0

/-- A load checks the record and leaves its data for the next tide start. -/
def State.profRead (s : State) (p : ProfSt) : State :=
  match s.profBest p.rec' with
  | none => s.profEnd 3 1
  | some k =>
    let b := profAt p.rec' k
    let w := fun o => rdLE s.mram (b + o) 4
    let keys := s.profKeys p.kind p.tgt
    if rdLE s.mram (b + 6) 1 = p.kind ∧ w 12 = keys.1 ∧ w 16 = keys.2.1 ∧ w 20 = keys.2.2 then
      let data := (upto keys.1).map fun i => w (64 + 4 * i)
      let s := s.setFld DOOR.PROF_STS_SEQ (w 8 % 65536)
      let s := s.profEnd 2 0
      { s with door := { s.door with loaded := some { p with data := data }, readAt := s.now } }
    else s.profEnd 3 2

/-- A profile operation completes; `ok` says whether the MRAM read back, or could be read. -/
def execProfileComplete (ok : Bool) (t : Nat) (s : State) : Host.Outcome State Fault Refusal :=
  done (
    let s := s.atTime t
    match s.door.prof with
    | none => s
    | some p => if p.load then (if ok then s.profRead p else s.profEnd 3 1) else if ok then s.profWrite p else s.profEnd 3 4)

/-- Loaded data takes effect at the first tick at or after the next tide start after its read, 5 µs after a boundary, in all three engines at
once; it is not learned at this tick (R31, R302). -/
def State.profApply (s : State) : State :=
  let start := s.gal.edge.last + 5000
  match s.door.loaded with
  | some p =>
    if start < s.door.readAt ∨ s.now < start then s
    else
      let s := { s with door := { s.door with loaded := none } }
      if p.kind = 1 then
        let s := (p.data.zipIdx).foldl (fun s v => s.setN (DOOR.FRIC p.tgt (v.2 / 256) (v.2 % 256)) v.1) s
        s.onDr p.tgt fun x => { x with pre := upto 512 }
      else
        s.forAll [0, 1, 2] fun l s =>
          let s := (p.data.zipIdx).foldl (fun s v => s.setN (CTRL.CELL l p.tgt v.2) v.1) s
          s.onEng l p.tgt fun e => { e with fresh := upto p.data.length ++ e.fresh }
  | none => s

/-- EN of a drive as the tick applies it (R267, R286, R297): a drive that turns on restores the microstep of a stepper from its keeper slot, and its
counter starts; one that turns off closes. A drive that is on keeps the mode of the tick. -/
def State.drvTake (s : State) (d : Nat) : State :=
  let en := s.flag (DOOR.DRV_CFG_EN d)
  let mode := s.fld (DOOR.DRV_CFG_MODE d)
  let was := (s.dr d).enOn
  if en then
    let s := s.onDr d fun x => { x with enOn := true, closing := false, cmode := mode }
    if was then s
    else
      let s := s.onDr d fun x => { x with sa := 0, sb := 0, pwmAt := some s.now }
      if mode = 2 then
        let k := (s.dr d).slot.read
        let ms := (k.getD (0, true)).1
        let sure := !(k.getD (0, true)).2
        let s := (s.setI (DOOR.MS_CNT d) ms).onAx (d + 1) fun x => { x with stepFb := ms }
        let s := s.onDr d fun x => { x with msOld := ms, restKept := sure }
        if sure then s else s.unsureRise d
      else s
  else if was then s.onDr d fun x => { x with enOn := false, closing := true }
  else s

/-- The registers that update points read take effect at the tick (R134, R297). -/
def State.drvLatch (s : State) (d : Nat) : State :=
  s.onDr d fun x => { x with piW := s.regN (DOOR.STP_PI d), amp := s.regN (DOOR.STP_IAMP d), ampEng := s.iampSlot d,
                             adv := s.flag (DOOR.DRV_CFG_ADV d) }

/-- What was committed to a door takes effect at the tick (R134, R283, R289): its drive, the table swap, the friction bins. -/
def State.doorTake1 (s : State) (d : Nat) : State :=
  let s := (s.drvTake d).drvLatch d
  let x := s.dr d
  let s := s.when x.swap fun s =>
    let t := (upto 1024).foldl (fun m i => mput stepSine m i (s.regN (DOOR.STEP_TBL d i))) []
    (s.onDr d fun x => { x with swap := false, tblOld := x.tbl, tbl := t, tblAt := s.now + 3500 }).fire 191
  let s := s.when x.frClr fun s => { s with regs := merase s.regs (DOOR.FRIC d 0 0) (DOOR.FRIC d 1 255 + 4) }
  let s := x.frPre.foldl (fun s p => s.setReg (DOOR.FRIC d (p.1 / 256) (p.1 % 256)) p.2) s
  s.when (x.frClr || !x.frPre.isEmpty) fun s => s.onDr d fun x => { x with frClr := false, frPre := [], pre := x.frPre.map (·.1) ++ x.pre }

/-- What was committed to DOOR takes effect at the tick, before MOTION takes its own (R134, R286, R301, R302). -/
def State.doorTake (s : State) : State :=
  let s := (s.doorTake1 0).doorTake1 1
  let s := match s.door.go with
    | none => s
    | some p => ({ s with door := { s.door with go := none } }).profStart p.load p.kind p.tgt p.rec'
  s.profApply

/-- DOOR at a tick. -/
def State.doorTick (s : State) : State := (s.doorTick1 0).doorTick1 1

end Sys2Proof.Machine
end

