-- ==== Sys2Proof/Machine/CallGroup.lean ====
section
/-! DEFINITION. DISPATCH (R304 to R339): calls, the stop list, the cost evaluator, the epoch, bid frames, membership and
resolution. -/

namespace Sys2Proof.Machine

def State.onDsp (s : State) (f : DspSt → DspSt) : State := { s with dsp := f s.dsp }
def State.call (s : State) (id : Nat) : CallRec := mget (fun _ => CallRec.none) s.dsp.calls id
def State.onCall (s : State) (id : Nat) (f : CallRec → CallRec) : State :=
  s.onDsp fun d => { d with calls := mput (fun _ => CallRec.none) d.calls id (f (mget (fun _ => CallRec.none) d.calls id)) }

/-- This car's number. -/
def State.me (s : State) : Nat := s.fld DISPATCH.DSP_CFG_CAR
/-- DSP_STS.GSTATE: 0 OFF, 1 STANDALONE, 2 GROUP, 3 OUT, 4 IDLE. -/
def State.gstate (s : State) : Nat := s.fld DISPATCH.DSP_STS_GSTATE
/-- The number of call IDs of the variant (R305). -/
def State.lastId (s : State) : Nat := if s.straps.variantC then 511 else 1279
def State.narrow (s : State) : Bool := s.straps.variantC || s.flag DISPATCH.DSP_CFG_NARROW
/-- F of R326. -/
def State.fragN (s : State) : Nat := if s.narrow then 1 else 3

/-- The epoch number of an instant (R316). -/
def epochNo (t : Nat) : Nat := t / 100000000 % 4294967296

def callLanding (id : Nat) (r : CallRec) : Nat := if id < 256 then id / 2 else r.origin
/-- Whether the direction of a call is up. -/
def callUp (id : Nat) (r : CallRec) : Bool := if id < 256 then id % 2 == 0 else decide (r.origin < r.dest)

/-- FLAGS of a landing in the working map (R189): SERVED, DOOR_F, DOOR_R. -/
def State.landingFlag (s : State) (l b : Nat) : Bool := decide (l < s.landings) && wbit (s.mapWord l 14) b

/-! ### The stop list (R313 to R315) -/

/-- A stop before it is placed: landing, flags of STOP_NEXT, ACCESS, direction of a hall call or record (none: a car call or the
DROP of a picked record), and the landing that decides its phase. -/
structure Visit where
  landing : Nat
  bits    : Nat
  access  : Bool
  dir     : Option Bool
  key     : Nat
  deriving DecidableEq, Repr

/-- FRONT [5] and REAR [6]: from the call's flags, or from the map when the call names neither. -/
def State.doorBits (s : State) (l flags : Nat) : Nat :=
  let f := bitB flags 0
  let r := bitB flags 1
  if f || r then 32 * b2n f + 64 * b2n r else 32 * b2n (s.landingFlag l 1) + 64 * b2n (s.landingFlag l 2)

/-- The stops of a held call. -/
def State.callVisits (s : State) (id : Nat) (r : CallRec) : List Visit :=
  let acc := bitB r.flags 2
  let up := callUp id r
  if id < 256 then
    let l := id / 2
    [⟨l, (if up then 2 else 4) + s.doorBits l r.flags, acc, some up, l⟩]
  else if r.state = 2 then [⟨r.dest, 16 + s.doorBits r.dest r.flags, acc, none, r.dest⟩]
  else
    [⟨r.origin, 8 + s.doorBits r.origin r.flags, acc, some up, r.origin⟩,
     ⟨r.dest, 16 + s.doorBits r.dest r.flags, acc, some up, r.origin⟩]

/-- Level of a landing (µm). -/
def State.level (s : State) (l : Nat) : Int := s.mapPos l 0

/-- x_s (R314): STOP_POS while the car moves, the fused position at rest. -/
def State.routeX (s : State) : Int := if s.moving then s.pos48 (MOTION.STOP_POS_LO 0) else um s.pos.x

/-- The landing whose door zone the car stands in, at rest (R187). -/
def State.zoneLanding (s : State) : Option Nat :=
  if !s.moving && (s.flag POS.ZONE_STS_ZF || s.flag POS.ZONE_STS_ZR) then some (s.fld POS.ZONE_STS_LANDING) else none

/-- Sorts by a key, rising. -/
def insertBy {α : Type} (key : α → Int) (x : α) : List α → List α
  | [] => [x]
  | y :: l => if key x < key y then x :: y :: l else y :: insertBy key x l
def sortBy {α : Type} (key : α → Int) : List α → List α
  | [] => []
  | x :: l => insertBy key x (sortBy key l)

/-- Puts an entry into a list with at most one entry per landing and phase. -/
def mergeStop (l : List Stop) (x : Stop) : List Stop :=
  match l with
  | [] => [x]
  | y :: t =>
    if y.landing = x.landing ∧ y.phase = x.phase then { y with flags := y.flags ||| x.flags, access := y.access || x.access } :: t
    else y :: mergeStop t x

/-- Whether a route runs down: the direction of travel, or at rest the one in which an entry lies (R314). -/
def State.routeDown (s : State) (vs : List Visit) : Bool :=
  let x := s.routeX
  let down := s.carDown
  let beyond := fun (v : Visit) => if down then decide (s.level v.landing < x) else decide (x < s.level v.landing)
  if s.moving ∨ vs.any beyond ∨ vs.isEmpty then down else !down

/-- The phase of an entry of a route (R314). -/
def State.phaseOf (s : State) (down : Bool) (v : Visit) : Nat :=
  let u : Int := if down then -1 else 1
  let ahead := decide (u * s.routeX < u * s.level v.key) || decide (s.zoneLanding = some v.key)
  match v.dir with
  | none => if ahead then 1 else 2
  | some up => if up == down then 2 else if ahead then 1 else 3

/-- The route order of a set of visits (R314). -/
def State.route (s : State) (vs : List Visit) : List Stop :=
  let down := s.routeDown vs
  let u : Int := if down then -1 else 1
  let l := vs.foldl (fun l v => mergeStop l ⟨v.landing, s.phaseOf down v, v.bits, v.access⟩) []
  let span : Int := 4611686018427387904
  sortBy (fun e =>
    let y := u * s.level e.landing
    (e.phase : Int) * span + (if e.phase = 2 then -y else y)) l

/-- The visits of the car calls and the listed calls, without call `skip`. -/
def State.visits (s : State) (skip : Option Nat) : List Visit :=
  let cars := s.dsp.cars.map fun c => (⟨c.1, 1 + s.doorBits c.1 (c.2 % 4), bitB c.2 2, none, c.1⟩ : Visit)
  cars ++ s.dsp.calls.flatMap fun c => if c.2.listed && skip != some c.1 then s.callVisits c.1 c.2 else []

/-- Whether a landing is COMMITTED (R315). -/
def State.landingCommitted (s : State) (l : Nat) : Bool :=
  let y := s.ax 0
  let run := match y.exec with
    | some x => s.axState 0 == 2 && x.req.mode == 3 && x.req.landing == l && decide (5 ≤ y.prof.seg ∧ y.prof.seg ≤ 7)
    | none => false
  run || decide (s.zoneLanding = some l)

/-- Shows the stop list: STOP_NEXT and the counts; a changed head fires source 198. -/
def State.stopsShow (s : State) (l : List Stop) : State :=
  let key := fun (l : List Stop) => l.head?.map fun e => (e.landing, e.phase)
  let moved := decide (key l ≠ key s.dsp.stops)
  let s := s.onDsp fun d => { d with stops := l }
  let w := match l with
    | [] => 0
    | e :: _ => 2 ^ 31 + 2 ^ 30 * b2n (s.landingCommitted e.landing) + 2 ^ 28 * e.phase + 65536 * e.landing + 256 * e.flags
  let s := (s.setN DISPATCH.STOP_NEXT w).setFld DISPATCH.DSP_STS_STOPS l.length
  let n := s.dsp.queue.length
  let s := (s.setFld DISPATCH.DSP_STS_ANN n).setFlag DISPATCH.DSP_STS_ANN_FULL (n == 128)
  s.when moved fun s => s.fire 198

/-- The stop list in route order: at most 128 entries (R313, R314). -/
def State.reorder (s : State) : State := s.stopsShow ((s.route (s.visits none)).take 128)

/-! ### States (R334, R335) -/

/-- GSTATE as mode, enable, lock and mask give it; STANDALONE is left for GROUP at an E only. -/
def State.gstateNext (s : State) (atE : Bool) : Nat :=
  if !s.flag DISPATCH.DSP_CFG_EN then 0
  else
    let m := s.mode
    if m ≤ 3 then 4
    else if m = 6 ∨ (m = 11 ∧ s.flag DISPATCH.DSP_CFG_PARK_BID) then
      let alone := setBits (s.fld DISPATCH.DSP_MASK_CARS) s.me 1 0 == 0
      if !s.flag TIME.STS_LOCKED || alone then 1 else if s.gstate = 1 ∧ !atE then 1 else 2
    else 3

def State.gstateSet (s : State) (atE : Bool) : State := s.setFld DISPATCH.DSP_STS_GSTATE (s.gstateNext atE)

/-- Removes the entries of held calls. -/
def State.unlist (s : State) : State :=
  s.onDsp fun d => { d with calls := d.calls.map fun c => (c.1, { c.2 with listed := false }) }

/-- A mode is entered: what stays in the stop list; a car that goes OUT or IDLE drops its holds at the next Q, also when it has come back by
then (R335). -/
def State.dspMode (s : State) : State :=
  let m := s.mode
  let g := s.gstateNext false
  let s := s.onDsp fun d => { d with drop := d.drop || decide (g = 3 ∨ g = 4) }
  let s := if m = 6 ∨ m = 11 then s
    else
      let s := s.unlist
      if m = 7 then s else s.onDsp fun d => { d with cars := [] }
  s.gstateSet false

/-! ### Travel times (R320) -/

/-- The least n that meets a monotone test, by `k` halvings below 2^k. -/
def leastN (p : Nat → Bool) : Nat → Nat → Nat
  | 0, base => base
  | k + 1, base => if p (base + 2 ^ k - 1) then leastN p k base else leastN p k (base + 2 ^ k)

def ceilDiv (a b : Nat) : Nat := if b = 0 then 0 else (a + b - 1) / b

/-- t(D) in ms, rounded up, for D µm under V, A, J. -/
def travelMs (v a j d : Nat) : Nat :=
  if v = 0 ∨ a = 0 ∨ j = 0 ∨ d = 0 then 0
  else if a * a ≤ v * j ∧ v * (v * j + a * a) ≤ d * a * j then
    ceilDiv (1000 * (d * a * j + v * v * j + a * a * v)) (v * a * j)
  else if 2 * a * a * a ≤ d * j * j then
    let n := leastN (fun n => decide (2000 * a ≤ n * j) &&
      (let q := n * j - 2000 * a
       decide (4000000 * d * j * j ≤ a * q * q + 2000 * a * a * q))) 40 0
    if v * j < a * a then min n (ceilDiv (2000 * (v * j + a * a)) (a * j)) else n
  else leastN (fun n => decide (64000000000 * d ≤ n * n * n * 2 * j)) 40 0

def State.travel (s : State) (d : Nat) : Nat := travelMs (s.regN DISPATCH.DSP_V) (s.regN DISPATCH.DSP_A) (s.regN DISPATCH.DSP_J) d

/-- The time of a leg from rest, with START. -/
def State.legMs (s : State) (d : Nat) : Nat := s.fld DISPATCH.DSP_TIM_START + s.travel d

/-- The first leg (R321) to level `y` of landing `l`. -/
def State.firstLeg (s : State) (l : Nat) : Nat :=
  let y := s.level l
  if s.moving then
    let e : Eff := ⟨s.regN DISPATCH.DSP_V, s.regN DISPATCH.DSP_A, s.regN DISPATCH.DSP_A, s.regN DISPATCH.DSP_J⟩
    let p := (planTo (s.fusedK, s.regI POS.FUS_VEL * kUnit, s.regI POS.FUS_ACC * kUnit) (y * kUnit) 0 e).1
    ceilDiv (p.segs.foldl (fun n g => n + g.dur) 0) (65536 * 1000000)
  else if s.zoneLanding = some l then 0
  else s.legMs (y - um s.pos.x).natAbs

/-- T0 (R321): what the doors still need at E. -/
def State.doorT0 (s : State) : Nat :=
  [0, 1].foldl (fun t d =>
    let o := s.fld (DISPATCH.DSP_DOORL_OPEN d)
    let c := s.fld (DISPATCH.DSP_DOORL_CLOSE d)
    let w := s.fld DISPATCH.DSP_DWELL_CAR
    let x := if !s.flag (DOOR.DRV_CFG_EN d) then 0
      else match s.fld (DOOR.DOOR_STS_DSTATE d) with
        | 0 => 0
        | 2 => w + c
        | 3 => c
        | 6 => c
        | 7 => 0
        | _ => o + w + c
    max t x) 0

/-- A door of the car is in DSTATE FAULT (a disabled door counts as CLOSED). -/
def State.doorFault (s : State) : Bool :=
  [0, 1].any fun d => s.flag (DOOR.DRV_CFG_EN d) && s.fld (DOOR.DOOR_STS_DSTATE d) == 7

/-- door(s) of R321. -/
def State.doorTime (s : State) (e : Stop) : Nat :=
  let pick := fun (f : Nat → Fld) => max (if bitB e.flags 5 then s.fld (f 0) else 0) (if bitB e.flags 6 then s.fld (f 1) else 0)
  let hall := bitB e.flags 1 || bitB e.flags 2 || bitB e.flags 3
  let w := if hall then s.fld DISPATCH.DSP_DWELL_HALL else s.fld DISPATCH.DSP_DWELL_CAR
  pick DISPATCH.DSP_DOORL_OPEN + (if e.access then 2 * w else w) + pick DISPATCH.DSP_DOORL_CLOSE

/-- Arrival times along a route after a stop at `at'`. -/
def State.arriveFrom (s : State) (prev : Stop) (at' : Nat) : List Stop → List (Stop × Nat)
  | [] => []
  | e :: l =>
    let a := at' + s.doorTime prev + s.legMs (s.level e.landing - s.level prev.landing).natAbs
    (e, a) :: s.arriveFrom e a l

/-- Arrival times of a route. -/
def State.arrivals (s : State) : List Stop → List (Stop × Nat)
  | [] => []
  | e :: l =>
    let a := s.doorT0 + s.firstLeg e.landing
    (e, a) :: s.arriveFrom e a l

/-- The length of a route from the fused position, µm. -/
def State.routeLen (s : State) (l : List Stop) : Nat :=
  (l.foldl (fun (p : Int × Nat) e => let y := s.level e.landing; (y, p.2 + (y - p.1).natAbs)) (um s.pos.x, 0)).2

/-- The arrival at the entry of a visit: that of its landing and its phase. -/
def arrivalAt (l : List (Stop × Nat)) (landing phase : Nat) : Option (Stop × Nat) :=
  l.find? fun p => p.1.landing == landing && p.1.phase == phase

/-- The cost of call `id` before the adjustments (R323). -/
def State.rawCost (s : State) (id : Nat) : Nat :=
  let r := s.call id
  let base := s.visits (some id)
  let r0 := s.route base
  let own := s.callVisits id r
  let vs := base ++ own
  let r1 := s.route vs
  let a0 := s.arrivals r0
  let a1 := s.arrivals r1
  let arrive := fun (bits : Nat) =>
    match own.find? fun v => (v.bits &&& bits) != 0 with
    | some v => arrivalAt a1 v.landing (s.phaseOf (s.routeDown vs) v)
    | none => none
  let drop := arrive 16
  let pick := arrive (if id < 256 then 6 else 8)
  let wait := (pick.map (·.2)).getD 0
  let ride := if id < 256 then 0
    else
      let d := (drop.map (·.2)).getD 0
      match pick with
      | some p => d - p.2 - s.doorTime p.1
      | none => d
  let delay := a0.foldl (fun n p =>
    let q := match a1.find? (fun x => x.1.landing == p.1.landing && x.1.phase == p.1.phase) with
      | some x => some x
      | none => a1.find? (fun x => x.1.landing == p.1.landing)
    n + ((q.map (·.2)).getD p.2 - p.2)) 0
  let len := ceilDiv (s.routeLen r1 - s.routeLen r0) 1000000
  let load := (s.fld DISPATCH.DSP_LOAD_LOAD - s.fld DISPATCH.DSP_LOAD_THR) * 100
  let raw := ceilDiv (s.fld DISPATCH.DSP_W1_W_WAIT * wait + s.fld DISPATCH.DSP_W1_W_RIDE * ride + s.fld DISPATCH.DSP_W2_W_DELAY * delay +
    s.fld DISPATCH.DSP_W2_W_ENERGY * len + s.fld DISPATCH.DSP_W3_W_LOAD * load) 256
  min raw 0xFFFE

/-- Whether the mode lets the car bid (R335). -/
def State.mayBid (s : State) : Bool := s.mode == 6 || (s.mode == 11 && s.flag DISPATCH.DSP_CFG_PARK_BID)

/-- The cost that is sent for a call (R324). -/
def State.bidCost (s : State) (id : Nat) : Nat :=
  let r := s.call id
  let full := decide (s.fld DISPATCH.DSP_LOAD_FULL ≤ s.fld DISPATCH.DSP_LOAD_LOAD) && decide (id < 256 ∨ r.state = 1)
  let past := decide (128 < (s.route (s.visits (some id) ++ s.callVisits id r)).length)
  let l := if id < 256 ∨ r.state ≠ 2 then callLanding id r else r.dest
  let flag := if id < 256 then (if callUp id r then 2 else 4) else if r.state = 2 then 0x10 else 8
  let head : Bool := match s.dsp.stops with
    | e :: _ => e.landing == l && (e.flags &&& flag) != 0
    | [] => false
  if r.veto || full || !s.mayBid || s.doorFault || past then 0xFFFF
  else if r.holder = s.me ∧ r.listed ∧ head ∧ s.landingCommitted l then 0
  else
    let c : Int := s.rawCost id + r.bias + (if s.mode = 11 then (s.fld DISPATCH.DSP_TIM_WAKE : Int) else 0)
    (clampInt 1 0xFFFE c).toNat

/-! ### The epoch (R316, R317, R333, R338) -/

/-- The open calls, by ID. -/
def State.openCalls (s : State) : List (Nat × CallRec) := s.dsp.calls.filter fun c => c.2.state != 0

/-- Closes a call: state, bias and VETO, and its stops. -/
def CallRec.close (r : CallRec) : CallRec := { r with state := 0, bias := 0, veto := false, listed := false }

/-- A held call enters the stop list, unless the list would pass 128 entries (R313); then it is tried again at the next E (assumption 37). -/
def State.listCall (s : State) (id : Nat) : State :=
  let r := s.call id
  if r.state = 0 ∨ r.holder ≠ s.me ∨ r.listed then s
  else if 128 < (s.route (s.visits none ++ s.callVisits id r)).length then s
  else s.onCall id fun r => { r with listed := true }

/-- One change of holder takes effect; a record picked since the resolution keeps its holder (R308), and a call closed since then has none. -/
def State.allocOne (s : State) (ep : Nat) (c : AllocCh) : State :=
  let r := s.call c.id
  let gone := decide (r.state = 0)
  let new := if gone then 255 else if r.state = 2 then r.holder else c.new
  if new = r.holder then s
  else
    let e := leBytes 2 c.id ++ leBytes 1 r.holder ++ leBytes 1 new ++ leBytes 4 ep ++ leBytes 2 (if gone then 0xFFFF else c.cost) ++
      leBytes 1 (if gone then 3 else c.cause)
    let s := (s.onCall c.id fun r => { r with holder := new, listed := false }).listCall c.id
    let s := s.hwPush 39 e
    s.when (new == s.me && (s.mode == 11 || s.gstate == 3)) fun s => s.fire 199

/-- ALLOC_CRC (R332). -/
def State.allocCrc (s : State) : Nat :=
  crc32c ((upto 1280).map fun k => BitVec.ofNat 8 (s.call k).holder)

/-- The resolved allocation takes effect. -/
def State.allocApply (s : State) : State :=
  match s.dsp.alloc with
  | none => s
  | some a =>
    let mine : State → List Nat := fun s => (s.dsp.calls.filter fun c => c.2.holder == s.me).map (·.1)
    let before := mine s
    let s := a.2.foldl (fun s c => s.allocOne a.1 c) s
    let s := s.onDsp fun d => { d with alloc := none }
    -- calls that this car has kept and whose entries a mode, EN or a close had taken out
    let s := if (s.gstate = 1 ∨ s.gstate = 2) ∧ !s.dsp.drop then (mine s).foldl State.listCall s else s
    let s := if a.2.isEmpty then s else (let c := s.allocCrc; s.onDsp fun d => { d with crc := c })
    let s := s.setN DISPATCH.DSP_EPOCH a.1
    s.when (decide (before ≠ mine s)) fun s => s.fire 194

/-- An error counter of DSP_ERR, with source 197. -/
def State.dspErr (s : State) (f : Fld) : State := (s.bump f 1).fire 197

/-- One bias entry (R338). -/
def State.biasEntry (s : State) (e : List Byte) : State :=
  let id := leNat (e.take 2)
  let op := leNat ((e.drop 4).take 1)
  if s.lastId < id ∨ (s.call id).state = 0 ∨ op = 0 ∨ 3 < op then s.dspErr DISPATCH.DSP_ERR_BIAS
  else s.onCall id fun r =>
    if op = 1 then { r with bias := sgn 16 (leNat ((e.drop 2).take 2)) }
    else if op = 2 then { r with veto := true }
    else { r with bias := 0, veto := false }

/-- Pops ring 37; ECC judges the first entry that is read (R51). -/
def State.drainBias (s : State) (ecc : Ecc) : Nat → State
  | 0 => s
  | n + 1 =>
    match s.ringTake 37 with
    | none => s
    | some p =>
      let r := p.2.hwEcc 11 ecc p.1
      (r.2.biasEntry r.1).drainBias .clean n

/-- The counts of open calls per bank (landing mod 8): the fullest, lowest first, with its count. -/
def State.fullestBank (s : State) : Nat × Nat :=
  (upto 8).foldl (fun (b : Nat × Nat) k =>
    let n := s.openCalls.countP fun c => callLanding c.1 c.2 % 8 == k
    if b.2 < n then (k, n) else b) (0, 0)

/-- E: the allocation takes effect, ring 37 is drained, the inputs are frozen and the evaluation starts (R317, R336). HEARD of the frames of
this epoch is that of the one before, if it was resolved (R326). -/
def State.epochStart (s : State) (ecc : Ecc) : State :=
  if s.gstate = 0 ∧ !s.flag DISPATCH.DSP_CFG_EN then s
  else
    let heard := if s.dsp.alloc.any fun a => (a.1 + 1) % 4294967296 == epochNo s.now then s.fld DISPATCH.DSP_MEMB_HEARD else 0
    let s := (s.allocApply).gstateSet true
    let s := s.onDsp fun d => { d with e0 := s.now, rx := [], heard := heard }
    let s := s.drainBias ecc (s.ringCnt 37)
    let s := s.reorder
    let costs := s.openCalls.map fun c => (c.1, s.bidCost c.1)
    let n := s.openCalls.length
    let b := s.fullestBank
    let s := s.onDsp fun d => { d with costs := costs, evalN := n, evalB := b }
    (s.setFlag DISPATCH.DSP_STS_EVAL_BUSY true).fire 192

/-- An epoch starts at each multiple of 10^8 ns of device time (R316). Every E is a tick: what is committed at E, and the samples of E, come
first (R319, R336); a tick that is still to come takes the epoch with it. -/
def execEpochStart (t : Through Nat) (s : State) : Host.Outcome State Fault Refusal :=
  done (
    let s := s.atTime t.what
    if s.now ≠ t.what ∨ t.what % 100000000 ≠ 0 ∨ s.dsp.e0 = t.what then s
    else if s.tickAt = some t.what then s.epochStart t.ecc
    else s.onDsp fun d => { d with ePend := some t })

/-- The longest evaluation of the epoch, ns (R325). -/
def State.evalBound (s : State) : Nat := 800000 + 120000 * max (ceilDiv s.dsp.evalN 8) (ceilDiv (3 * s.dsp.evalB.2) 8)

/-- The evaluation of the epoch is complete (R325). -/
def execEvaluationComplete (t : Nat) (s : State) : Host.Outcome State Fault Refusal :=
  done (
    let s := s.atTime t
    if !s.flag DISPATCH.DSP_STS_EVAL_BUSY ∨ s.dsp.e0 + s.evalBound < t then s
    else
      let s := s.setFlag DISPATCH.DSP_STS_EVAL_BUSY false
      let s := s.dsp.costs.foldl (fun s c => s.onCall c.1 fun r => { r with cost := c.2 }) s
      let s := (s.setFld DISPATCH.DSP_EVAL_N s.dsp.evalN).setFld DISPATCH.DSP_EVAL_EVAL_US (min ((t - s.dsp.e0) / 1000) 65535)
      let s := (s.setFld DISPATCH.DSP_BANK_BANK s.dsp.evalB.1).setFld DISPATCH.DSP_BANK_CNT s.dsp.evalB.2
      s.fire 193)

/-- The own cost of a call in this epoch; none when the car is OUT. -/
def State.ownCost (s : State) (k : Nat) : Nat :=
  if s.gstate = 1 ∨ s.gstate = 2 then ((s.dsp.costs.find? fun c => c.1 == k).map (·.2)).getD 0xFFFF else 0xFFFF

/-- Whether this car claims a call. -/
def State.ownClaim (s : State) (k : Nat) : Bool := decide (s.gstate = 1 ∨ s.gstate = 2) && (s.call k).holder == s.me

/-! ### Bid frames (R326 to R328) -/

/-- FLAGS of the own frame. -/
def State.bidFlags (s : State) : Nat :=
  b2n (s.gstate == 3) + 2 * b2n (s.mode == 11) + 4 * b2n (decide (s.fld DISPATCH.DSP_LOAD_FULL ≤ s.fld DISPATCH.DSP_LOAD_LOAD)) +
    8 * b2n s.dsp.diverge

/-- DIR of the own frame. -/
def State.bidDir (s : State) : Nat := if s.moving then (if s.carDown then 2 else 1) else 0

/-- The payload of fragment `f`. -/
def State.bidPayload (s : State) (f : Nat) : List Byte :=
  let anns := (s.dsp.queue.drop (32 * f)).take 32
  let claims := (upto 512).foldl (fun n i => if s.ownClaim (512 * f + i) then n + 2 ^ i else n) 0
  let b := leBytes 1 2 ++ leBytes 1 1 ++ leBytes 1 s.me ++ leBytes 1 (f + 16 * s.fragN) ++ leBytes 4 (epochNo s.now) ++
    leBytes 4 (s.regN DISPATCH.DSP_GROUP) ++ leBytes 1 s.mode ++ leBytes 1 s.bidFlags ++ leBytes 1 (s.fld POS.ZONE_STS_LANDING) ++
    leBytes 1 s.bidDir ++ leBytes 1 (s.fld DISPATCH.DSP_LOAD_LOAD) ++ leBytes 1 anns.length ++ leBytes 2 s.dsp.seq ++
    leBytes 4 (s.dsp.heard ||| 2 ^ s.me) ++ leBytes 4 s.dsp.crc ++ leBytes 4 0 ++
    (upto 512).flatMap (fun i => leBytes 2 (s.ownCost (512 * f + i))) ++ leBytes 64 claims ++
    padTo 256 (anns.flatMap (·.bytes))
  b ++ leBytes 4 (crc32c b)

/-- The address of port `p` of network `k`. -/
def State.portMac (s : State) (k p : Nat) : Nat := s.regN (NET.MAC_LO k p) + 2 ^ 32 * (s.regN (NET.MAC_HI k p) % 65536)

/-- The frame that leaves a port with the last payload. -/
def State.bidFrame (s : State) (k p : Nat) : List Byte :=
  let vlan := if s.flag DISPATCH.DSP_CFG_VLAN then
      beBytes 2 0x8100 ++ beBytes 2 (s.fld DISPATCH.DSP_CFG_PCP * 8192 + s.fld DISPATCH.DSP_CFG_VID) else []
  beBytes 6 (s.regN DISPATCH.DSP_MAC_LO + 2 ^ 32 * (s.regN DISPATCH.DSP_MAC_HI % 65536)) ++ beBytes 6 (s.portMac k p) ++ vlan ++
    beBytes 2 0x88B6 ++ s.dsp.sent

/-- Whether fragment `f` is due at the present instant: 62 ms, 1 ms per car and 150 µs per fragment after E (R317, R327). -/
def State.fragDue (s : State) (f : Nat) : Bool :=
  (s.gstate == 2 || s.gstate == 3) && decide (f < s.fragN) && s.drives &&
    s.now == s.dsp.e0 + 62000000 + 1000000 * s.me + 150000 * f

/-- The fragments from `lo` on for `n` entries of the announcement queue are sent in this epoch: their epochs count down (R309). -/
def annSent (lo n : Nat) (q : List Ann) : List Ann :=
  q.zipIdx.map fun a => if lo ≤ a.2 ∧ a.2 < lo + n then { a.1 with left := a.1.left - 1, sent := true } else a.1

/-- Announcements that have been sent often enough leave the queue. -/
def State.annDrop (s : State) : State :=
  let s := s.onDsp fun d => { d with queue := d.queue.filter fun a => a.left != 0 }
  let n := s.dsp.queue.length
  (s.setFld DISPATCH.DSP_STS_ANN n).setFlag DISPATCH.DSP_STS_ANN_FULL (n == 128)

/-- Fragment `f` is formed; after the last one the announcements that have been sent often enough leave the queue (R309, R326). -/
def State.fragForm (s : State) (f : Nat) : State :=
  let p := s.bidPayload f
  let s := s.onDsp fun d => { d with sent := p, seq := (d.seq + 1) % 65536, queue := annSent (32 * f) 32 d.queue }
  s.when (f + 1 == s.fragN) State.annDrop

/-- A byte of a payload as a number. -/
def byteAt (p : List Byte) (i : Nat) : Nat := (p.getD i 0).toNat
def leAt (p : List Byte) (i n : Nat) : Nat := leNat ((p.drop i).take n)

/-- Whether a payload is that of a bid frame: its length, type, version and CRC-32C are right (R326, R328). -/
def bidFrame (p : List Byte) : Bool :=
  p.length == 1380 && byteAt p 0 == 2 && byteAt p 1 == 1 && crc32c (p.take 1376) == leAt p 1376 4

/-- LLP and bid frames are heard on a port while its EN is 1 (R438). -/
def State.netHears (s : State) (x : NetPort) : Bool := s.flag (NET.PORT_CFG_EN x.k x.p)

/-- A fragment arrives on a port: accepted or discarded (R328). An LC484C-T takes no other action on a bid frame of a
car above 3 than to count it (R3). -/
def execFragmentReceive (x : NetPort) (p : List Byte) (t : Nat) (s : State) : Host.Outcome State Fault Refusal :=
  done (
    let s := s.atTime t
    let c := byteAt p 2
    let f := byteAt p 3 % 16
    let nb := x.k.val + 1
    if s.straps.variantC ∧ bidFrame p ∧ 3 < c then s.fire 238
    else if !s.flag DISPATCH.DSP_CFG_EN || !s.netHears x then s
    else if !bidFrame p then s.dspErr DISPATCH.DSP_ERR_CRC
    else if c = s.me ∧ s.drives then s.dspErr DISPATCH.DSP_ERR_DUP
    else if leAt p 8 4 ≠ s.regN DISPATCH.DSP_GROUP ∨ 15 < c then s
    else if !bitB (s.fld DISPATCH.DSP_MASK_CARS) c then s
    else if leAt p 4 4 ≠ epochNo t ∨ s.fragN ≤ f then s.dspErr DISPATCH.DSP_ERR_EPOCH
    else if 90000000 ≤ t % 100000000 then s.dspErr DISPATCH.DSP_ERR_LATE
    else if s.dsp.rx.any fun x => x.car == c && x.frag == f then
      s.onDsp fun d => { d with rx := d.rx.map fun x => if x.car = c ∧ x.frag = f then { x with nets := x.nets ||| nb } else x }
    else
      let rec' : CarRec := ⟨true, byteAt p 12, byteAt p 13, byteAt p 14, byteAt p 15, byteAt p 16, epochNo t⟩
      s.onDsp fun d =>
        { d with rx := d.rx ++ [⟨c, f, p, shortOf t, nb⟩], seen := mput (fun _ => CarRec.none) d.seen c rec' })

/-! ### Membership and resolution (R329 to R334) -/

/-- Whether car `c` was heard for the fragment of ID `k`. -/
def State.heardFor (s : State) (c k : Nat) : Bool :=
  if c = s.me ∧ s.drives then s.gstate == 1 || decide (k / 512 < s.fragN)
  else s.gstate != 1 && s.dsp.rx.any fun x => x.car == c && x.frag == k / 512

def State.fragOf (s : State) (c k : Nat) : List Byte :=
  match s.dsp.rx.find? fun x => x.car == c && x.frag == k / 512 with
  | some x => x.data
  | none => []

def State.costOf (s : State) (c k : Nat) : Nat := if c = s.me ∧ s.drives then s.ownCost k else leAt (s.fragOf c k) (0x20 + 2 * (k % 512)) 2

def claimBit (p : List Byte) (i : Nat) : Bool := bitB (byteAt p (0x420 + i / 8)) (i % 8)

def State.claims (s : State) (c k : Nat) : Bool :=
  if c = s.me ∧ s.drives then s.ownClaim k else s.heardFor c k && claimBit (s.fragOf c k) (k % 512)

/-- A member at Q. -/
def State.isMember (s : State) (c : Nat) : Bool :=
  if c = s.me then s.gstate == 1 || s.gstate == 2
  else
    let r := mget (fun _ => CarRec.none) s.dsp.seen c
    s.gstate != 1 && bitB (s.fld DISPATCH.DSP_MASK_CARS) c && decide (s.fld (DISPATCH.DSP_MISS_RUN c) < 3) && r.valid && !bitB r.flags 0

/-- Missed epochs and members at Q (R329). -/
def State.membership (s : State) : State :=
  let got := fun c => s.dsp.rx.any fun x => x.car == c
  let heard := (upto 16).foldl (fun n c => if c = s.me ∨ got c then n + 2 ^ c else n) 0
  let s := s.forAll (upto 16) fun c s =>
    if !bitB (s.fld DISPATCH.DSP_MASK_CARS) c then s
    else if c = s.me ∨ got c then s.setFld (DISPATCH.DSP_MISS_RUN c) 0
    else (s.bump (DISPATCH.DSP_MISS_RUN c) 1).bump (DISPATCH.DSP_MISS_TOTAL c) 1
  let old := s.fld DISPATCH.DSP_MEMB_MEMBER
  let new := (upto 16).foldl (fun n c => if s.isMember c then n + 2 ^ c else n) 0
  let s := (s.setFld DISPATCH.DSP_MEMB_HEARD heard).setFld DISPATCH.DSP_MEMB_MEMBER new
  s.forAll (upto 16) fun c s => s.when (bitB old c != bitB new c) fun s => s.fire 195

/-- An entry of ring 36. -/
def State.ring36 (s : State) (id op car origin dst pax flags : Nat) : State :=
  s.hwPush 36 (leBytes 2 id ++ leBytes 1 op ++ leBytes 1 car ++ leBytes 4 (epochNo s.now) ++ leBytes 1 origin ++ leBytes 1 dst ++
    leBytes 1 pax ++ leBytes 1 flags)

/-- What an operation does to a call's record (R308). -/
def CallRec.apply (r : CallRec) (op origin dst pax flags ep : Nat) : CallRec :=
  if op = 1 then
    if r.state = 0 then { r with state := 1, origin := origin, dest := dst, flags := flags, epoch := ep } else { r with flags := flags }
  else if op = 3 then
    if r.state = 0 then { r with state := 1, origin := origin, dest := dst, pax := pax, flags := flags, epoch := ep }
    else { r with origin := origin, dest := dst, pax := pax, flags := flags }
  else if op = 5 then (if r.state = 0 then r else { r with state := 2 })
  else r.close

/-- The call that an operation names. -/
def opId (op origin dst rec' : Nat) : Nat := if op ≤ 2 then 2 * origin + dst else 256 + rec'

/-- A received announcement (R309, R310). -/
def State.annApply (s : State) (car : Nat) (a : List Byte) : State :=
  let op := byteAt a 0
  let origin := byteAt a 1
  let dst := byteAt a 2
  let pax := byteAt a 3
  let seq := byteAt a 6
  let flags := byteAt a 7
  let id := opId op origin dst (leAt a 4 2)
  if op = 0 ∨ 5 < op ∨ s.lastId < id ∨ 127 < origin ∨ (op ≤ 2 ∧ 1 < dst) then s
  else
    let r := s.call id
    let d := (seq + 256 - r.seqA) % 256
    let closing := decide (op = 2 ∨ op = 4)
    if (1 ≤ d ∧ d ≤ 127) ∨ (d = 0 ∧ closing ∧ r.state ≠ 0) then
      let r1 := { r.apply op origin dst pax flags (epochNo s.now) with seqA := seq }
      let s := s.onCall id fun _ => r1
      let moved := decide ((r.state = 0) ≠ (r1.state = 0))
      s.when (moved && op != 5) fun s => s.ring36 id op car origin dst pax flags
    else s

/-- Claims heard in a fragment: a hall call held closed opens; a record held closed is counted (R310). -/
def State.claimApply (s : State) (x : RxFrag) : State :=
  s.forAll ((upto 512).filter (claimBit x.data)) fun i s =>
    let k := 512 * x.frag + i
    if s.lastId < k ∨ (s.call k).state ≠ 0 then s
    else if k < 256 then
      if s.dsp.closed.contains k then s else
      let s := s.onCall k fun r => { r with state := 1, origin := k / 2, dest := k % 2, epoch := epochNo s.now }
      s.ring36 k 1 x.car (k / 2) (k % 2) 0 (s.call k).flags
    else s.dspErr DISPATCH.DSP_ERR_UNKNOWN

/-- The allocation of one open ID (R330): holder, its cost and the cause of a change. A hold that this car drops is resolved among the other
cars (R335). -/
def State.resolveOne (s : State) (k : Nat) : Nat × Nat :=
  let r := s.call k
  let drop := s.dsp.drop && r.holder == s.me
  let prev := if drop then 255 else r.holder
  let cars := (upto 16).filter fun c => !(drop && c == s.me)
  let h := cars.find? fun c => s.heardFor c k && s.claims c k
  let h := match h with
    | some c => some c
    | none => if prev ≠ 255 ∧ !s.heardFor prev k then some prev else none
  let h := match h with
    | some c => if s.isMember c then some c else none
    | none => none
  let lost := match h with
    | some c => !s.heardFor c k
    | none => false
  if lost then (h.getD 255, 0xFFFF)
  else
    let best := cars.foldl (fun (b : Nat × Nat) c =>
      if s.isMember c && s.heardFor c k && decide (s.costOf c k < b.2) then (c, s.costOf c k) else b) (255, 0xFFFF)
    match h with
    | some c =>
      let ch := s.costOf c k
      if ch ≠ 0xFFFF ∧ ch ≤ best.2 + s.fld DISPATCH.DSP_W3_MARGIN then (c, ch) else best
    | none => best

/-- The cause of a change of holder (R337). -/
def State.allocCause (s : State) (prev : Nat) : Nat :=
  if prev = 255 then 4
  else if s.isMember prev then 0
  else if prev = s.me then 2
  else if bitB (mget (fun _ => CarRec.none) s.dsp.seen prev).flags 0 then 2 else 1

/-- The changes of holder that the resolution gives. -/
def State.resolve (s : State) : List AllocCh :=
  s.dsp.calls.filterMap fun c =>
    let k := c.1
    let r := c.2
    if r.state = 0 then (if r.holder = 255 then none else some ⟨k, 255, 0xFFFF, 3⟩)
    else if r.state = 2 then none
    else
      let a := s.resolveOne k
      if a.1 = r.holder then none else some ⟨k, a.1, a.2, s.allocCause r.holder⟩

/-- Accepted fragments in the order of resolution: by car, then by fragment. -/
def State.rxSorted (s : State) : List RxFrag := sortBy (fun x => ((16 * x.car + x.frag : Nat) : Int)) s.dsp.rx

/-- An epoch in which this car sends no frame counts for its announcements too (R309, R334). -/
def State.annIdle (s : State) : State :=
  if decide (s.gstate = 2 ∨ s.gstate = 3) && s.drives then s
  else (s.onDsp fun d => { d with queue := annSent 0 (32 * s.fragN) d.queue }).annDrop

/-- The ID that an announcement names. -/
def annId (a : List Byte) : Nat := opId (byteAt a 0) (byteAt a 1) (byteAt a 2) (leAt a 4 2)

/-- After Q the other cars have applied the closes that this car's frames have carried; of the others a claim is still void (R331, R336). -/
def State.closedKeep (s : State) : State :=
  s.onDsp fun d => { d with drop := false, closed := d.closed.filter fun k => d.queue.any fun a => !a.sent && annId a.bytes == k }

/-- Q, 90 ms after E: membership, claims, announcements and the resolution. A claim is held against the table as the epoch's announcements
find it (assumption 37). -/
def execResolution (t : Nat) (s : State) : Host.Outcome State Fault Refusal :=
  done (
    let s := s.atTime t
    let again := s.dsp.alloc.any fun a => a.1 == epochNo t
    if s.gstate = 0 ∨ t ≠ s.dsp.e0 + 90000000 ∨ again then s
    else
      let s := s.membership
      let diff := s.dsp.rx.any fun x => leAt x.data 24 4 != s.dsp.crc
      let s := s.onDsp fun d => { d with diverge := diff }
      let s := s.when diff fun s => s.raise DISPATCH.DSP_STS_DIVERGE 196
      let rx := s.rxSorted
      let s := rx.foldl (fun s x => s.claimApply x) s
      let s := rx.foldl (fun s x =>
        s.forAll (upto (min 32 (byteAt x.data 17))) fun i s => s.annApply x.car ((x.data.drop (0x460 + 8 * i)).take 8)) s
      let l := s.resolve
      let s := s.onDsp fun d => { d with alloc := some (epochNo t, l) }
      s.annIdle.closedKeep.reorder)

/-- The resolution is complete, 92 ms after E: the ring 38 entries (R317). -/
def execResolutionComplete (t : Nat) (s : State) : Host.Outcome State Fault Refusal :=
  done (
    let s := s.atTime t
    if s.gstate = 0 ∨ t ≠ s.dsp.e0 + 92000000 then s
    else
      let s := s.dsp.rx.foldl (fun s x =>
        let p := x.data
        s.hwPush 38 (leBytes 1 x.car ++ leBytes 1 (byteAt p 3) ++ leBytes 1 (byteAt p 12) ++ leBytes 1 (byteAt p 13) ++ leBytes 4 (leAt p 4 4) ++
          leBytes 4 x.stamp ++ leBytes 1 x.nets ++ leBytes 1 (byteAt p 17) ++ leBytes 2 (leAt p 18 2) ++ leBytes 4 (leAt p 20 4) ++
          leBytes 4 (leAt p 24 4))) s
      s.onDsp fun d => { d with rx := [] })

/-! ### Ticks and boundaries -/

/-- A door measurement at a tick (R322). -/
def State.doorMeasure (s : State) (d : Nat) : State :=
  let m := mget (fun _ => (0, 0, 0)) s.dsp.doors d
  let x := s.fld (DOOR.DOOR_STS_DSTATE d)
  let was := m.1
  let put := fun (v : Nat × Nat × Nat) (s : State) => s.onDsp fun q => { q with doors := mput (fun _ => (0, 0, 0)) q.doors d v }
  let learn := fun (f : Fld) (s : State) =>
    if s.flag DISPATCH.DSP_CFG_DFREEZE || !s.flag DISPATCH.DSP_CFG_EN then s
    else
      let ms : Int := (s.now - m.2.2) / 1000000
      let l : Int := s.fld f
      s.setFld f (clampInt 0 65535 (l + (ms - l) / 16)).toNat
  let closing := fun v => decide (v = 3 ∨ v = 6)
  if x = was then s
  else if closing x ∧ closing was then put (x, m.2) s
  else if (x = 1 ∨ closing x) ∧ (was = 0 ∨ was = 2 ∨ m.2.1 ≠ 0) then put (x, (if x = 1 then 1 else 2), s.now) s
  else if x = 2 ∧ m.2.1 = 1 then put (x, 0, 0) (learn (DISPATCH.DSP_DOORL_OPEN d) s)
  else if x = 0 ∧ m.2.1 = 2 then put (x, 0, 0) (learn (DISPATCH.DSP_DOORL_CLOSE d) s)
  else put (x, 0, 0) s


/-- The cells of a record's bytes. -/
def recCells (a : Nat) (b : List Byte) : List Host.Cell := cellsFrom a b

/-- Replaces the bytes of a region `[a, b)` by listed cells. -/
def putCells (m : List Host.Cell) (a b : Nat) (cs : List Host.Cell) : List Host.Cell :=
  m.filter (fun c => decide (c.1 < a)) ++ (cs ++ m.filter (fun c => decide (b ≤ c.1)))

/-- The record of a car in the table (R312). -/
def State.carBytes (s : State) (c : Nat) : List Byte :=
  let me := decide (c = s.me)
  let r := if me then ⟨true, s.mode, s.bidFlags, s.fld POS.ZONE_STS_LANDING, s.bidDir, s.fld DISPATCH.DSP_LOAD_LOAD, epochNo s.now⟩
    else mget (fun _ => CarRec.none) s.dsp.seen c
  let map := if me then s.dsp.cars.foldl (fun n x => n + 2 ^ x.1) 0 else 0
  leBytes 1 (b2n r.valid) ++ leBytes 1 r.mode ++ leBytes 1 r.flags ++ leBytes 1 r.landing ++ leBytes 1 r.dir ++ leBytes 1 r.load ++
    leBytes 1 (s.fld (DISPATCH.DSP_MISS_RUN c)) ++ leBytes 1 0 ++ leBytes 4 r.epoch ++ leBytes 16 map ++ padTo 36 []

/-- The record of a hall call or destination record in the table. -/
def callBytes (id : Nat) (r : CallRec) : List Byte :=
  if id < 256 then
    leBytes 1 r.state ++ leBytes 1 r.holder ++ leBytes 2 r.cost ++ leBytes 4 r.epoch ++ leBytes 1 r.seqA ++ leBytes 1 r.flags ++
      leBytes 2 (unsgn 16 r.bias) ++ leBytes 1 (b2n r.veto) ++ padTo 3 []
  else
    leBytes 1 r.state ++ leBytes 1 r.holder ++ leBytes 1 r.origin ++ leBytes 1 r.dest ++ leBytes 1 r.pax ++ leBytes 1 r.flags ++
      leBytes 1 r.seqA ++ leBytes 1 0 ++ leBytes 2 r.cost ++ leBytes 2 (unsgn 16 r.bias) ++ leBytes 1 (b2n r.veto) ++ padTo 3 [] ++
      leBytes 4 r.epoch ++ padTo 12 []

/-- The table's offset of a call. -/
def callOff (id : Nat) : Nat := if id < 256 then 0x1000 + 16 * id else 0x2000 + 32 * (id - 256)

/-- The bytes of the stop list: no rule lays out an entry, so that each present entry is a free value. -/
def State.stopBytes (s : State) : Nat → List Byte × State
  | 0 => ([], s)
  | n + 1 =>
    let f := s.free
    let r := f.2.stopBytes n
    (leBytes 8 f.1 ++ r.1, r.2)

/-- The table at a boundary goes to the bank that the lanes do not see, and the banks swap (R50, R311). In GSTATE IDLE the table is frozen
(R335): it stays as the lanes see it, while the epochs go on (the model's reading, assumption 37). -/
def State.dspBoundary (s : State) : State :=
  if s.gstate = 4 then s else
  let b := 1 - s.fld DISPATCH.TBL_STS_BANK
  let base := 0x10000 * b
  let st := s.stopBytes (min s.dsp.stops.length 128)
  let s := st.2
  let opens := fun (lo hi : Nat) => s.openCalls.countP fun c => decide (lo ≤ c.1 ∧ c.1 < hi)
  let head := leBytes 4 (s.regN DISPATCH.DSP_EPOCH) ++ leBytes 2 (opens 0 256) ++ leBytes 2 (opens 256 1280) ++
    leBytes 2 (s.fld DISPATCH.DSP_MEMB_MEMBER) ++ leBytes 2 (s.fld DISPATCH.DSP_MEMB_HEARD) ++ leBytes 1 s.gstate ++
    leBytes 1 s.dsp.stops.length ++ leBytes 2 0 ++ leBytes 4 s.dsp.crc
  let cars := (upto 16).flatMap fun c => cellsFrom (base + 0x100 + 64 * c) (s.carBytes c)
  let calls := (upto (s.lastId + 1)).flatMap fun k => cellsFrom (base + callOff k) (callBytes k (s.call k))
  let cells := cellsFrom base head ++ cars ++ cellsFrom (base + 0x500) st.1 ++ calls
  { s with sram := putCells s.sram base (base + 0x10000) cells }.setFld DISPATCH.TBL_STS_BANK b

/-! ### Commits (R307, R308, the register tables) -/

/-- Whether the mode allows an operation (R335). -/
def opAllowed (mode op : Nat) : Bool :=
  if mode = 6 ∨ mode = 7 ∨ mode = 11 then true
  else if mode = 8 then op == 2 || op == 4
  else if mode = 9 then op == 6 || op == 7 || op == 8 || op == 2 || op == 4
  else false

/-- The highest and lowest served landings. -/
def State.servedList (s : State) : List Nat := (upto s.landings).filter fun l => s.landingFlag l 0

/-- The window as it stands (R307). -/
def State.callWindow (s : State) : CallOp :=
  ⟨s.fld DISPATCH.CALL_WIN_OP, s.fld DISPATCH.CALL_WIN_ORIGIN, s.fld DISPATCH.CALL_WIN_DEST, s.fld DISPATCH.CALL_WIN_DIR,
    s.fld DISPATCH.CALL_WIN_PAX, s.fld DISPATCH.CALL_REC_REC, s.fld ⟨DISPATCH.CALL_WIN, 24, 3⟩⟩

/-- An operation takes effect and, but for car calls, is announced (R308, R309). -/
def State.opDo (s : State) (x : CallOp) : State :=
  let op := x.op
  let dst := if op ≤ 2 then x.dir else x.dst
  if op = 6 then s.onDsp fun d => { d with cars := mput (fun _ => 256) d.cars x.origin x.flags }
  else if op = 7 then s.onDsp fun d => { d with cars := mput (fun _ => 256) d.cars x.origin 256 }
  else if op = 8 then s.onDsp fun d => { d with cars := [] }
  else
    let id := opId op x.origin dst x.rec'
    let seq := ((s.call id).seqA + 1) % 256
    let s := s.onCall id fun c => { c.apply op x.origin dst x.pax x.flags (epochNo s.now) with seqA := seq }
    let a := leBytes 1 op ++ leBytes 1 x.origin ++ leBytes 1 dst ++ leBytes 1 x.pax ++ leBytes 2 (if op ≤ 2 then 0 else x.rec') ++
      leBytes 1 seq ++ leBytes 1 x.flags
    s.onDsp fun d =>
      { d with queue := if d.queue.length < 128 then d.queue ++ [⟨a, s.fld DISPATCH.DSP_CFG_ANN_REP, false⟩] else d.queue,
               closed := if op = 2 ∨ op = 4 then id :: d.closed else d.closed.filter (· != id) }

/-- The operations that wait take effect in staging order. -/
def State.opsDo (s : State) : State := s.dsp.ops.foldl State.opDo (s.onDsp fun d => { d with ops := [] })

/-- The E of the present instant, if there is one that has not run: its row came before this tick, or still waits in the queue. -/
def State.epochNow (s : State) : Option (Through Nat) :=
  if s.now % 100000000 ≠ 0 ∨ s.dsp.e0 = s.now then none
  else
    match s.dsp.ePend with
    | some t => if t.what = s.now then some t else none
    | none => s.pending.findSome? fun i =>
      match i with
      | .epochStart t => if t.what = s.now then some t else none
      | _ => none

/-- DISPATCH at a tick: the operations applied at it (R308), the door times and the route order; then an E of this instant. -/
def State.dspTick (s : State) : State :=
  let s := ((s.opsDo.doorMeasure 0).doorMeasure 1).gstateSet false
  let s := s.reorder
  match s.epochNow with
  | some t => (s.onDsp fun d => { d with ePend := none }).epochStart t.ecc
  | none => s

/-- Why GO of the window is refused, with the operations before it done; 0 when it is not. -/
def State.callCheck (s : State) : Nat :=
  let s := s.opsDo
  let op := s.fld DISPATCH.CALL_WIN_OP
  let origin := s.fld DISPATCH.CALL_WIN_ORIGIN
  let dst := s.fld DISPATCH.CALL_WIN_DEST
  let dir := s.fld DISPATCH.CALL_WIN_DIR
  let r := s.fld DISPATCH.CALL_REC_REC
  let maxL := s.fld SYS.CAPS_MAX_LANDING
  let uses := op == 1 || op == 2 || op == 3 || op == 6 || op == 7
  let served := fun l => s.landingFlag l 0
  let hall := op == 1 || op == 2
  let edge := hall && decide ((dir = 0 ∧ s.servedList.getLast? = some origin) ∨ (dir = 1 ∧ s.servedList.head? = some origin))
  let part := if s.narrow then 4 else 16
  let call := s.call (256 + r)
  let adds := { s with dsp := { s.dsp with cars := mput (fun _ => 256) s.dsp.cars origin (s.fld ⟨DISPATCH.CALL_WIN, 24, 3⟩) } }
  firstCause
    [(decide (maxL < origin ∨ maxL < dst ∨ s.lastId < 256 + r), cVariant),
     ((uses && !served origin) || (op == 3 && !served dst) || edge || (op == 3 && dst == origin) ||
        (op == 3 && s.fld DISPATCH.CALL_WIN_PAX == 0) || (op == 3 && r % part != s.me) || decide (op = 0 ∨ 8 < op), cRange),
     ((op == 3 && call.state != 0) || (op == 5 && !(call.state != 0 && call.holder == s.me)) ||
        (op == 6 && decide (128 < (adds.route (adds.visits none)).length)) ||
        (decide (1 ≤ op ∧ op ≤ 4) && decide (128 ≤ s.dsp.queue.length)) || !s.flag DISPATCH.DSP_CFG_EN, cState),
     (!opAllowed s.mode op, cMode)]

/-- GO of the window: its operation takes effect at the tick (R134, R308). -/
def State.callGo (s : State) : State := s.onDsp fun d => { d with ops := d.ops ++ [s.callWindow] }

/-- The check of a register item in DISPATCH. -/
def dspCheck (s : State) (o : Nat) (m v : Word) : Nat :=
  let x := v.toNat
  let maxC := s.fld SYS.CAPS_MAX_CAR
  if o = 0 then
    firstCause [(tch m 20 4 && decide (maxC < bitsOf x 20 4), cVariant), (!inRanges m v [(16, 4, 1, 15)], cRange)]
  else if o = 8 then (if tch m 0 16 && decide (2 ^ (maxC + 1) ≤ bitsOf x 0 16) then cVariant else 0)
  else if o = 0x38 then (if tch m 16 16 && decide (bitsOf x 24 8 < bitsOf x 16 8) then cRange else 0)
  else if o = 0x48 then (if wbit (v &&& m) 0 then s.callCheck else 0)
  else 0

/-- What a group leaves in DISPATCH. -/
def dspGroup (s0 s : State) : Nat :=
  let moved := fun (k : Nat) => s0.reg k != s.reg k
  let movedF := fun (f : Fld) => s0.fld f != s.fld f
  let en := s.flag DISPATCH.DSP_CFG_EN
  let cfg := moved DISPATCH.DSP_CFG
  let zero := (cfg || moved DISPATCH.DSP_V || moved DISPATCH.DSP_A || moved DISPATCH.DSP_J) &&
    ([DISPATCH.DSP_V, DISPATCH.DSP_A, DISPATCH.DSP_J].any fun k => s.regN k == 0)
  let net := cfg && s.fld DISPATCH.DSP_CFG_NET == 0
  let mask := (cfg || moved DISPATCH.DSP_MASK) && !bitB (s.fld DISPATCH.DSP_MASK_CARS) s.me
  let mac := (cfg || moved DISPATCH.DSP_MAC_HI) && !bitB (s.regN DISPATCH.DSP_MAC_HI) 8
  let live := s0.flag DISPATCH.DSP_CFG_EN && en &&
    (movedF DISPATCH.DSP_CFG_CAR || movedF DISPATCH.DSP_CFG_NARROW || movedF DISPATCH.DSP_CFG_NET || moved DISPATCH.DSP_GROUP ||
      moved DISPATCH.DSP_MASK)
  if en && (zero || net || mask || mac) then cRange else if live then cState else 0

/-- The effect of a register item in DISPATCH. -/
def dspApply (s : State) (o : Nat) (_m old new cmd : Word) : State :=
  if o = 0 then
    let s := s.when (wbit new 31 && !wbit old 31) fun s =>
      s.forAll [0, 1] fun d s => s.setReg (DISPATCH.DSP_DOORL d) (s.reg DISPATCH.DSP_DOOR_INIT)
    let s := s.when (wbit old 31 && !wbit new 31) fun s => (s.onDsp fun d => { d with queue := [], alloc := none, ePend := none, drop := false }).unlist
    s.gstateSet false
  else if o = 0x48 then s.when (wbit cmd 0) (·.callGo)
  else if o = 0x68 then
    let s := s.when (wbit cmd 2) fun s => s.forAll (upto 16) fun c s => s.setFld (DISPATCH.DSP_MISS_TOTAL c) 0
    let s := s.when (wbit cmd 1) fun s => s.setN DISPATCH.DSP_ERR 0
    s.when (wbit cmd 0) fun s => s.setFlag DISPATCH.DSP_STS_DIVERGE false
  else s

end Sys2Proof.Machine
end

