-- ==== Sys2Proof/Machine/Safe.lean ====
section
/-! DEFINITION. The SAFE monitors (R340 to R364): the monitor cycle, trips, gates and permits, arming, locking, release and
reset. -/

namespace Sys2Proof.Machine

def State.mon (s : State) (l : Nat) : MonSt := mget (fun _ => MonSt.reset) s.safe.mon l
def State.setMon (s : State) (l : Nat) (x : MonSt) : State :=
  { s with safe := { s.safe with mon := mput (fun _ => MonSt.reset) s.safe.mon l x } }
def State.onMon (s : State) (l : Nat) (f : MonSt → MonSt) : State := s.setMon l (f (s.mon l))

/-- A monitor that starts, is armed or is disarmed: not released, and every count of confirmation starts again (R351). -/
def MonSt.fresh (x : MonSt) : MonSt :=
  { x with released := false, cOver := 0, cPlaus := 0, cDisc := 0, brkMix := 0, brkSince := 0, brkOk := 0, cond := 0
           front := { x.front with kind := 0, conf := 0 }, rear := { x.rear with kind := 0, conf := 0 } }

/-- A monitor stops (R343): its speed channel starts anew when it runs again (R345), and it resumes without a release (R494). -/
def State.monStop (s : State) (l : Nat) : State :=
  s.onMon l fun x => { x.fresh with hist := [], started := false, cRest := 0 }

/-- Whether the monitor of a lane runs (R343). -/
def State.monRuns (s : State) (l : Nat) : Bool :=
  decide (s.fld SYS.PWR_STS_STATE ≤ 2) && s.sys.phase != 0 && s.sys.phase != 3 && !(s.lane l).clkLost && !(s.lane l).railLost

def State.ch (s : State) (n : Nat) : ChSt := mget (fun _ => ChSt.reset) s.field.ch n
def State.setCh (s : State) (n : Nat) (x : ChSt) : State :=
  { s with field := { s.field with ch := mput (fun _ => ChSt.reset) s.field.ch n x } }
def State.onCh (s : State) (n : Nat) (f : ChSt → ChSt) : State := s.setCh n (f (s.ch n))

/-- Whether samples of a contact that output `n` feeds are not used now: an off-pulse of it runs, or ended less than 100 µs ago
(R347). -/
def State.pulseBlank (s : State) (n : Nat) : Bool :=
  let x := s.ch n
  let runs := match x.pulse with
    | some p => !p.on
    | none => false
  let ended := match x.offEnd with
    | some t => decide (s.now < t + 100000)
    | none => false
  runs || ended

/-- The gates of a lane read closed in its self-test slot, and until 100 µs after the boundary that ends it (R475). -/
def State.slotShut (s : State) (l : Nat) : Bool :=
  s.laneState l == 2 || (match s.tests.slotEnd with
    | some (k, t) => k == l && decide (s.now < t + 100000)
    | none => false)

/-- The gate of a group (1 HOIST, 2 BRAKE, 3 PERM_F, 4 PERM_R) as the field dies see it: closed when the monitor stops (R343) and in a self-test
slot (R475). -/
def State.gate (s : State) (l g : Nat) : Bool :=
  bitB (s.fld (SAFE.STS_GATE l)) (g - 1) && s.monRuns l && !s.slotShut l

/-- Whether a majority of the voting lanes, both in 2oo2, has a property (R355). -/
def State.majority (s : State) (p : Nat → Bool) : Bool := decide (2 ≤ s.voters.countP p)

/-- The group of a channel, as a lane's monitor has it (R342). -/
def State.grpOf (s : State) (l c : Nat) : Nat := if c < 32 then bitsOf (s.regN (SAFE.GRP l (c / 8))) (4 * (c % 8)) 4 else 0

/-- Channels FC0 to FC31 of a group. -/
def State.grpChannels (s : State) (l g : Nat) : List Nat := (upto 32).filter fun c => s.grpOf l c == g

/-! ### Majorities and events (R355, R379) -/

/-- Majority bits: STOP 1, front permit 2, rear permit 4, DCL 8. -/
def State.majBits (s : State) : Nat :=
  b2n (s.majority fun l => s.flag (SAFE.STS_STOP l)) + 2 * b2n (s.majority fun l => s.flag (SAFE.STS_PERM_F l)) +
    4 * b2n (s.majority fun l => s.flag (SAFE.STS_PERM_R l)) + 8 * b2n (s.majority fun l => s.flag (SAFE.STS_DCL l))

/-- TRIP bits that a majority has set. -/
def State.majTrips (s : State) : Nat :=
  (upto 8).foldl (fun n b => if s.majority fun l => bitB (s.regN (SAFE.TRIP l)) b then n + 2 ^ b else n) 0

/-- Shows the majorities and fires what changed; a rise of STOP_MAJ stops axis 0. -/
def State.safeShow (s : State) : State :=
  let new := (s.majBits, s.majTrips)
  let old := s.safe.maj
  let gates := (upto 4).foldl (fun n g => if s.majority fun l => bitB (s.fld (SAFE.STS_GATE l)) g then n + 2 ^ g else n) 0
  let s := s.forAll [0, 1, 2] fun l s =>
    (s.setFlag (SAFE.STS_STOP_MAJ l) (bitB new.1 0)).setFld (SAFE.STS_GATE_MAJ l) gates
  let s := { s with safe := { s.safe with maj := new } }
  let s := s.when (bitB new.1 0 && !bitB old.1 0) fun s => (s.fire 200).axSafe
  let s := s.forAll (upto 8) fun b s => s.when (bitB new.2 b && !bitB old.2 b) fun s => s.fire 201
  let s := s.when (bitB new.1 1 != bitB old.1 1) fun s => s.fire 202
  let s := s.when (bitB new.1 2 != bitB old.1 2) fun s => s.fire 203
  s.when (bitB new.1 3 != bitB old.1 3) fun s => s.fire 204

/-- The gates of a monitor from its state (R342). -/
def State.gatesShow (s : State) (l : Nat) : State :=
  let armed := s.flag (SAFE.STS_ARMED l)
  let go := armed && (s.mon l).released && !s.flag (SAFE.STS_STOP l)
  s.setFld (SAFE.STS_GATE l)
    (3 * b2n go + 4 * b2n (armed && s.flag (SAFE.STS_PERM_F l)) + 8 * b2n (armed && s.flag (SAFE.STS_PERM_R l)))

/-- A trip (R351, R355): cause code of FIRST, its bit in TRIP, source and node. -/
def State.tripMon (s : State) (l cause bit src node : Nat) : State :=
  let s := if s.fld (SAFE.FIRST_CAUSE l) = 0 then
      (s.setN (SAFE.FIRST l) (cause * 2 ^ 28 + src * 2 ^ 24 + node * 65536)).setN (SAFE.FIRST_STAMP l) (shortOf s.now)
    else s
  let rose := !bitB (s.regN (SAFE.TRIP l)) bit
  let s := ((s.stick ⟨SAFE.TRIP l, bit, 1⟩).setFlag (SAFE.STS_STOP l) true).onMon l fun x => { x with released := false }
  s.when (bit == 7 && rose && s.votes l) fun s => s.fire 205

/-! ### Doors and buoys (R349) -/

/-- Whether a buoy is LOST to a monitor (R376). -/
def State.buoyLost (s : State) (b : BuoySt) : Bool :=
  decide (b.stamp + (s.fld LLP.AGE_MISS_MAX * s.fld LLP.CYCLE_CYCLE + 300 + s.fld LLP.TIMING_TRANSIT + s.fld LLP.TIMING_SKEW_WIN) * 1000
    < s.now)

/-- Whether the DOORS byte shows a side (0 front, 1 rear) locked (R368). -/
def buoyLocked (b : BuoySt) (x : Nat) : Bool :=
  b.health % 8 == 0 && (!bitB b.doors (4 + x) || (bitB b.doors (2 * x) && bitB b.doors (2 * x + 1)))

/-- The sides that an enabled buoy opens, and whether it is foreign. -/
def State.buoySides (s : State) (l n : Nat) (zf zr : Bool) : Bool × Bool × Bool :=
  match (s.mon l).buoys.find? fun p => p.1 == n with
  | none => (true, true, true)
  | some p =>
    let b := p.2
    if b.past || s.buoyLost b then (true, true, true)
    else
      let f := !buoyLocked b 0
      let r := !buoyLocked b 1
      let excused := b.landing == s.fld POS.ZONE_STS_LANDING && (!f || zf) && (!r || zr)
      (f, r, (f || r) && !excused)

/-- The enabled buoys of a monitor. -/
def State.buoysOn (s : State) (l : Nat) : List Nat :=
  (upto 128).filter fun n => bitB (s.regN (SAFE.BUOY_EN l (n / 32))) (n % 32)

/-! ### The monitor cycle (R340) -/

/-- The input roles: the filtered active bits after a cycle with the comparator levels `lv` of the channels, `broken` naming those whose used
samples since the last cycle did not all have that level, so that it has not held for a cycle yet (R346, R347). An invalid channel reads as
inactive (R384). -/
def State.monInputs (s : State) (l lv broken : Nat) : State :=
  s.forAll (upto 8) fun r s =>
    let put := fun (n : Nat) (s : State) => s.onMon l fun x => { x with filt := mput zeroNat x.filt r n }
    if !s.flag (SAFE.IN_EN l r) then put 0 (s.setFld ⟨SAFE.IN_LVL l, r, 1⟩ 0)
    else
      let c := s.fld (SAFE.IN_CH l r)
      let raw := s.flag (FIELD.CH_STS_VALID c) && bitB lv c != s.flag (SAFE.IN_POL l r)
      let now := bitB (s.regN (SAFE.IN_LVL l)) r
      let n := mget zeroNat (s.mon l).filt r
      let blank := s.flag (SAFE.IN_TESTED l r) && s.pulseBlank (s.fld (SAFE.IN_PULSE_CH l r))
      if bitB broken c then put 0 s
      else if blank then s
      else if raw = now then put 0 s
      else if s.fld (SAFE.IN_FILT l r) ≤ n + 1 then put 0 (s.setFld ⟨SAFE.IN_LVL l, r, 1⟩ (b2n raw))
      else put (n + 1) s

/-- The monitors' own decoders, which take A and B of an encoder input from its line receivers (R345): new levels count in X4 once they have
held for 20 ns, and a change of both lines in one sample holds the count. The levels are followed whatever runs, so they are the starting state
of a monitor that turns to the input. -/
def State.monEdge (s : State) (n : Nat) (a b : Bool) (h : Span) : State :=
  if h.t < h.since + 20 then s
  else
    let e := mget (fun _ => (false, false)) s.safe.lines n
    let s := { s with safe := { s.safe with lines := mput (fun _ => (false, false)) s.safe.lines n (a, b) } }
    if (e.1 != a) == (e.2 != b) then s
    else s.forAll [0, 1, 2] fun l s =>
      s.when (s.fld (SAFE.SPD_CFG_ENC l) == n) fun s => s.onMon l fun x => { x with cnt := x.cnt + edgeStep 0 e.1 a b }

/-- A row of the queue may carry a later hold than 20 ns, the filter's of POS: what the monitors have accepted of it by now is counted now. -/
def State.monSample (s : State) : State :=
  s.pending.foldl (fun u i =>
    match i with
    | .encoderEdge n a b h => if h.since + 20 ≤ s.now then u.monEdge n a b h else u
    | _ => u) s

/-- The levels of A and B of an encoder input have held over a span: POS takes them at the end of its own hold, the monitors at theirs
(R159, R345). -/
def execEncoderEdge (n : Fin 6) (a b : Bool) (h : Span) (s : State) : Host.Outcome State Fault Refusal :=
  done (((s.atTime h.t).encEdge n a b h).monEdge n a b h)

/-- The speed channel (R345): v_s from the counts of the last cycles, and whether the car can count as at rest. -/
def State.monSpeed (s : State) (l : Nat) : State :=
  let x := s.mon l
  let dcnt := x.cnt
  let en := s.flag (SAFE.SPD_CFG_EN l)
  let d := if s.flag (SAFE.SPD_CFG_INV l) then -dcnt else dcnt
  let h := if !en then [] else if x.started then (d :: x.hist).take 40 else []
  let n := min h.length (s.fld (SAFE.SPD_CFG_FILT l))
  let v : Int := if n = 0 then 0 else sumInt (h.take n) * s.regN (SAFE.SPD_SCALE l) * 20000 / (65536 * n)
  let rest := decide (n ≠ 0) && decide (v.natAbs ≤ s.fld (SAFE.REST_REST_V l) * 1000)
  let s := (s.setI (SAFE.SPEED l) (satInt 32 v)).setFlag (SAFE.STS_AT_REST l) rest
  s.onMon l fun x => { x with hist := h, started := en, cnt := 0 }

/-- The permit of a side (R350): the permit, whether pre-opening holds it, and the new v_min. -/
def State.permitOf (s : State) (l : Nat) (zone was : Bool) (v vmin : Nat) : Bool × Bool × Nat :=
  let vm := if was then min vmin v else v
  let slow := decide (v ≤ s.fld (SAFE.DOOR_CFG_PERM_V l) * 1000)
  let pre := s.flag (SAFE.DOOR_CFG2_PRE_EN l) && decide (v ≤ s.fld (SAFE.DOOR_CFG_PRE_V l) * 1000) &&
    decide (v ≤ vm + s.fld (SAFE.DOOR_CFG2_PRE_HYST l) * 1000)
  let p := zone && (slow || pre)
  (p, p && !slow, if p then vm else v)

/-- A side at a cycle: its new state and whether its condition trips now (R351, R352). -/
def State.sideStep (s : State) (l : Nat) (x : SideSt) (doorSrc : Nat) (zone door lock open' perm buoy vMoved lockMoved : Bool)
    (node : Nat) : SideSt :=
  let cond := open' && !perm
  let armed := s.flag (SAFE.STS_ARMED l)
  let x1 : SideSt := { x with open' := open', perm := perm, door := door, buoy := buoy, zone := zone }
  if !cond || !armed then { x1 with kind := 0, src := 0, node := 0, conf := 0 }
  else if x.kind ≠ 0 then { x1 with conf := min (x.conf + 1) 255 }
  else
    let zoneMoved := zone != x.zone
    let byMotion := zoneMoved || (x.perm && vMoved)
    if byMotion then { x1 with kind := 1, src := if zoneMoved then 5 else 6, conf := 1 }
    else if buoy && !x.buoy then { x1 with kind := 3, src := 4, node := node, conf := 1 }
    else if door != x.door then { x1 with kind := 2, src := doorSrc, conf := 1 }
    else if lockMoved then { x1 with kind := 2, src := if lock then 0 else 3, conf := 1 }
    else { x1 with kind := 2, src := 0, conf := 1 }

/-- The overspeed limit of the mode (R361). -/
def State.overLimit (s : State) (l : Nat) : Option Nat :=
  let m := s.mode
  if m = 4 ∨ m = 5 then some (s.regN (SAFE.OS_INSP l))
  else if m = 10 then some (s.regN (SAFE.OS_RESC l))
  else if 6 ≤ m ∧ m ≤ 11 then some (s.regN (SAFE.OS_NORM l))
  else none

/-- The brake test of a cycle (R353): the new state and whether it fails. -/
def State.brakeStep (s : State) (l : Nat) (x : MonSt) : MonSt × Bool :=
  let fb := [5, 6].filter fun r => s.flag (SAFE.IN_EN l r)
  let ch := s.grpChannels l 2
  let lim := s.fld (SAFE.BRK_CFG_BRK_T l) * 20
  let armed := s.flag (SAFE.STS_ARMED l)
  let allOn := !ch.isEmpty && ch.all fun c => s.flag (FIELD.CH_STS_SW c)
  let allOff := ch.all fun c => !s.flag (FIELD.CH_STS_SW c)
  let on := if allOn then true else if allOff then false else x.brkOn
  let mixed := !allOn && !allOff
  let moved := on != x.brkOn
  let since := if moved || !armed then 0 else x.brkSince + 1
  let mix := if mixed && armed then x.brkMix + 1 else 0
  let right := fun r => bitB (s.regN (SAFE.IN_LVL l)) r == on
  let ok := fb.foldl (fun n r => if right r && !bitB n r then n + 2 ^ r else n) (if moved || !armed then 0 else x.brkOk)
  let bad := armed && !fb.isEmpty &&
    (decide (lim < mix) || fb.any fun r => !right r && (bitB ok r || decide (lim ≤ since)))
  ({ x with brkOn := on, brkSince := min since 100001, brkMix := min mix 100001, brkOk := ok }, bad)

/-- Whether the gates of monitor `l` disagree with the other monitors that take part (R354). -/
def State.discNow (s : State) (l : Nat) : Bool :=
  if !s.votes l then false
  else
    let others := s.voters.filter (· != l)
    let g := fun (k b : Nat) => bitB (s.fld (SAFE.STS_GATE k)) b
    match others with
    | [a, b] => (upto 4).any fun i => g l i != g a i && g l i != g b i
    | [a] => (upto 4).any fun i => g l i && !g a i
    | _ => false

/-- The door state of a monitor: open sides with their buoy parts, foreign, and the first buoy that opens a side. -/
def State.doorState (s : State) (l : Nat) (zf zr : Bool) : Bool × Bool × Bool × Nat :=
  (s.buoysOn l).foldl (fun (p : Bool × Bool × Bool × Nat) n =>
    let b := s.buoySides l n zf zr
    let first := if (b.1 || b.2.1) && !(p.1 || p.2.1) then n else if b.2.2 && !p.2.2.1 then n else p.2.2.2
    (p.1 || b.1, p.2.1 || b.2.1, p.2.2.1 || b.2.2, first)) (false, false, false, 0)

/-- Whether a cycle of a monitor can fall now: no sooner than 49 µs after the last one (R25, R340). -/
def State.monDue (s : State) (l : Nat) : Bool :=
  s.monRuns l && (match (s.mon l).at' with
    | some a => decide (a + 49000 ≤ s.now)
    | none => true)

/-- One cycle of the monitor of lane `l`, with the comparator levels of the channels and those that did not hold over the cycle. -/
def State.monCycle (s : State) (l lv broken : Nat) : State :=
  let s := s.monSample.onLane l fun x => { x with tally := { x.tally with safes := x.tally.safes + 1 } }
  let x0 := s.mon l
  let s := (s.monInputs l lv broken).monSpeed l
  let act := fun (r : Nat) => s.flag (SAFE.IN_EN l r) && bitB (s.regN (SAFE.IN_LVL l)) r
  let made := fun (r : Nat) => !s.flag (SAFE.IN_EN l r) || bitB (s.regN (SAFE.IN_LVL l)) r
  let zf := act 0
  let zr := act 1
  let lock := made 4
  let v := (s.regI (SAFE.SPEED l)).natAbs
  let ds := s.doorState l zf zr
  -- only CDOOR_R and LOCK_HW count as closed and made when absent (R346)
  let openF := !act 2 || !lock || ds.1
  let openR := !made 3 || !lock || ds.2.1
  let foreign := ds.2.2.1
  let node := ds.2.2.2
  let pf := s.permitOf l zf x0.front.perm v (s.regN (SAFE.VMIN l))
  let pr := s.permitOf l zr x0.rear.perm v (s.regN (SAFE.VMIN_R l))
  let s := (s.setN (SAFE.VMIN l) pf.2.2).setN (SAFE.VMIN_R l) pr.2.2
  let put := fun (f : Nat → Fld) (b : Bool) (s : State) => s.setFlag (f l) b
  let s := put SAFE.STS_ZONE_F zf (put SAFE.STS_ZONE_R zr (put SAFE.STS_OPEN_F openF (put SAFE.STS_OPEN_R openR
    (put SAFE.STS_FOREIGN foreign (put SAFE.STS_DCL (!openF && !openR) (put SAFE.STS_PERM_F pf.1 (put SAFE.STS_PERM_R pr.1
      (put SAFE.STS_PRE (pf.2.1 || pr.2.1) s))))))))
  let armed := s.flag (SAFE.STS_ARMED l)
  let vMoved := decide (s.regI (SAFE.SPEED l) ≠ x0.v)
  let lockMoved := lock != x0.lock
  let fr := s.sideStep l x0.front 1 zf (made 2) lock openF pf.1 ds.1 vMoved lockMoved node
  let re := s.sideStep l x0.rear 2 zr (made 3) lock openR pr.1 ds.2.1 vMoved lockMoved node
  -- conditions
  let past := armed && (match s.overLimit l with
    | some lim => decide (lim < v)
    | none => false)
  let cOver := if past then min (x0.cOver + 1) 255 else 0
  let loss := armed && s.flag (SAFE.SPD_CFG_EN l) && s.flag (POS.ENC_STS_LOSS_NOW (s.fld (SAFE.SPD_CFG_ENC l)))
  let st := s.posState
  let plaus := armed && decide (st = 2 ∨ st = 3) &&
    decide (s.fld (SAFE.PLAUS_PLAUS_V l) * 1000 < (s.regI (SAFE.SPEED l) - s.regI POS.FUS_VEL).natAbs)
  let cPlaus := if plaus then min (x0.cPlaus + 1) 20001 else 0
  let disc := armed && s.discNow l
  let cDisc := if disc then min (x0.cDisc + 1) 255 else 0
  let br := s.brakeStep l (s.mon l)
  let ucm := decide (fr.kind = 1 ∨ re.kind = 1)
  let dmCond := armed && (foreign || decide (2 ≤ fr.kind ∨ 2 ≤ re.kind))
  let rest := s.flag (SAFE.STS_AT_REST l)
  let restart := foreign && !x0.foreign
  let cRest := if !dmCond && rest && !restart then min (x0.cRest + 1) 1400000 else 0
  let cond := b2n past + 2 * b2n ucm + 4 * b2n br.2 + 8 * b2n (loss || plaus) + 16 * b2n disc
  let v' := s.regI (SAFE.SPEED l)
  let s := s.setMon l { br.1 with front := fr, rear := re, lock := lock, v := v', cOver := cOver, cPlaus := cPlaus, cDisc := cDisc,
                                  cRest := cRest, foreign := foreign, cond := cond, at' := some s.now }
  -- trips
  let dc := s.fld (SAFE.DOOR_CFG2_DC_CONF l)
  let uc := s.fld (SAFE.DOOR_CFG2_UCM_CONF l)
  let trips := fun (k : SideSt) (kind n : Nat) => decide (k.kind = kind ∧ n ≤ k.conf)
  let s := s.when (past && decide (s.fld (SAFE.SPD_CFG_OS_CONF l) ≤ cOver)) fun s => s.tripMon l 1 3 0 0
  let s := s.when (trips fr 1 uc) fun s => s.tripMon l 2 4 fr.src 0
  let s := s.when (trips re 1 uc) fun s => s.tripMon l 2 4 re.src 0
  let s := s.when (trips fr 2 dc || trips fr 3 0) fun s => s.tripMon l 3 2 fr.src fr.node
  let s := s.when (trips re 2 dc || trips re 3 0) fun s => s.tripMon l 3 2 re.src re.node
  let s := s.when (armed && foreign) fun s => s.tripMon l 3 2 4 node
  let s := s.when br.2 fun s => s.tripMon l 4 5 0 0
  let s := s.when (loss || (plaus && decide (s.fld (SAFE.PLAUS_PLAUS_T l) * 20 ≤ cPlaus))) fun s => s.tripMon l 5 6 0 0
  let s := s.when (disc && decide (40 ≤ cDisc)) fun s => s.tripMon l 6 7 0 0
  let clear := decide (s.fld (SAFE.REST_REST_T l) * 20 ≤ cRest)
  let s := s.when clear fun s => s.setFld (SAFE.TRIP_DOOR_MOVE l) 0
  let s := s.setFlag (SAFE.STS_STOP l) (s.regN (SAFE.TRIP l) != 0)
  (s.gatesShow l).safeShow

/-! ### Commits (R356 to R360) -/

/-- Disarms every monitor (R344, R490). -/
def State.disarmAll (s : State) : State :=
  let any := [0, 1, 2].any fun l => s.flag (SAFE.STS_ARMED l)
  let s := s.forAll [0, 1, 2] fun l s =>
    ((s.setFlag (SAFE.STS_ARMED l) false).onMon l MonSt.fresh).gatesShow l
  (s.when any fun s => s.fire 207).safeShow

/-- What ARM needs (R359). -/
def State.armOk (s : State) (l : Nat) : Bool :=
  s.flag (SAFE.SPD_CFG_EN l) && decide (0x100 ≤ s.regN (SAFE.SPD_SCALE l)) &&
    s.regN (SAFE.OS_NORM l) != 0 && s.regN (SAFE.OS_INSP l) != 0 && s.regN (SAFE.OS_RESC l) != 0 &&
    (s.flag (SAFE.IN_EN l 0) || s.flag (SAFE.IN_EN l 1)) && s.flag (SAFE.IN_EN l 2) && s.flag (SAFE.IN_EN l 7)

/-- What RELEASE needs (R357). -/
def State.releaseOk (s : State) (l : Nat) : Bool :=
  let cmd := (upto 32).any fun c => (s.grpOf l c == 1 || s.grpOf l c == 2) && s.flag (FIELD.CH_OUT_ON c)
  let side := (s.flag (SAFE.STS_OPEN_F l) && !s.flag (SAFE.STS_PERM_F l)) || (s.flag (SAFE.STS_OPEN_R l) && !s.flag (SAFE.STS_PERM_R l))
  s.flag (SAFE.STS_ARMED l) && s.regN (SAFE.TRIP l) == 0 && !cmd && !side

/-- What RESET needs (R356). -/
def State.safeResetOk (s : State) (l : Nat) : Bool :=
  s.flag (SAFE.IN_EN l 7) && bitB (s.regN (SAFE.IN_LVL l)) 7 && s.flag (SAFE.STS_AT_REST l) && (s.mon l).cond == 0

/-- The check of a register item in SAFE of lane `l`. -/
def safeCheck (s : State) (l o : Nat) (m v : Word) : Nat :=
  let x := v.toNat
  let rng := fun f => if inRanges m v f then 0 else cRange
  let locked := decide (0x20 ≤ o ∧ o ≤ 0xBC) && s.flag (SAFE.STS_LOCKED l)
  if locked then cLocked
  else if o = 0 then
    let c := v &&& m
    firstCause
      [(wbit c 31 && decide (s.mode ≤ 3), cMode), (wbit c 31 && !s.armOk l, cState),
       (wbit c 30 && s.mode != 6, cMode), (wbit c 30 && !s.flag (SAFE.STS_ARMED l), cState),
       (wbit c 28 && !s.safeResetOk l, cState), (wbit c 29 && !s.releaseOk l, cState)]
  else if o = 0x20 then rng [(27, 3, 0, 5), (8, 8, 1, 40), (0, 8, 1, 40)]
  else if o = 0x34 then (if bitsOf x 16 16 < bitsOf x 0 16 then cRange else 0)
  else if o = 0x38 then rng [(8, 8, 1, 40), (0, 8, 1, 60)]
  else if o = 0x3C then rng [(16, 16, 1, 65535), (0, 16, 1, 100)]
  else if o = 0x40 then rng [(0, 16, 10, 5000)]
  else if o = 0x44 then rng [(0, 16, 1, 1000)]
  else if 0x80 ≤ o ∧ o < 0xA0 then
    if !inRanges m v [(8, 6, 0, 47), (0, 8, 1, 200)] || (wbit v 29 && (tch m 16 6 || tch m 29 1) && decide (31 < bitsOf x 16 6)) then cRange else 0
  else if 0xA0 ≤ o ∧ o < 0xB0 then
    (if (upto 8).all fun j => !tch m (4 * j) 4 || decide (bitsOf x (4 * j) 4 ≤ 4) then 0 else cRange)
  else 0

/-- The effect of a register item in SAFE of lane `l`. -/
def safeApply (s : State) (l o : Nat) (_m old new cmd : Word) : State :=
  if o = 0 then
    let s := s.when (wbit cmd 31 && !s.flag (SAFE.STS_ARMED l)) fun s =>
      (s.setFlag (SAFE.STS_ARMED l) true).onMon l MonSt.fresh
    let s := s.when (wbit cmd 30) fun s => s.setFlag (SAFE.STS_LOCKED l) true
    let s := s.when (wbit cmd 28) fun s =>
      let s := s.setN (SAFE.TRIP l) (bitsOf (s.regN (SAFE.TRIP l)) 2 1 * 4)
      let s := (s.setN (SAFE.FIRST l) 0).setN (SAFE.FIRST_STAMP l) 0
      s.setFlag (SAFE.STS_STOP l) (s.regN (SAFE.TRIP l) != 0)
    let s := s.when (wbit cmd 29 && s.regN (SAFE.TRIP l) == 0) fun s => s.onMon l fun x => { x with released := true }
    s.gatesShow l
  else if o = 0x20 then
    s.when (wbit new 31 && !wbit old 31) fun s => s.onMon l fun x => { x with hist := [], started := false }
  else s

/-- What a committed item of SAFE fires, once for all lanes (R379). -/
def safeNotify (s : State) (o : Nat) (cmd : Word) : State :=
  if o = 0 then
    let s := s.when (wbit cmd 28) fun s => s.fire 206
    let s := s.when (wbit cmd 29) fun s => s.fire 206
    let s := s.when (wbit cmd 31) fun s => s.fire 207
    let s := s.when (wbit cmd 30) fun s => s.fire 207
    s.safeShow
  else s

end Sys2Proof.Machine
end

