-- ==== Sys2Proof/Machine/Range.lean ====
section
/-! DEFINITION. RANGE (R455 to R473), its states: changes of state, the claim, readiness, what is heard of the partner, and what a
boundary does. -/

namespace Sys2Proof.Machine

def State.onRange (s : State) (f : RangeSt → RangeSt) : State := { s with range := f s.range }
def State.rangeState (s : State) : Nat := s.fld RANGE.STS_STATE

/-- Whether the device is paired: neither SOLO nor DUP. -/
def State.paired (s : State) : Bool := s.rangeState != 0 && s.rangeState != 7

/-- The states that count as duty (D of R456). -/
def dutyState (st : Nat) : Bool := st == 3 || st == 4 || st == 5

/-- The claim of the device (R456). -/
def State.claimNo (s : State) : Nat := (if dutyState s.rangeState then 128 else 0) + s.fld RANGE.STS_BASE

/-- Whether the device takes part in CLAIM rounds. -/
def State.claims' (s : State) : Bool := dutyState s.rangeState && !s.range.quit

/-- HOLDFAST shows a low level at the present instant. -/
def State.hfLow (s : State) : State := s.onRange fun r => { r with idle := false, lowAt := s.now }

def State.setHoldsHf (s : State) (b : Bool) : State :=
  if s.flag RANGE.STS_HOLDS_HF == b then s else ((s.setFlag RANGE.STS_HOLDS_HF b).fire 243).hfLow

def State.setHoldsClaim (s : State) (b : Bool) : State :=
  if s.flag RANGE.STS_HOLDS_CLAIM == b then s
  else
    let s := (s.setFlag RANGE.STS_HOLDS_CLAIM b).fire 242
    if b then s else s.onRange fun r => { r with claimOff := s.now + 50000 }

/-- A change of RANGE state: ring 31 and source 240 (R484, R485). -/
def State.rangeTo (s : State) (new cause : Nat) : State :=
  let old := s.rangeState
  if old = new then s
  else
    let s := (s.setFld RANGE.STS_STATE new).onRange fun r => { r with stAt := s.now }
    let s := if new = 0 ∨ new = 7 then (s.setHoldsClaim false).setHoldsHf false else if new = 6 then s.setHoldsHf false else s
    let fl := b2n (s.flag RANGE.STS_HOLDS_CLAIM) + 2 * b2n (s.flag RANGE.STS_HOLDS_HF)
    (s.hwPush 31 (leBytes 4 (shortOf s.now) ++ leBytes 1 new ++ leBytes 1 old ++ leBytes 1 fl ++ leBytes 1 cause ++
      leBytes 4 (s.fld RANGE.STS_BUS))).fire 240

/-- The MRAM offset of an image bank (R52). -/
def imgBase (bank : Nat) : Nat := 0x100000 + 0x400000 * (bank % 2)

/-- An offset in a bank, at the start of one of its 16 384 blocks of 256 bytes. -/
def blockOff (off : Nat) : Nat := off / 256 % 16384 * 256

/-- The first four bytes of BODY_HASH of the running image. -/
def State.hashWord (s : State) : Nat := rdLE s.mram (imgBase s.img.bank + 0x40) 4

/-- READY (R464). -/
def State.readyShow (s : State) : State :=
  let r := s.range
  let safe := s.voters.all fun l => s.flag (SAFE.STS_ARMED l) && (s.mon l).released && s.regN (SAFE.TRIP l) == 0
  let b := s.rangeState == 2 && decide (16 ≤ r.recs) && decide (16 ≤ r.own) && safe && s.mode == r.pMode &&
    r.hash == some s.hashWord
  s.setFlag RANGE.STS_READY b

/-- The partner is heard: SEEKING ends (R456). -/
def State.heardPartner (s : State) : State :=
  let s := s.onRange fun r => { r with heard := true }
  if s.rangeState = 1 then s.rangeTo 2 7 else s

/-- A path (0 link, 1 LLP) is lost or restored: ring 30 and source 241 (R463, R484). -/
def State.pathTo (s : State) (path : Nat) (lost : Bool) : State :=
  let f := if path = 0 then RANGE.STS_LINK_LOST else RANGE.STS_LLP_LOST
  if s.flag f == lost then s
  else
    let s := s.setFlag f lost
    -- with no good word on the link the records of the last partner tides are not all received (R464)
    let s := s.when (path == 0 && lost) fun s => (s.onRange fun r => { r with recs := 0 }).readyShow
    (s.hwPush 30 (leBytes 4 (shortOf s.now) ++ leBytes 1 path ++ leBytes 1 (b2n lost))).fire 241

/-- A HEART that reports ON_DUTY, TAKING or HANDING is delivered from a device of the range pairs (R466). -/
def State.dutyHeard (s : State) (node : Nat) (p : List Byte) : State :=
  if dutyState (p.getD 2 0).toNat then s.onRange fun r => { r with duty := (node, s.now) :: r.duty.filter fun d => d.1 != node } else s

/-- The last HEART of the partner that reported duty (R466). -/
def State.dutyAt (s : State) : Option Nat := (s.range.duty.find? fun d => d.1 == 128 + s.fld RANGE.CFG_PARTNER).map (·.2)

/-- A HEART of the partner is delivered (R463, R465). -/
def State.heartHeard (s : State) (p : List Byte) : State :=
  if !s.paired then s
  else
    let b := fun i => (p.getD i 0).toNat
    let s := s.setN RANGE.PARTNER (b 0 * 2 ^ 24 + b 1 % 16 * 2 ^ 20 + b 2 % 16 * 2 ^ 16 + b 3 * 256)
    let s := s.setFlag RANGE.STS_P_READY (bitB (b 3) 3)
    let s := s.onRange fun r => { r with pMode := b 1 % 16 }
    let s := (s.readyShow.pathTo 1 false).heardPartner
    s.onRange fun r => { r with wasReady := s.flag RANGE.STS_READY, pSt := b 2 % 16 }

/-- CH_OUT as bits. -/
def State.chOuts (s : State) : Nat := (upto 32).foldl (fun a n => if s.flag (FIELD.CH_OUT_ON n) then a + 2 ^ n else a) 0

/-- The mirror of the last record that is complete before the present instant (R462, R473). -/
def State.mirrorOf (s : State) : Option Nat :=
  let r := s.range
  if !r.recSeen then none else if r.recAt = s.now then r.recOld else some (s.regN RANGE.MIRROR)

/-- CH_OUT in effect is set to the mirror (R462). -/
def State.takeMirror (s : State) : State :=
  let s := s.onRange fun r => { r with latch := none }
  match s.mirrorOf with
  | some m => s.forAll (upto 32) fun n s => s.setFlag (FIELD.CH_OUT_ON n) (bitB m n)
  | none => s

/-- The device starts to drive: RANGE.GAP opens at the last good link word, for the outputs that it does not drive yet (R470). -/
def State.gapOpen (s : State) : State :=
  s.onRange fun r =>
    { r with gapFrom := r.linkAt
             gapN := r.linkAt.isSome && !s.flag RANGE.STS_HOLDS_CLAIM
             gapS := r.linkAt.isSome && !s.flag RANGE.STS_HOLDS_HF }

/-- A half of RANGE.GAP closes at an instant. -/
def State.gapClose (s : State) (safe : Bool) (t : Nat) : State :=
  let r := s.range
  match r.gapFrom with
  | none => s
  | some a =>
    let us := min 65535 ((t - a) / 1000)
    if safe then (if r.gapS then (s.setFld RANGE.GAP_SAFE us).onRange fun r => { r with gapS := false } else s)
    else if r.gapN then (s.setFld RANGE.GAP_NONSAFE us).onRange fun r => { r with gapN := false }
    else s

/-- HANDING starts: the latches hold (R467). -/
def State.handStart (s : State) (mis : Bool) : State :=
  let c := s.chOuts
  (s.onRange fun r => { r with latch := some c, quit := false, passed := false, pulses := 0, mis := mis }).rangeTo 5 (if mis then 3 else 1)

/-- The stream record of a boundary (R462). -/
def State.streamRecord (s : State) : List Byte :=
  let xs := (upto 14).filter s.range.xfer.contains
  let mask := xs.foldl (fun a k => a + 2 ^ k) 0
  leBytes 4 (s.regN GALLERY.TIDE_NUM_LO) ++ leBytes 1 (s.fld GALLERY.COMMIT_STS_OUTCOME) ++ leBytes 1 s.mode ++
    leBytes 1 s.rangeState ++ leBytes 1 (b2n (s.rangeState == 5)) ++ leBytes 4 s.chOuts ++
    (upto 8).flatMap (fun k => leBytes 4 (s.regN (GALLERY.DIGEST k))) ++ leBytes 4 mask ++
    xs.flatMap fun k => leBytes 4 (s.regN (RANGE.XFER k))

/-- A handover that PAIR_MIS started ends at this boundary, the first after the pass: the device enters DARK (R467). -/
def State.handDark (s : State) : Bool := s.rangeState == 5 && s.range.quit && s.range.mis && !s.flag RANGE.STS_HOLDS_HF

/-- What RANGE does at a boundary, once the write set has applied; `good` tells whether the tide had outcome FULL, MAJ or PAIR. -/
def State.rangeBoundary (s : State) (good : Bool) : State :=
  -- the partner's hold pattern has left the line (R461)
  let s := s.when (s.flag RANGE.STS_HOLDS_HF && decide (s.range.lowAt + 100000 ≤ s.now)) fun s => s.setFlag RANGE.STS_HF_SEEN false
  let s := s.onRange fun r => { r with own := if good then min 16 (r.own + 1) else 0 }
  let st := s.rangeState
  let r := s.range
  -- what arrives at the boundary's own instant counts at the next one
  let hand := match r.handIn with
    | some t => decide (t < s.now)
    | none => false
  let lost := match r.loss with
    | some t => decide (t < s.now)
    | none => false
  let out : State :=
    if st = 2 then
      if hand then (s.onRange fun r => { r with handIn := none }).gapOpen.takeMirror.rangeTo 3 1
      else if lost && s.flag RANGE.CFG_AUTO && r.wasReady then
        (s.onRange fun r => { r with takeAt := some s.now }).gapOpen.takeMirror.rangeTo 4 2
      else
        s.onRange fun r => { r with latch := s.mirrorOf }
    else if st = 3 then
      -- the takeover completes under R468 and R471 (R473); a device that holds HOLDFAST has no take to make
      if lost then
        (s.gapOpen.onRange fun r => { r with takeAt := if s.flag RANGE.STS_HOLDS_HF then none else some s.now }).rangeTo 4 1
      else if s.flag RANGE.STS_HOLDS_HF || r.pSt == 2 then s.rangeTo 4 1
      else s
    else if st = 5 then
      if !r.quit then
        if r.stAt = s.now then s.onRange fun r => { r with latch := some s.chOuts }
        else if r.pSt = 3 then
          s.onRange fun r => { r with quit := true, passed := s.flag RANGE.STS_HOLDS_HF, pulses := 0 }
        else s
      else if !s.flag RANGE.STS_HOLDS_HF then
        (s.onRange fun r => { r with quit := false, passed := false, mis := false, takeAt := none, latch := s.mirrorOf }).rangeTo 2
          (if r.mis then 3 else 1)
      else s
    else s
  -- a partner loss counts at the next boundary alone, and at the one after when that boundary starts a handover (R468, R473)
  let s := out.onRange fun q => { q with loss := if st == 2 && !hand && lost || st != 2 && st != 3 || st == 3 && lost then none else q.loss }
  let s := if s.paired then s.onRange fun r => { r with sent := s.streamRecord, xfer := [] } else s.onRange fun r => { r with xfer := [] }
  s.readyShow

/-! ### Commits of RANGE -/

/-- The check of a register item in RANGE. -/
def rangeCheck (s : State) (o : Nat) (m v : Word) : Nat :=
  let st := s.rangeState
  if o = 0 then
    firstCause
      [(wbit v 31 && tch m 31 1 && !(s.flag LLP.CFG_EN && s.flag LLP.CFG_HEART_EN), cState),
       (dutyState st && decide ((v &&& m &&& 0xF8F00000#32) ≠ (s.reg RANGE.CFG &&& m &&& 0xF8F00000#32)), cState),
       (!inRanges m v [(20, 4, 1, 15)], cRange),
       (tch m 27 3 && decide (bitsOf v.toNat 27 3 = s.fld LLP.CFG_NODE), cRange)]
  else if o = 4 then
    let c := v &&& m
    let recent := match s.dutyAt with
      | some t => decide (s.now ≤ t + 100000000)
      | none => false
    firstCause
      [(wbit c 31 && (recent || !(st == 1 || st == 2)), cState),
       (wbit c 30 && !(st == 4 && s.flag RANGE.STS_P_READY), cState)]
  else 0

/-- The effect of a register item in RANGE. -/
def rangeApply (s : State) (o : Nat) (_m old new cmd : Word) : State :=
  if o = 0 then
    if wbit new 31 && !wbit old 31 && s.fld RANGE.STS_BASE != 0 && s.rangeState == 0 then
      let f := s.free
      (f.2.onRange fun r => { RangeSt.reset with enAt := s.now, own := r.own, lowAt := s.now, duty := r.duty }).rangeTo 1 (f.1 % 256)
    else if !wbit new 31 && wbit old 31 && s.rangeState != 7 then
      let f := s.free
      (f.2.onRange fun r => { r with latch := none }).rangeTo 0 (f.1 % 256)
    else s
  else if o = 4 then
    let s := s.when (wbit cmd 29) fun s =>
      let s := s.setN RANGE.ERR 0
      if s.rangeState = 6 then (s.onRange fun r => { r with takeAt := none }).rangeTo 2 5 else s
    let s := s.when (wbit cmd 31) fun s => (s.onRange fun r => { r with takeAt := none }).gapOpen.takeMirror.rangeTo 4 0
    s.when (wbit cmd 30) fun s => s.handStart false
  else if 0x40 ≤ o ∧ o < 0x78 then
    s.onRange fun r => { r with xfer := r.xfer ++ [(o - 0x40) / 4] }
  else s

end Sys2Proof.Machine
end

