-- ==== Sys2Proof/Machine/Field.lean ====
section
/-! DEFINITION. FIELD and LEDGER (R380 to R413): inputs and counters, switch gates and switches, the ledger, test pulses, VFIELD,
the links to the lanes, and commits. -/

namespace Sys2Proof.Machine

def State.die (s : State) (k : Nat) : DieSt := mget (fun _ => DieSt.reset) s.field.die k
def State.onDie (s : State) (k : Nat) (f : DieSt → DieSt) : State :=
  { s with field := { s.field with die := mput (fun _ => DieSt.reset) s.field.die k (f (s.die k)) } }

/-- Whether die `k` is powered (R409, R497). -/
def State.dieUp (s : State) (k : Nat) : Bool :=
  s.sys.phase != 0 && decide (s.fld SYS.PWR_STS_STATE ≤ 3) &&
    (s.sys.phase != 1 || decide (s.sys.start + 3400000 + 200000 * k ≤ s.now))

/-- The die of a channel. -/
def dieOf (n : Nat) : Nat := if n < 24 then 0 else 1
def State.chMode (s : State) (n : Nat) : Nat := s.fld (FIELD.CH_CFG_MODE n)
def State.pairKind (s : State) (n : Nat) : Nat := if n % 2 = 0 ∧ n < 32 then s.fld (FIELD.CH_CFG_PAIR n) else 0
/-- Whether a channel is the odd channel of a pair. -/
def State.isSecond (s : State) (n : Nat) : Bool := n % 2 == 1 && decide (n < 32) && s.pairKind (n - 1) != 0
/-- The channel whose command and request cover channel `n`. -/
def State.headOf (s : State) (n : Nat) : Nat := if s.isSecond n then n - 1 else n
/-- The channels that a head covers. -/
def State.members (s : State) (n : Nat) : List Nat := if s.pairKind n = 0 then [n] else [n, n + 1]
/-- The heads of a die, ascending. -/
def State.heads (s : State) (k : Nat) : List Nat :=
  (upto 32).filter fun n => dieOf n == k && s.chMode n == 2 && !s.isSecond n

/-- An entry of a channel's event ring, with the stamp of what it reports (R412). -/
def State.chEventAt (s : State) (stamp n kind detail : Nat) : State :=
  s.hwPush (40 + n / 6) (leBytes 4 (shortOf stamp) ++ leBytes 1 n ++ leBytes 1 kind ++ leBytes 1 detail ++ leBytes 1 0)

/-- An entry of a channel's event ring for what happens now. -/
def State.chEvent (s : State) (n kind detail : Nat) : State := s.chEventAt s.now n kind detail

/-! ### Switch gates (R389) -/

/-- The group of a channel as the dies take it: what a majority of the voting monitors give. -/
def State.groupOf (s : State) (n : Nat) : Option Nat :=
  let gs := s.voters.map fun l => s.grpOf l n
  gs.find? fun g => decide (2 ≤ gs.countP (· == g))

/-- Whether a channel is safety-class; one without an agreed group is treated so. -/
def State.safetyClass (s : State) (n : Nat) : Bool := s.groupOf n != some 0

/-- The command latch of lane `l` for channel `n` in its die (R132, R408). -/
def State.latchOf (s : State) (l n : Nat) : Bool :=
  decide (s.laneState l ≤ 2) && !bitB (s.fld (FIELD.DIE_STS_LINK (dieOf n))) l &&
    (match s.range.latch with
      | some m => bitB m (s.headOf n)
      | none => s.flag (FIELD.CH_OUT_ON (s.headOf n)))

/-- The switch gate of a channel: the majority of the three gated latches. -/
def State.gateNow (s : State) (n : Nat) : Bool :=
  match s.groupOf n with
  | none => false
  | some g =>
    let k := [0, 1, 2].countP fun l => s.latchOf l n && (g == 0 || s.gate l g)
    decide (2 ≤ k)

/-- Whether SAFE holds a channel closed: its group has no agreement, or too few gates of it are open (R341, R389). -/
def State.safeShut (s : State) (n : Nat) : Bool :=
  match s.groupOf n with
  | none => true
  | some g => g != 0 && decide ([0, 1, 2].countP (fun l => s.gate l g) < 2)

/-- Whether the range pair lets a channel be driven (R459, R461). -/
def State.rangeLets (s : State) (n : Nat) : Bool :=
  s.fld RANGE.STS_STATE == 0 || (if s.safetyClass n then s.flag RANGE.STS_HOLDS_HF
    else s.flag RANGE.STS_HOLDS_CLAIM || decide (s.now < s.range.claimOff))

/-- Whether the switch of a channel is on. -/
def State.swNow (s : State) (n : Nat) : Bool :=
  let h := s.headOf n
  let x := s.ch h
  let off := match (s.ch n).pulse with
    | some p => !p.on
    | none => false
  let onP := match (s.ch n).pulse with
    | some p => p.on
    | none => false
  let latched := (s.members h).any fun c => s.flag (FIELD.CH_STS_LATCHED c)
  s.chMode n == 2 && !s.safeShut n && ((x.gate && x.adm.isSome) || onP) && !latched && !s.flag (FIELD.CH_STS_HELD h) &&
    !s.flag (FIELD.DIE_STS_UVL (dieOf n)) && !s.flag (FIELD.DIE_STS_REV (dieOf n)) && !off && !s.flag (FIELD.CH_STS_THERM n) && s.rangeLets n &&
    decide (s.fld SYS.PWR_STS_STATE ≤ 3)

/-- Shows the switches, with the instant of a change. -/
def State.swShow (s : State) : State :=
  let s := s.forAll (upto 32) fun n s =>
    let on := s.swNow n
    if s.flag (FIELD.CH_STS_SW n) == on then s
    else (s.setFlag (FIELD.CH_STS_SW n) on).onCh n fun x => { x with swAt := s.now }
  s.setN FIELD.SW_LVL ((upto 32).foldl (fun a n => if s.flag (FIELD.CH_STS_SW n) then a + 2 ^ n else a) 0)

/-! ### The ledger (R402 to R406) -/

/-- The channels that a test of `n` pulses: both of a PARALLEL pair (R394). -/
def State.testSet (s : State) (n : Nat) : List Nat := if s.pairKind n = 1 then [n, n + 1] else [n]

/-- The channel that holds the test of channel `n`. -/
def State.testHead (s : State) (n : Nat) : Nat := if s.isSecond n && s.pairKind (n - 1) == 1 then n - 1 else n

/-- The channels whose declarations the activation of `n` is charged with: those of its request, or, of an on-pulse against a low gate,
those pulsed (R394, R396). -/
def State.cover (s : State) (n : Nat) : List Nat :=
  match (s.ch n).pulse with
  | some p => if p.on && !(s.ch (s.headOf n)).gate then s.testSet n else s.members n
  | none => s.members n

def State.sumOf (s : State) (f : Nat → Fld) (cs : List Nat) : Nat := cs.foldl (fun a c => a + s.fld (f c)) 0

/-- The charge of an activation admitted at `a`, at instant `t` (R403). -/
def State.chargeAt (s : State) (a t : Nat) (cs : List Nat) : Nat :=
  cs.foldl (fun n c =>
    n + if t < a + s.fld (LEDGER.DECL_T_T c) * 250000 then s.fld (LEDGER.DECL_INR c) else s.fld (LEDGER.DECL_NOM c)) 0

/-- The activations that a die has admitted, with their instants and the channels they are charged with. -/
def State.admitted (s : State) (k : Nat) : List (Nat × Nat × List Nat) :=
  ((upto 32).filter fun n => dieOf n == k && s.chMode n == 2).filterMap fun n => (s.ch n).adm.map fun a => (n, a, s.cover n)

def State.cont (s : State) (k : Nat) : Nat := (s.admitted k).foldl (fun n p => n + s.sumOf LEDGER.DECL_NOM p.2.2) 0
def instOf (s : State) (l : List (Nat × Nat × List Nat)) (t : Nat) : Nat := l.foldl (fun n p => n + s.chargeAt p.2.1 t p.2.2) 0
def State.inst (s : State) (k t : Nat) : Nat := instOf s (s.admitted k) t

/-- The start of the over period follows INST. -/
def State.overUpd (s : State) (k : Nat) : State :=
  let high := decide (3000 < s.inst k s.now)
  s.onDie k fun d => { d with past := if high then some (d.past.getD s.now) else none }

/-- The ledger's registers of a die. -/
def State.ledgerShow (s : State) (k : Nat) : State :=
  let s := s.overUpd k
  let d := s.die k
  let head := match d.qs, d.qo with
    | q :: _, _ => q.1
    | [], q :: _ => q.1
    | [], [] => 0x3F
  let inst := s.inst k s.now
  let left := match d.past with
    | some t => (t + 10000000 - s.now) / 1000
    | none => 0
  let s := s.setN (LEDGER.STS k) (inst * 65536 + s.cont k)
  let s := s.setN (LEDGER.QUEUE k) (b2n (decide (3000 < inst)) * 2 ^ 31 + (d.qs.length + d.qo.length) * 65536 + head * 256)
  let s := s.setFld (LEDGER.OVER_LEFT_LEFT k) left
  s.forAll (s.heads k) fun n s =>
    let q := (d.qs ++ d.qo).any fun e => e.1 == n
    s.forAll (s.members n) fun c s => s.setFlag (FIELD.CH_STS_QUEUED c) q

/-- A ledger log entry (R413). -/
def State.ledgerLog (s : State) (n action : Nat) (pulse : Bool) (waitNs : Nat) : State :=
  let k := dieOf n
  let fl := b2n (s.safetyClass n) + 2 * b2n (s.pairKind n != 0) + 4 * b2n pulse
  s.hwPush 52 (leBytes 4 (shortOf s.now) ++ leBytes 1 k ++ leBytes 1 n ++ leBytes 1 action ++ leBytes 1 fl ++ leBytes 2 (s.cont k) ++
    leBytes 2 (s.inst k s.now) ++ leBytes 4 (waitNs / 1000))

/-- Whether a request of `n`, charged with the channels `cs`, fits at instant `t` (R404). -/
def State.fits (s : State) (n : Nat) (cs : List Nat) (t : Nat) : Bool :=
  let k := dieOf n
  let safe := s.safetyClass n
  let lc := if safe then 3000 else 2400
  let li := if safe then 6000 else 5400
  let inst := s.inst k t
  let all := (n, t, cs) :: s.admitted k
  let inr := s.sumOf LEDGER.DECL_INR cs
  let start := if 3000 < inst then (s.die k).past.getD t else t
  let ends := all.flatMap fun p => p.2.2.map fun c => p.2.1 + s.fld (LEDGER.DECL_T_T c) * 250000
  let inTime := ends.any fun e => decide (t ≤ e ∧ e ≤ start + 10000000) && decide (instOf s all e ≤ 3000)
  decide (s.cont k + s.sumOf LEDGER.DECL_NOM cs ≤ lc) && decide (inst + inr ≤ li) && (decide (inst + inr ≤ 3000) || inTime)

/-- A queue with a request of `n` that enters at `t`: last, but before the higher channels that entered at this instant (R405). -/
def queueIn (q : List (Nat × Nat)) (n t : Nat) : List (Nat × Nat) :=
  let after := fun (e : Nat × Nat) => e.2 == t && decide (n < e.1)
  q.filter (fun e => !after e) ++ (n, t) :: q.filter after

/-- A request enters its queue. -/
def State.enqueue (s : State) (n : Nat) : State :=
  let s := s.onDie (dieOf n) fun d =>
    if s.safetyClass n then { d with qs := queueIn d.qs n s.now } else { d with qo := queueIn d.qo n s.now }
  s.ledgerLog n 1 false 0

def State.isQueued (s : State) (n : Nat) : Bool := ((s.die (dieOf n)).qs ++ (s.die (dieOf n)).qo).any fun e => e.1 == n

/-- The entry instant of a queued request. -/
def State.queuedAt (s : State) (n : Nat) : Nat :=
  match ((s.die (dieOf n)).qs ++ (s.die (dieOf n)).qo).find? fun e => e.1 == n with
  | some e => e.2
  | none => s.now

def State.dequeue (s : State) (n : Nat) : State :=
  s.onDie (dieOf n) fun d => { d with qs := d.qs.filter (fun e => e.1 != n), qo := d.qo.filter (fun e => e.1 != n) }

/-- A request leaves the queue without admission. -/
def State.withdraw (s : State) (n : Nat) : State :=
  if s.isQueued n then
    let w := s.now - s.queuedAt n
    (s.dequeue n).ledgerLog n 4 false w
  else s

/-- The charge of an activation is released. -/
def State.releaseCh (s : State) (n : Nat) : State :=
  if (s.ch n).adm.isSome then
    let p := match (s.ch n).pulse with
      | some p => p.on
      | none => false
    ((s.onCh n fun x => { x with adm := none, wdone := false }).overUpd (dieOf n)).ledgerLog n 3 p 0
  else s

/-- An activation is admitted at a slot. -/
def State.admitOne (s : State) (n entered t : Nat) : State :=
  let waited := decide ((entered + 249999) / 250000 * 250000 < t)
  let s := (s.onCh n fun x => { x with adm := some t, wdone := false }).overUpd (dieOf n)
  let s := s.when waited fun s => s.bump (LEDGER.CNT_WAITED (dieOf n)) 1
  s.ledgerLog n 2 false (t - entered)

/-- Admits from the head of a queue while each request fits. -/
def State.admitQueue (s : State) (k : Nat) (safe : Bool) (t : Nat) : Nat → State
  | 0 => s
  | f + 1 =>
    match (if safe then (s.die k).qs else (s.die k).qo) with
    | [] => s
    | e :: _ => if s.fits e.1 (s.members e.1) t then ((s.dequeue e.1).admitOne e.1 e.2 t).admitQueue k safe t f else s

/-- A request is denied (R406). -/
def State.deny (s : State) (n : Nat) : State :=
  let w := s.now - s.queuedAt n
  let s := (s.dequeue n).onCh n fun x => { x with barred := true }
  let s := s.forAll (s.members n) fun c s => s.stick (FIELD.CH_STS_DENIED c)
  let s := s.bump (LEDGER.CNT_DENIED (dieOf n)) 1
  ((s.ledgerLog n 5 false w).chEvent n 9 0).fire 220

/-- A start slot of a die (R405, R406). In P3 the switches hold and nothing is admitted (R409). -/
def State.startSlot (s : State) (k t : Nat) : State :=
  let s := s.forAll (s.admitted k |>.map (·.1)) fun n s =>
    let x := s.ch n
    let cs := s.cover n
    let last := (cs.map fun c => x.adm.getD 0 + s.fld (LEDGER.DECL_T_T c) * 250000).foldl max 0
    if !x.wdone && decide (last ≤ t) then
      let had := cs.any fun c => s.fld (LEDGER.DECL_T_T c) != 0
      let s := (s.onCh n fun x => { x with wdone := true }).overUpd k
      s.when had fun s => s.ledgerLog n 6 (x.pulse.isSome && !x.gate) 0
    else s
  if s.fld SYS.PWR_STS_STATE = 3 then s.ledgerShow k
  else
  let s := s.admitQueue k true t 33
  let s := if (s.die k).qs.isEmpty then s.admitQueue k false t 33 else s
  let wm := s.fld LEDGER.CFG_WAIT_MAX * 1000000
  let s := if wm = 0 then s
    else s.forAll (((s.die k).qs ++ (s.die k).qo).map (·.1)) fun n s =>
      s.when (decide (wm ≤ t - s.queuedAt n)) fun s => s.deny n
  s.ledgerShow k

/-- Whether the present instant is a start slot that has not run: start slots fall at multiples of 250 µs of device time (R405). -/
def State.startDue (s : State) : Bool := s.now % 250000 == 0 && s.field.slotAt != some s.now

/-- The start slot of the present instant, on both dies (R405). -/
def State.startSlots (s : State) : State :=
  let s := { s with field := { s.field with slotAt := some s.now } }
  (s.forAll [0, 1] fun k s => s.when (s.dieUp k) fun s => s.startSlot k s.now).swShow

/-- A start slot. One that falls on a boundary follows that boundary's write set, whose requests it sees (R137). -/
def execStartSlot (t : Nat) (s : State) : Host.Outcome State Fault Refusal :=
  done (
    let s := s.atTime t
    if s.now = t ∧ s.startDue ∧ !s.edgeWaits then s.startSlots else s)

/-! ### Test pulses (R395 to R398) -/

/-- The pulse `p` of test `h` is over; the watch of the other readbacks runs on for 100 µs (R397). The charge of an on-pulse is released
unless a demand has taken it over (R396, R398). -/
def State.pulseOver (s : State) (h : Nat) (p : Pulse) : State :=
  let set := s.testSet h
  let s := if p.on && !(s.ch (s.headOf h)).gate then s.releaseCh h else s
  s.forAll set fun c s => s.onCh c fun x =>
    { x with pulse := none, offEnd := if p.on then x.offEnd else some s.now, watch := some (p.start, s.now + 100000) }

/-- A running pulse of a channel is cut short: DISCARDED, retried after a quarter of the interval (R398). -/
def State.discardPulse (s : State) (n : Nat) : State :=
  let h := s.testHead n
  match (s.ch h).pulse with
  | none => s
  | some p =>
    let iv := s.fld (FIELD.CH_TEST_INTERVAL h) * 250000000
    let s := (s.pulseOver h p).onCh h fun x => { x with due := x.due.map fun _ => s.now + iv }
    (s.setFld (FIELD.CH_STS_TRES h) 4).chEvent h 7 4

/-! ### The switch gates follow (R389, R398, R400) -/

/-- A falling switch gate of a head. A latch-off of this very instant is undone (R410). -/
def State.gateFall (s : State) (n : Nat) : State :=
  let s := s.forAll (s.members n) fun c s =>
    let s := if (s.ch c).thermAt = some s.now then s.setFlag (FIELD.CH_STS_LATCHED c) false else s
    (if (match (s.ch c).pulse with
      | some p => !p.on
      | none => false) then s.discardPulse c else s).setFld (FIELD.CH_STS_TCYC c) 0
  let s := (s.onCh n fun x => { x with gate := false, barred := false }).withdraw n
  s.releaseCh n

/-- Whether a head with its gate at 1 still needs a request. -/
def State.wantsRequest (s : State) (n : Nat) : Bool :=
  let x := s.ch n
  x.gate && x.adm.isNone && !s.isQueued n && !x.barred && !s.flag (FIELD.CH_STS_HELD n) &&
    !((s.members n).any fun c => s.flag (FIELD.CH_STS_LATCHED c)) && !s.flag (FIELD.DIE_STS_UVL (dieOf n))

/-- Switch gates, requests and switches follow commands, gates and flags; a SAFE gate that closes ends an on-pulse (R398). -/
def State.fieldSettle (s : State) : State :=
  let hs := (upto 32).filter fun n => !s.isSecond n
  let s := s.forAll (upto 32) fun c s =>
    match (s.ch c).pulse with
    | some p => if p.on && s.safeShut c then s.discardPulse c else s
    | none => s
  let s := s.forAll hs fun n s => if (s.ch n).gate && !(s.chMode n == 2 && s.gateNow n) then s.gateFall n else s
  let s := s.forAll hs fun n s =>
    if s.chMode n == 2 && s.gateNow n && !(s.ch n).gate then
      -- an on-pulse hands its charge to the activation (R398)
      let s := s.onCh n fun x => { x with gate := true }
      s.forAll (s.members n) fun c s =>
        match (s.ch c).pulse with
        | none => s
        | some _ =>
          let a := (s.ch c).adm
          let s := (s.discardPulse c).onCh c fun x => { x with adm := none }
          s.onCh n fun x => { x with adm := a }
    else s
  let s := s.forAll hs fun n s => if s.wantsRequest n then s.enqueue n else s
  ((s.ledgerShow 0).ledgerShow 1).swShow

/-! ### The monitor rows; the switch gates follow the gates -/

/-- A cycle of the monitor of lane `l` (R340). -/
def execMonitorCycle (l : Lane) (broken lv : BitVec 48) (t : Nat) (s : State) : Host.Outcome State Fault Refusal :=
  done (
    let s := s.atTime t
    if s.monDue l.val then (s.monCycle l.val lv.toNat broken.toNat).readyShow.fieldSettle else s)

/-- DOOR_MOVE has been absent, with the car at rest, for REST_T (R356). -/
def execRestTimeout (l : Lane) (t : Nat) (s : State) : Host.Outcome State Fault Refusal :=
  done (
    let s := s.atTime t
    if s.monRuns l.val && decide (s.fld (SAFE.REST_REST_T l.val) * 20 ≤ (s.mon l.val).cRest) then
      let s := s.setFld (SAFE.TRIP_DOOR_MOVE l.val) 0
      ((s.setFlag (SAFE.STS_STOP l.val) (s.regN (SAFE.TRIP l.val) != 0)).gatesShow l.val).safeShow.readyShow.fieldSettle
    else s)

/-- Whether a due test of `n` can take a slot at `t`, and whether as an on-pulse. -/
def State.testKind (s : State) (n : Nat) (t : Nat) : Option Bool :=
  let h := s.headOf n
  let x := s.ch h
  if s.chMode n ≠ 2 ∨ s.safeShut n ∨ (s.isSecond n ∧ s.pairKind h = 1) then none
  else if s.flag (FIELD.CH_STS_SW n) then
    let past := (if s.pairKind h = 1 then [h] else [n]).all fun c => decide (x.adm.getD t + s.fld (LEDGER.DECL_T_T c) * 250000 ≤ t)
    if s.flag (FIELD.CH_TEST_OFF_EN n) && past then some false else none
  else if s.flag (FIELD.CH_TEST_ON_EN n) && !x.gate && !s.flag (FIELD.CH_STS_LATCHED n) && !s.flag (FIELD.DIE_STS_UVL (dieOf n)) then
    some true
  else none

/-- The pulse of the test slot that began 100 µs before `t` starts: the channel due longest is pulsed (R396). -/
def State.testSlot (s : State) (t : Nat) : State :=
  if 3 ≤ s.fld SYS.PWR_STS_STATE ∨ t % 1000000 ≠ 100000 then s
  else
    let sl := t - 100000
    -- a demand that rose at this instant: no pulse, and the test is retried (R410)
    let s := s.forAll (upto 32) fun n s =>
      let h := s.headOf n
      match (s.ch n).due with
      | some d =>
        if d ≤ sl ∧ s.isQueued h ∧ s.queuedAt h = t ∧ s.flag (FIELD.CH_TEST_ON_EN n) then
          s.onCh n fun x => { x with due := some (sl + s.fld (FIELD.CH_TEST_INTERVAL n) * 250000000) }
        else s
      | none => s
    let best := (upto 32).foldl (fun (b : Option (Nat × Nat)) n =>
      match (s.ch n).due with
      | some d =>
        let first := match b with
          | some q => decide (d < q.2)
          | none => true
        if decide (d ≤ sl) && s.dieUp (dieOf n) && (s.testKind n t).isSome && first then some (n, d) else b
      | none => b) none
    match best with
    | none => s
    | some b =>
      let n := b.1
      let iv := s.fld (FIELD.CH_TEST_INTERVAL n)
      if s.testKind n t = some true then
        let k := dieOf n
        let waiting := !(s.die k).qs.isEmpty || !(s.die k).qo.isEmpty
        if waiting || !s.fits n (s.testSet n) t then
          ((s.onCh n fun x => { x with due := some (sl + iv * 250000000) }).setFld (FIELD.CH_STS_TRES n) 5).chEvent n 7 5
        else
          let p : Pulse := ⟨true, t, t + s.fld (FIELD.CH_TEST_ON_W n) * 10000⟩
          let s := s.forAll (s.testSet n) fun c s => s.onCh c fun x => { x with pulse := some p }
          let s := (s.onCh n fun x => { x with adm := some t, wdone := false, due := some (sl + iv * 1000000000) }).overUpd k
          ((s.ledgerLog n 2 true 0).ledgerShow k).swShow
      else
        let p : Pulse := ⟨false, t, t + s.fld (FIELD.CH_TEST_OFF_W n) * 10000⟩
        let s := s.forAll (s.testSet n) fun c s => s.onCh c fun x => { x with pulse := some p }
        (s.onCh n fun x => { x with due := some (sl + iv * 1000000000) }).swShow

def execTestSlot (t : Nat) (s : State) : Host.Outcome State Fault Refusal := done ((s.atTime t).testSlot t)

/-- The cross-shorts of the test of `h` whose pulse started at `from'`: OUTPUT channels whose readback changed while their switches stayed
as they were (R397). -/
def State.crossShorts (s : State) (h from' : Nat) (crossed : BitVec 32) : State :=
  s.forAll (upto 32) fun c s =>
    if bitB crossed.toNat c && !(s.testSet h).contains c && s.chMode c == 2 && decide ((s.ch c).swAt < from') then
      let s := (s.stick (FIELD.CH_STS_XSHORT h)).setFld (FIELD.CH_STS_XCH h) c
      let s := (s.stick (FIELD.CH_STS_XSHORT c)).setFld (FIELD.CH_STS_XCH c) h
      ((s.chEvent h 8 c).chEvent c 8 h).fire 222
    else s

/-- The pulse of channel `n` ends (R397): whether the readback held the pulsed level over its last 10 µs, and the channels whose readback
changed. Until 100 µs after the end the row reports further changes. -/
def execTestPulseEnd (n : Fin 32) (held : Bool) (crossed : BitVec 32) (t : Nat) (s : State) : Host.Outcome State Fault Refusal :=
  done (
    let s := s.atTime t
    let h := s.testHead n.val
    match (s.ch h).pulse with
    | none =>
      match (s.ch h).watch with
      | some w => if s.now ≤ w.2 then s.crossShorts h w.1 crossed else s
      | none => s
    | some p =>
      if s.now < p.stop then s
      else
        let res := if held then 1 else if p.on then 3 else 2
        let s := (s.crossShorts h p.start crossed).pulseOver h p
        let s := s.setFld (FIELD.CH_STS_TRES h) res
        let s := s.when (res != 1) fun s => s.stick (FIELD.CH_STS_TEST_FAIL h)
        ((s.chEvent h 7 res).ledgerShow (dieOf h)).swShow)

/-! ### Inputs (R383 to R388) -/

/-- VALID of a channel; a channel that is OFF reads 0. -/
def State.validShow (s : State) (n : Nat) : State :=
  let ok := s.chMode n != 0 && !s.flag (FIELD.DIE_STS_IN_INV (dieOf n)) && !s.flag (FIELD.CH_STS_WB n) &&
    !s.flag (FIELD.DIE_STS_REV (dieOf n))
  s.setFlag (FIELD.CH_STS_VALID n) ok

/-- Sets the filtered level in CH_STS and IN_LVL. -/
def State.setIn (s : State) (n : Nat) (b : Bool) : State :=
  let s := s.setFlag (FIELD.CH_STS_IN n) b
  if n < 32 then s.setFld ⟨FIELD.IN_LVL0, n, 1⟩ (b2n b) else s.setFld ⟨FIELD.IN_LVL1, n - 32, 1⟩ (b2n b)

/-- Readback of an OUTPUT channel (R391). -/
def State.readback (s : State) (n : Nat) (lvl : Bool) : State :=
  if s.chMode n = 2 then
    let s := s.setFlag (FIELD.CH_STS_RB n) lvl
    if lvl && s.flag (FIELD.CH_STS_STG n) then (s.setFlag (FIELD.CH_STS_STG n) false).chEvent n 0xA 0 else s
  else s

/-- The level of a channel's comparator has held for FILT × 10 µs (R383): the raw level and its first sample. A shorter change is none. -/
def execFilteredChange (n : Fin 48) (lvl : Bool) (stamp t : Nat) (s : State) : Host.Outcome State Fault Refusal :=
  done (
    let s := s.atTime t
    if s.chMode n = 0 ∨ !s.dieUp (dieOf n) ∨ s.now < stamp + s.fld (FIELD.CH_CFG_FILT n) * 10000 then s
    else
      let s := s.readback n lvl
      let new := lvl != s.flag (FIELD.CH_CFG_POL n)
      if !s.flag (FIELD.CH_STS_VALID n) || new == s.flag (FIELD.CH_STS_IN n) then s
      else
        let s := s.setIn n new
        let cap := s.fld (FIELD.CH_CFG_CAP n)
        let s := s.when (bitB cap (if new then 0 else 1)) fun s =>
          s.hwPush 34 (leBytes 4 (shortOf stamp) ++ leBytes 1 n ++ leBytes 1 (b2n new + 2 * b2n (s.flag (FIELD.CH_STS_VALID n))) ++
            leBytes 2 0 ++ leBytes 4 (s.regN (FIELD.CH_CNT n)) ++ leBytes 4 (s.regN (FIELD.CH_PER n)))
        s.when (s.flag (FIELD.CH_CFG_CHG_EV n)) fun s => s.chEventAt stamp n 1 (b2n new))

/-- An edge that has passed CFILT (R387, R388): the new raw level and its first sample. -/
def execCounterEdge (n : Fin 48) (lvl : Bool) (stamp t : Nat) (s : State) : Host.Outcome State Fault Refusal :=
  done (
    let s := s.atTime t
    if !s.flag (FIELD.CH_STS_VALID n) ∨ !s.dieUp (dieOf n) ∨ s.now < stamp + s.fld (FIELD.CH_CFG_CFILT n) * 25 then s
    else
      let act := lvl != s.flag (FIELD.CH_CFG_POL n)
      let cnt := s.fld (FIELD.CH_CFG_CNT n)
      let s := if bitB cnt (if act then 0 else 1) && decide ((s.ch n).clrAt ≤ stamp) then
          s.setN (FIELD.CH_CNT n) (s.regN (FIELD.CH_CNT n) + 1) else s
      if s.flag (FIELD.CH_CFG_PER_EN n) && act && decide ((s.ch n).perAt ≤ stamp) then
        let s := match (s.ch n).edge with
          | some e => s.setN (FIELD.CH_PER n) (satNat 0xFFFFFFFF ((stamp - e) / 25))
          | none => s
        s.onCh n fun x => { x with edge := some stamp }
      else s)

/-- Wire break (R385): the current has stayed low, or high again, from `since` on. -/
def execWireBreak (n : Fin 48) (broken : Bool) (h : Span) (s : State) : Host.Outcome State Fault Refusal :=
  done (
    let s := s.atTime h.t
    let on := broken && s.flag (FIELD.CH_CFG_WB_EN n) && s.chMode n == 1
    if on == s.flag (FIELD.CH_STS_WB n) || (broken && !on) || !s.dieUp (dieOf n) || decide (s.now < h.since + 20000000) then s
    else ((s.setFlag (FIELD.CH_STS_WB n) on).validShow n).chEvent n 2 (b2n on))

/-- The readback of an output has had a level from `since` on (R391). STG needs 1 ms low with the switch on, after the inrush window; an
off-pulse opens the switch and so starts the time again. -/
def execStg (n : Fin 32) (rb : Bool) (h : Span) (s : State) : Host.Outcome State Fault Refusal :=
  done (
    let s := s.atTime h.t
    let s := if s.dieUp (dieOf n) then s.readback n rb else s
    let m := s.headOf n
    let c := if s.pairKind m = 1 then m else n.val
    let inrush := match (s.ch m).adm with
      | some a => a + s.fld (LEDGER.DECL_T_T c) * 250000
      | none => 0
    let from' := max h.since (max (s.ch n).swAt inrush)
    if !rb && s.flag (FIELD.CH_STS_SW n) && decide (from' + 1000000 ≤ s.now) && !s.flag (FIELD.CH_STS_STG n) then
      (s.setFlag (FIELD.CH_STS_STG n) true).chEvent n 0xA 1
    else s)

/-! ### Thermal shutdown (R392) and off-state diagnosis (R393) -/

/-- A channel latches off. -/
def State.latchOff (s : State) (n : Nat) : State :=
  let h := s.headOf n
  let set := if s.pairKind h = 1 then s.members h else [n]
  let s := s.forAll set fun c s => (s.setFlag (FIELD.CH_STS_LATCHED c) true).onCh c fun x => { x with thermAt := some s.now }
  ((s.releaseCh h).chEvent n 6 0).fire 221

def execThermalShutdown (n : Fin 32) (t : Nat) (s : State) : Host.Outcome State Fault Refusal :=
  done (
    let s := s.atTime t
    if !s.flag (FIELD.CH_STS_SW n) then s
    else
      let s := s.discardPulse n
      let s := (s.setFlag (FIELD.CH_STS_THERM n) true).onCh n fun x => { x with thermAt := some s.now }
      let c := min (s.fld (FIELD.CH_STS_TCYC n) + 1) 8
      let s := (s.setFld (FIELD.CH_STS_TCYC n) c).chEvent n 5 c
      let s := if c = 8 then s.latchOff n else s
      (s.ledgerShow (dieOf n)).swShow)

def execThermalRecovery (n : Fin 32) (t : Nat) (s : State) : Host.Outcome State Fault Refusal :=
  done (((s.atTime t).setFlag (FIELD.CH_STS_THERM n) false).swShow)

/-- The switch has stayed on for 1 s without a shutdown. -/
def execThermalCycleClear (n : Fin 32) (t : Nat) (s : State) : Host.Outcome State Fault Refusal :=
  done (
    let s := s.atTime t
    if s.flag (FIELD.CH_STS_SW n) && decide ((s.ch n).swAt + 1000000000 ≤ s.now) then s.setFld (FIELD.CH_STS_TCYC n) 0 else s)

/-- Sets or clears a diagnosis flag with its entry. -/
def State.diagFlag (s : State) (n : Nat) (f : Fld) (kind : Nat) (b : Bool) : State :=
  if s.flag f == b then s else (s.setFlag f b).chEvent n kind (b2n b)

/-- A 5 ms diagnosis period of an open switch ends with a readback level; the first starts 10 ms after the switch opened (R393). -/
def execDiagnosisPeriod (n : Fin 32) (rb : Bool) (t : Nat) (s : State) : Host.Outcome State Fault Refusal :=
  done (
    let s := s.atTime t
    let h := s.headOf n
    if s.chMode n ≠ 2 ∨ s.flag (FIELD.CH_STS_SW n) ∨ s.isQueued h ∨ 3 ≤ s.fld SYS.PWR_STS_STATE then
      s.onCh n fun x => { x with source := false, hi := 0, lo := 0, sinkLow := false, hit := 0, miss := 0 }
    else if s.now < (s.ch n).swAt + 15000000 ∨ (s.now - (s.ch n).swAt) % 5000000 ≠ 0 then s
    else
      let s := s.readback n rb
      let x := s.ch n
      let src := x.source && s.flag (FIELD.CH_CFG_OL_EN n)
      let hi := if rb then min (x.hi + 1) 2 else 0
      let lo := if src then x.lo else if rb then 0 else min (x.lo + 1) 2
      let pat := src && rb && x.sinkLow
      let hit := if src then (if pat then min (x.hit + 1) 2 else 0) else x.hit
      let miss := if src then (if pat then 0 else min (x.miss + 1) 2) else x.miss
      let s := s.onCh n fun x =>
        { x with source := !src && s.flag (FIELD.CH_CFG_OL_EN n), hi := hi, lo := lo, sinkLow := if src then x.sinkLow else !rb,
                 hit := hit, miss := miss }
      let s := if hi = 2 then s.diagFlag n (FIELD.CH_STS_STV n) 4 true else if lo = 2 then s.diagFlag n (FIELD.CH_STS_STV n) 4 false else s
      if hit = 2 then s.diagFlag n (FIELD.CH_STS_OPEN n) 3 true
      else if miss = 2 then s.diagFlag n (FIELD.CH_STS_OPEN n) 3 false else s)

/-! ### VFIELD (R399 to R401, R537) -/

def dieChannels (k : Nat) : List Nat := if k = 0 then upto 24 else (upto 24).map (· + 24)

/-- UVL or REV stops the outputs of a die (R400). -/
def State.dieStop (s : State) (k : Nat) : State :=
  let s := s.forAll (s.heads k) fun n s =>
    let s := s.forAll (s.members n) fun c s => s.discardPulse c
    (s.withdraw n).releaseCh n
  (s.ledgerShow k).swShow

/-- Undervoltage lock-out of a die. -/
def State.dieUvl (s : State) (k : Nat) : State :=
  let s := (s.setFlag (FIELD.DIE_STS_UVL k) true).bump (FIELD.DIE_ERR_UVL_CNT k) 1
  ((s.dieStop k).fire (216 + k)).fire (218 + k)

/-- The flags of a die follow its VFIELD (mV), which has been there from instant `a` on: each change fires 216 or 217, each rise of UVL or
REV also 218 or 219 (R399, R411). `first`: the watch starts, and WARN, IN_INV and REV are as VFIELD shows (R537). -/
def State.vfield (s : State) (k : Nat) (mv : Int) (a : Nat) (first : Bool) : State :=
  let keep := fun (b : Bool) (o : Option Nat) => if b then some (o.getD a) else none
  let s := s.onDie k fun d =>
    { d with low := keep (decide (mv < 11000)) d.low, hi15 := keep (decide (15500 < mv)) d.hi15, hi17 := keep (decide (17000 < mv)) d.hi17 }
  let held := match (s.die k).hi15 with
    | some h => decide (h + 1000000 ≤ s.now)
    | none => false
  let rev := decide (mv < -500)
  let warn := decide (mv < 19200) || (!first && !decide (19700 < mv) && s.flag (FIELD.DIE_STS_WARN k))
  let inv := decide (mv < 15000) || (!first && !held && s.flag (FIELD.DIE_STS_IN_INV k))
  let ok := s.flag (FIELD.DIE_STS_VF_OK k) && decide (17000 < mv)
  let put := fun (f : Fld) (b : Bool) (s : State) => if s.flag f == b then s else (s.setFlag f b).fire (216 + k)
  let wasRev := s.flag (FIELD.DIE_STS_REV k)
  let s := put (FIELD.DIE_STS_REV k) rev (put (FIELD.DIE_STS_VF_OK k) ok (put (FIELD.DIE_STS_IN_INV k) inv (put (FIELD.DIE_STS_WARN k) warn s)))
  let s := s.when (rev && !wasRev) fun s => s.fire (218 + k)
  let s := s.setFld (FIELD.DIE_VF_VFIELD k) (if rev then 0 else mv.toNat)
  let s := s.forAll (dieChannels k) fun n s => s.validShow n
  (if rev && !s.flag (FIELD.DIE_STS_UVL k) then s.dieUvl k else s).swShow

/-- A die that has been powered starts its VFIELD watch, with what its ball showed then (R497, R537). -/
def State.dieSync (s : State) (k : Nat) : State :=
  if !s.dieUp k || (s.die k).up.isSome then s
  else
    let a := if s.sys.phase = 1 then s.sys.start + 3400000 + 200000 * k else s.now
    let s := s.onDie k fun d => { d with up := some a }
    let s := match s.field.temp.find? fun p => p.1 == k with
      | some p => s.setFld (FIELD.DIE_VF_TEMP k) (unsgn 16 p.2)
      | none => s
    match s.field.ball.find? fun p => p.1 == k with
    | some p => s.vfield k p.2 a true
    | none => s

/-- VFIELD of die `k` (mV) has crossed a threshold, and has been at its level from `since` on; the die temperature in 0.1 °C. What a level
has lasted counts from `since`, but not from before the die was powered. -/
def execVfieldChange (k : Fin 2) (mv temp : Int) (since t : Nat) (s : State) : Host.Outcome State Fault Refusal :=
  done (
    let s := (s.atTime t).dieSync k.val
    let put := fun (l : List (Nat × Int)) (v : Int) => insertBy (fun (p : Nat × Int) => (p.1 : Int)) (k.val, v) (l.filter fun p => p.1 != k.val)
    let s := { s with field := { s.field with ball := put s.field.ball mv, temp := put s.field.temp temp } }
    let a := min s.now (max since ((s.die k.val).up.getD 0))
    if s.dieUp k.val then (s.setFld (FIELD.DIE_VF_TEMP k) (unsgn 16 temp)).vfield k.val mv a false else s)

/-- Whether a level that VFIELD has kept from an instant on has lasted `ns`. -/
def lasted (o : Option Nat) (ns now : Nat) : Bool :=
  match o with
  | some a => decide (a + ns ≤ now)
  | none => false

/-- VFIELD has been below 11.0 V for more than 2 ms. -/
def execUvl (k : Fin 2) (t : Nat) (s : State) : Host.Outcome State Fault Refusal :=
  done (
    let s := (s.atTime t).dieSync k.val
    if !s.dieUp k.val || s.flag (FIELD.DIE_STS_UVL k) || !lasted (s.die k).low 2000001 s.now then s else s.dieUvl k)

/-- VFIELD has been above 17.0 V for 20 ms. -/
def execVfOk (k : Fin 2) (t : Nat) (s : State) : Host.Outcome State Fault Refusal :=
  done (
    let s := (s.atTime t).dieSync k.val
    if !s.dieUp k.val || s.flag (FIELD.DIE_STS_VF_OK k) || !lasted (s.die k).hi17 20000000 s.now then s
    else (s.setFlag (FIELD.DIE_STS_VF_OK k) true).fire (216 + k))

/-- RESTART (R400), judged with the commands that stand at its place in the staging order. -/
def State.dieRestart (s : State) (k : Nat) : State :=
  if !s.flag (FIELD.DIE_STS_UVL k) then s
  else
    let s := s.setFlag (FIELD.DIE_STS_UVL k) false
    let s := s.forAll (s.heads k) fun n s =>
      s.when (s.safetyClass n && s.gateNow n) fun s => s.forAll (s.members n) fun c s => s.setFlag (FIELD.CH_STS_HELD c) true
    s.fire (216 + k)

/-! ### Links (R408) -/

def linkErr (k l : Nat) : Fld := if l = 0 then FIELD.DIE_ERR_LINK_A k else if l = 1 then FIELD.DIE_ERR_LINK_B k else FIELD.DIE_ERR_LINK_C k

def State.setGood (s : State) (k l n : Nat) : State := s.onDie k fun d => { d with good := mput zeroNat d.good l n }

def State.setHeard (s : State) (k l n : Nat) : State := s.onDie k fun d => { d with heard := mput zeroNat d.heard l n }

/-- After P3 the lanes' frames come again: the time without one is counted from here (R409). -/
def State.linkHeard (s : State) : State := s.forAll [0, 1] fun k s => s.forAll [0, 1, 2] fun l s => s.setHeard k l s.now

/-- A command frame of lane `l` reaches die `k`, with a good or a failing CRC. -/
def execCommandFrame (l : Lane) (k : Fin 2) (good : Bool) (t : Nat) (s : State) : Host.Outcome State Fault Refusal :=
  done (
    let s := (s.atTime t).dieSync k.val
    if !s.dieUp k.val then s
    else if !good then (s.bump (linkErr k l.val) 1).setGood k l.val 0
    else
      let s := s.setHeard k l.val s.now
      if bitB (s.fld (FIELD.DIE_STS_LINK k)) l.val then
        let n := mget zeroNat (s.die k).good l.val + 1
        if n < 16 then s.setGood k l.val n
        else (((s.setGood k l.val 0).setFld ⟨FIELD.DIE_STS k, 24 + l.val, 1⟩ 0).fire 223).fieldSettle
      else s)

/-- No good frame of lane `l` for 1 ms. In P3, where no frame is due, the switches hold (R409). -/
def execLinkFault (l : Lane) (k : Fin 2) (t : Nat) (s : State) : Host.Outcome State Fault Refusal :=
  done (
    let s := (s.atTime t).dieSync k.val
    let last := max (mget zeroNat (s.die k).heard l.val) ((s.die k).up.getD 0)
    if !s.dieUp k.val || s.fld SYS.PWR_STS_STATE == 3 || bitB (s.fld (FIELD.DIE_STS_LINK k)) l.val || decide (s.now < last + 1000000) then s
    else
      let s := ((s.setFld ⟨FIELD.DIE_STS k, 24 + l.val, 1⟩ 1).bump (linkErr k l.val) 1).setGood k l.val 0
      (s.fire 223).fieldSettle)

/-! ### Commits -/

/-- The check of a register item in FIELD. -/
def fieldCheck (s : State) (o : Nat) (m v : Word) : Nat :=
  let x := v.toNat
  if o < 0x600 then
    let n := o / 0x20
    let r := o % 0x20
    let c := v &&& m
    if r = 0 then
      let mode := bitsOf x 30 2
      let pair := bitsOf x 24 2
      let moved := mode != s.chMode n || bitsOf x 29 1 != s.fld (FIELD.CH_CFG_TYPE n) || pair != s.fld (FIELD.CH_CFG_PAIR n)
      let h := s.headOf n
      firstCause
        [(!inRanges m v [(30, 2, 0, 2), (24, 2, 0, 2), (8, 8, 0, 250), (0, 8, 1, 200)] || (tch m 30 2 && mode == 2 && decide (32 ≤ n)) ||
            (tch m 24 2 && pair != 0 && (n % 2 == 1 || decide (32 ≤ n))), cRange),
         (moved && ((s.ch h).gate || s.isQueued h) && s.flag (FIELD.CH_OUT_ON h), cState)]
    else if r = 4 then
      firstCause [(s.isSecond n, cState), (wbit v 0 && (s.chMode n != 2 || decide (32 ≤ n)), cRange)]
    else if r = 8 then
      (if inRanges m v [(24, 6, 0, 40), (18, 6, 0, 20), (0, 6, 0, 60)] then 0 else cRange)
    else if r = 0x18 then
      let h := s.headOf n
      if wbit c 2 && (s.ch h).gate && s.flag (FIELD.CH_OUT_ON h) then cState else 0
    else 0
  else if o = 0x808 ∨ o = 0x828 then
    let k := (o - 0x808) / 0x20
    if wbit (v &&& m) 0 && (!s.flag (FIELD.DIE_STS_VF_OK k) || s.flag (FIELD.DIE_STS_REV k)) then cState else 0
  else 0

/-- Whether a test setting keeps its limits (R395). -/
def State.testOk (s : State) (n : Nat) : Bool :=
  let off := s.flag (FIELD.CH_TEST_OFF_EN n)
  let on := s.flag (FIELD.CH_TEST_ON_EN n)
  !((on && (!s.flag (FIELD.CH_CFG_TOL_ON n) || (decide (n < 32) && s.safetyClass n) || s.fld (FIELD.CH_TEST_ON_W n) == 0)) ||
    (off && s.fld (FIELD.CH_TEST_OFF_W n) == 0) || ((on || off) && s.fld (FIELD.CH_TEST_INTERVAL n) == 0))

/-- Whether the declaration of an OUTPUT channel keeps its limits (R402). -/
def State.declOk (s : State) (n : Nat) : Bool :=
  let par := s.pairKind n == 1
  let nom := s.fld (LEDGER.DECL_NOM n)
  let inr := s.fld (LEDGER.DECL_INR n)
  let t := s.fld (LEDGER.DECL_T_T n)
  if s.isSecond n && s.pairKind (n - 1) == 1 then nom == 0 && inr == 0 && t == 0
  else decide (1 ≤ nom ∧ nom ≤ (if par then 1000 else 500)) && decide (nom ≤ inr ∧ inr ≤ (if par then 2000 else 1000)) &&
    decide (t ≤ 40) && (t != 0 || inr == nom)

/-- Whether a pair keeps its conditions (R394). -/
def State.pairOk (s : State) (n : Nat) : Bool :=
  s.pairKind n == 0 || (s.chMode n == 2 && s.chMode (n + 1) == 2 && s.fld (FIELD.CH_CFG_PAIR (n + 1)) == 0 &&
    s.groupOf n == s.groupOf (n + 1))

/-- What a group leaves in FIELD and LEDGER; a group of SAFE.GRP can part a pair or make a tested channel safety-class (R394, R395). -/
def fieldGroup (s0 s : State) : Nat :=
  let moved := fun (k : Nat) => s0.reg k != s.reg k
  let bad := (upto 48).any fun n =>
    let grp := decide (n < 32) && s0.groupOf n != s.groupOf n
    ((moved (FIELD.CH_TEST n) || moved (FIELD.CH_CFG n) || grp) && !s.testOk n) ||
    (decide (n < 32) && (grp || moved (FIELD.CH_CFG n) || moved (FIELD.CH_CFG (n + 1 - 2 * (n % 2)))) && !s.pairOk (n - n % 2)) ||
    (decide (n < 32) && (moved (FIELD.CH_CFG n) || moved (FIELD.CH_CFG (n - n % 2)) || moved (LEDGER.DECL n) || moved (LEDGER.DECL_T n)) &&
      s.chMode n == 2 && !s.declOk n)
  if bad then cRange else 0

/-- A channel whose MODE or PAIR changes starts anew: a pulse of it is cut short, and an activation or a request of it ends. What its command
asks for under the new setting enters the queue as a new request; the odd channel of a new pair follows CH_OUT of the even one (R394). -/
def State.chRenew (s : State) (c : Nat) : State :=
  let s := match (s.ch c).pulse with
    | none => s
    | some p =>
      let s := if p.on && !(s.ch c).gate then s.releaseCh c else s
      let iv := s.fld (FIELD.CH_TEST_INTERVAL c) * 250000000
      let s := s.onCh c fun x => { x with pulse := none, due := x.due.map fun _ => s.now + iv }
      (s.setFld (FIELD.CH_STS_TRES c) 4).chEvent c 7 4
  if (s.ch c).gate then
    let s := ((s.onCh c fun x => { x with gate := false, barred := false }).setFld (FIELD.CH_STS_TCYC c) 0).withdraw c
    s.releaseCh c
  else s

/-- The effect of a register item in FIELD. -/
def fieldApply (s : State) (o : Nat) (m old new cmd : Word) : State :=
  if o < 0x600 then
    let n := o / 0x20
    let r := o % 0x20
    if r = 0 then
      let s := s.when (bitsOf new.toNat 30 2 == 0) fun s =>
        (s.setIn n false).setFlag (FIELD.CH_STS_RB n) false
      let s := s.when (bitsOf new.toNat 30 2 != 1 || !wbit new 27) fun s => s.setFlag (FIELD.CH_STS_WB n) false
      let s := s.when (wbit new 20 && !wbit old 20) fun s => (s.setN (FIELD.CH_PER n) 0).onCh n fun x => { x with edge := none, perAt := s.now }
      let s := s.when (bitsOf new.toNat 30 2 == 2 && bitsOf old.toNat 30 2 != 2) fun s => s.onCh n fun x => { x with swAt := s.now }
      let pair := bitsOf new.toNat 24 2 != bitsOf old.toNat 24 2
      let s := s.when (pair || bitsOf new.toNat 30 2 != bitsOf old.toNat 30 2) fun s =>
        s.forAll (if pair && n < 31 then [n, n + 1] else [n]) fun c s => s.chRenew c
      s.validShow n
    else if r = 4 then
      -- an item that writes ON ends HELD (R400)
      s.when (wbit m 0) fun s => s.forAll (s.members n) fun c s => s.setFlag (FIELD.CH_STS_HELD c) false
    else if r = 8 then
      let en := wbit new 31 || wbit new 30
      s.onCh n fun x => { x with due := if en then some (s.now + bitsOf new.toNat 0 6 * 1000000000) else none }
    else if r = 0x18 then
      let s := s.when (wbit cmd 3) fun s =>
        let h := s.headOf n
        (s.forAll (s.members h) fun c s => s.setFlag (FIELD.CH_STS_DENIED c) false).onCh h fun x => { x with barred := false }
      let s := s.when (wbit cmd 2) fun s => (s.setFlag (FIELD.CH_STS_LATCHED n) false).setFld (FIELD.CH_STS_TCYC n) 0
      let s := s.when (wbit cmd 1) fun s => (s.setN (FIELD.CH_CNT n) 0).onCh n fun x => { x with clrAt := s.now }
      s.when (wbit cmd 0) fun s => (s.setFlag (FIELD.CH_STS_XSHORT n) false).setFlag (FIELD.CH_STS_TEST_FAIL n) false
    else s
  else if o = 0x808 ∨ o = 0x828 then s.when (wbit cmd 0) fun s => s.dieRestart ((o - 0x808) / 0x20)
  else s

/-- The check of a register item in LEDGER (R402). -/
def ledgerCheck (s : State) (o : Nat) (m v : Word) : Nat :=
  if o < 0x100 then
    let n := o % 0x80 / 4
    let h := s.headOf n
    let busy := s.flag (FIELD.CH_STS_SW n) || s.isQueued h
    firstCause [(decide (0x80 ≤ o) && !inRanges m v [(0, 8, 0, 40)], cRange), (busy && s.reg (0x400E0000 + o) != v, cState)]
  else 0

def ledgerApply (s : State) (o : Nat) (_m _old _new cmd : Word) : State :=
  if o = 0x150 then s.when (wbit cmd 0) fun s => (s.setN (LEDGER.CNT 0) 0).setN (LEDGER.CNT 1) 0 else s

end Sys2Proof.Machine
end

