-- ==== Sys2Proof/Machine/Llp.lean ====
section
/-! DEFINITION. LLP (R365 to R379): copies, their acceptance and comparison, deliveries, supervision, and what the device sends. -/

namespace Sys2Proof.Machine

def State.stream (s : State) (node ty : Nat) : StreamSt := mget (fun _ => StreamSt.reset) s.llp.streams (4 * node + ty)
def State.onStream (s : State) (node ty : Nat) (f : StreamSt → StreamSt) : State :=
  { s with llp := { s.llp with streams := mput (fun _ => StreamSt.reset) s.llp.streams (4 * node + ty) (f (s.stream node ty)) } }

/-- The stream that a node's entry of the node table shows: STATE of a buoy, HEART of a device. -/
def mainType (node : Nat) : Nat := if node < 128 then 1 else 2

def State.nodeOn (s : State) (n : Nat) : Bool := bitB (s.regN (LLP.NODE_EN (n / 32))) (n % 32)

/-- An error counter increments (source 213). -/
def State.llpErr (s : State) (f : Fld) : State := (s.bump f 1).fire 213

/-- STS.LOST counts the enabled streams that are LOST or SL_OVER, STS.SINGLE those whose last used delivery was single-light: every stream of
an enabled node. A count past 255 shows 255: the model's choice, the spec gives none (assumption 83). -/
def State.llpShow (s : State) : State :=
  let cnt := fun (p : StreamSt → Bool) =>
    min 255 ((s.llp.streams.filter fun x => s.nodeOn (x.1 / 4) && p x.2).length)
  let single := fun (x : StreamSt) => match x.prev with
    | some q => q.2 != 1
    | none => false
  (s.setFld LLP.STS_LOST (cnt fun x => x.lost || x.past)).setFld LLP.STS_SINGLE (cnt single)

/-- The LOST threshold in ns (R376). -/
def State.lostAfter (s : State) : Nat :=
  (s.fld LLP.AGE_MISS_MAX * s.fld LLP.CYCLE_CYCLE + 300 + s.fld LLP.TIMING_TRANSIT + s.fld LLP.TIMING_SKEW_WIN) * 1000

/-- The stamp of a PDU in ns. The seconds of a stamp are the 32 low bits; the upper ones are those of device time nearest to it. -/
def State.pduStamp (s : State) (p : List Byte) : Nat :=
  let sec := leAt p 8 4
  let now := s.now / 1000000000
  let hi := now / 2 ^ 32
  let lo := now % 2 ^ 32
  let hi := if lo + 2 ^ 31 < sec then hi - 1 else if sec + 2 ^ 31 < lo then hi + 1 else hi
  (hi * 2 ^ 32 + sec) * 1000000000 + leAt p 12 4

/-- The single-light count of a stream after a delivery in a mode (R374). -/
def slNext (mode sl : Nat) : Nat := if mode = 1 then 0 else sl + 1

/-- Whether a delivery is used (R375): BOTH, or single-light on a stream that is not SL_OVER and does not become so. -/
def State.slUsed (s : State) (mode sl : Nat) (past : Bool) : Bool :=
  let max' := s.fld LLP.CFG_SINGLE_MAX
  mode == 1 || (!past && (max' == 0 || decide (slNext mode sl ≤ max')))

/-- A delivery reaches the monitors: each keeps what it received of a buoy, and judges SL_OVER from its own count (R348). -/
def State.buoyHand (s : State) (node : Nat) (p : List Byte) (stamp mode : Nat) : State :=
  s.forAll [0, 1, 2] fun l s => s.onMon l fun x =>
    let old : BuoySt := ((x.buoys.find? fun b => b.1 == node).map (·.2)).getD ⟨0, 0, 0, 0, false, 0⟩
    let sl := slNext mode old.sl
    let b : BuoySt :=
      if s.slUsed mode old.sl old.past then ⟨byteAt p 16, byteAt p 17, byteAt p 18, stamp, false, sl⟩
      else { old with stamp := stamp, past := true, sl := sl }
    { x with buoys := insertBy (fun a => (a.1 : Int)) (node, b) (x.buoys.filter fun q => q.1 != node) }

/-- A delivery (R374, R375, R377): mode 1 BOTH, 2 SINGLE_A, 3 SINGLE_B; `arr` is the arrival of the first copy. -/
def State.llpDeliver (s : State) (node ty : Nat) (p : List Byte) (mode arr : Nat) : State :=
  let x := s.stream node ty
  let main := ty == mainType node
  let stamp := s.pduStamp p
  let sl := slNext mode x.sl
  let used := s.slUsed mode x.sl x.past
  let pay := (p.drop 16).take (byteAt p 3)
  let push := ty == 3 || (used && decide (x.prev ≠ some (pay, mode)))
  let s := s.onStream node ty fun _ =>
    { last := some (leAt p 4 2), held := none, stamp := stamp, sl := sl, past := !used,
      lost := false, prev := if used then some (pay, mode) else x.prev }
  let s := s.when (mode != 1 && x.sl == 0 && x.prev.isSome) fun s => s.fire 209
  let s := s.when (!used && !x.past) fun s => s.fire 210
  let s := s.when (used && (x.lost || x.past)) fun s => s.fire 212
  let s := if main then
      let s := (s.setFld (LLP.NODE_MODE node) mode).setFld (LLP.NODE_SLCNT node) (min 255 sl)
      let s := if used then s.setFld (LLP.NODE_LAST node) (byteAt p 17 * 256 + byteAt p 16) else s
      s.setFld (LLP.NODE_STATE node) (if !used then 5 else if mode = 1 then 2 else 3)
    else s
  let s := s.llpShow
  let s := s.when push fun s =>
    s.hwPush 11 (padTo 80 (p.take (16 + byteAt p 3)) ++ leBytes 4 mode ++ leBytes 4 (shortOf s.now) ++ leBytes 4 (shortOf arr))
  let s := if ty = 1 then s.buoyHand node p stamp mode else s
  let s := s.when (ty == 2 && used && decide (128 ≤ node)) fun s => s.dutyHeard node (p.drop 16)
  if ty = 2 ∧ used ∧ node = 128 + s.fld RANGE.CFG_PARTNER then s.heartHeard (p.drop 16) else s

/-- A held copy is delivered single-light. -/
def State.heldOut (s : State) (node ty : Nat) : State :=
  match (s.stream node ty).held with
  | none => s
  | some h => s.llpDeliver node ty h.data (if h.net then 3 else 2) h.arrival

/-- An accepted copy is compared with its twin (R374). -/
def State.llpCopy (s : State) (node ty : Nat) (net : Bool) (p : List Byte) : State :=
  let s := match (s.stream node ty).held with
    | some h => if h.expiry ≤ s.now then s.heldOut node ty else s
    | none => s
  let q := leAt p 4 2
  let x := s.stream node ty
  let gap := fun (a : Nat) => (q + 65536 - a % 65536) % 65536
  let hold := fun (s : State) => s.onStream node ty fun x =>
    { x with held := some ⟨q, net, p, s.now, s.now + s.fld LLP.TIMING_SKEW_WIN * 1000⟩ }
  let late := match x.last with
    | some a => gap a == 0
    | none => false
  let old := match x.last with
    | some a => decide (32768 ≤ gap a)
    | none => false
  if late then s.llpErr LLP.ERR1_LATE
  else if old then s.llpErr LLP.ERR1_OLD
  else match x.held with
    | none => hold s
    | some h =>
      if h.seq = q then
        if h.net = net then s
        else if h.data = p then s.llpDeliver node ty p 1 h.arrival
        else ((s.llpErr LLP.ERR1_MIS).onStream node ty fun x => { x with last := some q, held := none }).fire 211
      else if 32768 ≤ gap h.seq then s.llpErr LLP.ERR1_OLD
      else hold (s.heldOut node ty)

/-- The start value and polynomial of a network's CRC (R367). -/
def State.llpCrc (s : State) (net : Bool) (bs : List Byte) : Nat :=
  if net then crcGo 0xEDB88320 (s.regN LLP.SEED_B) bs ^^^ 0xFFFFFFFF else crcGo 0x82F63B78 (s.regN LLP.SEED_A) bs ^^^ 0xFFFFFFFF

/-- A copy arrives on a port of a network: `p` runs from byte 0 of the header to the CRC (R373). -/
def execLlpCopyReceive (x : NetPort) (p : List Byte) (t : Nat) (s : State) : Host.Outcome State Fault Refusal :=
  done (
    let s := s.atTime t
    let net := x.k == 1
    if !s.flag LLP.CFG_EN || !s.flag LLP.STS_TIME_OK || !s.netHears x then s
    else
      let n := byteAt p 3
      let ty := byteAt p 0
      let src := byteAt p 2
      let body := p.take (16 + n)
      if p.length < 20 + n ∨ s.llpCrc net body ≠ leAt p (16 + n) 4 then
        s.llpErr (if net then LLP.ERR0_CRC_B else LLP.ERR0_CRC_A)
      else
        let lenOk := (ty == 1 && n == 8) || (ty == 2 && n == 16) ||
          (ty == 3 && decide (8 ≤ n ∧ n ≤ 64) && n % 4 == 0)
        let ok := byteAt p 1 == 1 && lenOk && leAt p 6 2 == s.fld LLP.CYCLE_CYCLE && decide (src < 136) && s.nodeOn src &&
          src != 128 + s.fld LLP.CFG_NODE
        let stamp := s.pduStamp p
        if !ok then s.llpErr LLP.ERR1_HDR
        else if stamp + s.fld LLP.AGE_MAX_AGE * 1000 < s.now then s.llpErr LLP.ERR0_AGE
        else if s.now + 200000 < stamp then s.llpErr LLP.ERR0_FUTURE
        else
          let s := s.fire 215
          let s := s.when (s.flag LLP.CFG_RAW_EN) fun s =>
            s.hwPush (if net then 9 else 8) (padTo 80 body ++ leBytes 4 (b2n net) ++ leBytes 4 (shortOf s.now))
          s.llpCopy src ty net body)

/-- The wait of a held copy ends (R374). -/
def execLlpHoldExpiry (node : Fin 136) (ty : Fin 4) (t : Nat) (s : State) : Host.Outcome State Fault Refusal :=
  done (
    let s := s.atTime t
    match (s.stream node ty).held with
    | some h => if h.expiry ≤ s.now ∧ s.flag LLP.CFG_EN ∧ s.flag LLP.STS_TIME_OK then s.heldOut node ty else s
    | none => s)

/-- A stream that has had a delivery becomes LOST when its age exceeds the threshold (R376); the node table shows the main one. -/
def State.streamLost (s : State) (node ty : Nat) : State :=
  let x := s.stream node ty
  if x.prev.isNone && !x.past || x.lost || !decide (x.stamp + s.lostAfter < s.now) then s
  else
    let s := s.onStream node ty fun x => { x with lost := true }
    let s := s.when (ty == mainType node) fun s => s.setFld (LLP.NODE_STATE node) 4
    s.llpShow.fire 208

/-- The age of a node's streams exceeds the threshold (R376): each of them that it exceeds is LOST. -/
def execStreamLost (node : Fin 136) (t : Nat) (s : State) : Host.Outcome State Fault Refusal :=
  done (
    let s := s.atTime t
    if s.nodeOn node then s.forAll [1, 2, 3] fun ty s => s.streamLost node ty else s)

/-! ### Sending (R369 to R372) -/

/-- The payload of HEART (R369, R465). -/
def State.heartPayload (s : State) : List Byte :=
  let fl := b2n (s.flag RANGE.STS_HOLDS_CLAIM) + 2 * b2n (s.flag RANGE.STS_HOLDS_HF) +
    4 * b2n (s.paired && s.range.linkAt.isSome && !s.flag RANGE.STS_LINK_LOST) + 8 * b2n (s.flag RANGE.STS_READY)
  leBytes 1 s.claimNo ++ leBytes 1 s.mode ++ leBytes 1 s.rangeState ++ leBytes 1 fl ++ leBytes 4 (s.regN GALLERY.TIDE_NUM_LO) ++
    leBytes 4 (s.regN (GALLERY.DIGEST 7)) ++ leBytes 4 0

/-- Bytes 0 to 15 + LEN of a PDU that the device sends now. -/
def State.pdu (s : State) (ty seq : Nat) (pay : List Byte) : List Byte :=
  leBytes 1 ty ++ leBytes 1 1 ++ leBytes 1 (128 + s.fld LLP.CFG_NODE) ++ leBytes 1 pay.length ++ leBytes 2 seq ++
    leBytes 2 (s.fld LLP.CYCLE_CYCLE) ++ leBytes 4 (s.now / 1000000000) ++ leBytes 4 (s.now % 1000000000) ++ pay

/-- The copy of a PDU on a network, from its destination address on, as a port sends it (R366). -/
def State.llpFrame (s : State) (k p : Nat) (d : List Byte) : List Byte :=
  let vlan := if s.flag LLP.CFG_VLAN then
      beBytes 2 0x8100 ++ beBytes 2 (s.fld LLP.CFG_PCP * 8192 + s.fld LLP.CFG_VID) else []
  let b := d ++ leBytes 4 (s.llpCrc (k == 1) d)
  beBytes 6 (s.regN LLP.MAC_LO + 2 ^ 32 * (s.regN LLP.MAC_HI % 65536)) ++ beBytes 6 (s.portMac k p) ++ vlan ++
    beBytes 2 0x88B5 ++ b ++ List.replicate (46 - b.length) 0

/-- Sends up to `n` DATA payloads of ring 10 (the first number bounds the entries taken), the oldest read with what ECC finds; bad entries count
in ERR1.HDR. -/
def State.llpData (s : State) (ecc : Ecc) : Nat → Nat → State
  | 0, _ => s
  | _, 0 => s
  | f + 1, n + 1 =>
    match s.ringTake 10 with
    | none => s
    | some (e, s) =>
      let (e, s) := s.hwEcc 5 ecc e
      let len := byteAt e 0
      if len < 8 ∨ 64 < len ∨ len % 4 ≠ 0 then (s.llpErr LLP.ERR1_HDR).llpData .clean f (n + 1)
      else
        let d := s.pdu 3 s.llp.dSeq ((e.drop 4).take len)
        { s with llp := { s.llp with dSeq := (s.llp.dSeq + 1) % 65536, sent := s.llp.sent ++ [d] } }.llpData .clean f n

/-- Whether a slot of this device falls now: k × CYCLE + n × floor(CYCLE / 136) µs of device time, for node n (R370). -/
def State.llpSlotNow (s : State) : Bool :=
  let c := s.fld LLP.CYCLE_CYCLE
  s.now % (c * 1000) == (128 + s.fld LLP.CFG_NODE) * (c / 136) * 1000

/-- The PDUs of a slot (R371, R372): HEART, then DATA. -/
def State.llpSlotPdus (s : State) (ecc : Ecc) : State :=
  let s := { s with llp := { s.llp with sent := [] } }
  let s := s.when (s.flag LLP.CFG_HEART_EN) fun s =>
    let d := s.pdu 2 s.llp.hSeq s.heartPayload
    { s with llp := { s.llp with hSeq := (s.llp.hSeq + 1) % 65536, sent := [d] } }
  s.llpData ecc (s.ringCnt 10) 4

/-- TIME_OK follows the lock of device time (R372). -/
def State.llpTime (s : State) (ok : Bool) : State :=
  if s.flag LLP.STS_TIME_OK == ok then s else (s.setFlag LLP.STS_TIME_OK ok).fire 214

/-! ### Commits -/

/-- Whether a voting monitor is locked (R360). -/
def State.anyLocked (s : State) : Bool := s.voters.any fun l => s.flag (SAFE.STS_LOCKED l)

def llpLocked (o : Nat) : Bool := decide (o ≤ 0x1C) || decide (0x20 ≤ o ∧ o < 0x34)

/-- The check of a register item in LLP. -/
def llpCheck (s : State) (o : Nat) (m v : Word) : Nat :=
  let rng := fun f => if inRanges m v f then 0 else cRange
  if llpLocked o && s.anyLocked then cLocked
  else if o = 4 then rng [(0, 14, 250, 10000)]
  else if o = 8 then rng [(16, 16, 50, 2000), (0, 16, 100, 5000)]
  else if o = 0xC then rng [(16, 4, 1, 15)]
  else 0

/-- What must hold at the end of a group that touches LLP. -/
def llpGroup (s0 s : State) : Nat :=
  let age := (s.reg LLP.AGE != s0.reg LLP.AGE || s.reg LLP.TIMING != s0.reg LLP.TIMING) &&
    decide (s.fld LLP.AGE_MAX_AGE < s.fld LLP.TIMING_TRANSIT + 500)
  let seeds := (s.reg LLP.SEED_A != s0.reg LLP.SEED_A || s.reg LLP.SEED_B != s0.reg LLP.SEED_B) &&
    s.reg LLP.SEED_A == s.reg LLP.SEED_B
  let mac := (s.reg LLP.CFG != s0.reg LLP.CFG || s.reg LLP.MAC_HI != s0.reg LLP.MAC_HI) && s.flag LLP.CFG_EN &&
    !bitB (s.regN LLP.MAC_HI) 8
  if age || seeds || mac then cRange else 0

/-- The effect of a register item in LLP. -/
def llpApply (s : State) (o : Nat) (_m old new cmd : Word) : State :=
  if 0x20 ≤ o ∧ o < 0x34 then
    let k := (o - 0x20) / 4
    let s := s.forAll (upto 32) fun b s =>
      let n := 32 * k + b
      if 136 ≤ n ∨ wbit old b = wbit new b then s
      else
        let s := s.setN (LLP.NODE n) 0
        let s := s.forAll [1, 2, 3] fun ty s => s.onStream n ty fun _ => StreamSt.reset
        if wbit new b then s.setFld (LLP.NODE_STATE n) 1 else s
    s.llpShow
  else if o = 0x4C then
    s.when (wbit cmd 0) fun s => (s.setN LLP.ERR0 0).setN LLP.ERR1 0
  else s

end Sys2Proof.Machine
end

