-- ==== Sys2Proof/Machine/RangeRows.lean ====
section
/-! DEFINITION. What happens on the lines of a range pair (R457 to R472): CLAIM rounds, HOLDFAST, the range link and the paths. -/

namespace Sys2Proof.Machine

/-- A CLAIM round ends (R457, R458): the claim that the partner sent, 0 for none, and whether the round completed. No round starts within 50 µs
of another; a failed one is taken to be as long as a whole one (assumption 38). -/
def execClaimRound (rival : BitVec 8) (ok : Bool) (t : Nat) (s : State) : Host.Outcome State Fault Refusal :=
  done (
    let s := s.atTime t
    let soon := match s.range.roundAt with
      | some a => decide (s.now < a + 50000)
      | none => false
    if s.rangeState == 0 || soon then s
    else
    let s := s.onRange fun r => { r with roundAt := some s.now }
    if !ok then ((s.bump RANGE.ERR_ROUND 1).setHoldsClaim false).fieldSettle
    else
      let own := if s.claims' then s.claimNo else 0
      let s := s.setFld RANGE.STS_BUS (max own rival.toNat)
      let won := s.claims' && decide (rival.toNat ≤ own)
      let s := s.setHoldsClaim won
      (s.when won fun s => s.gapClose false (t + 25000)).fieldSettle)

/-- Whether the majority of the SAFE gates for HOIST and BRAKE is open. -/
def State.hoistGates (s : State) : Bool := (s.majority fun l => s.gate l 1) && (s.majority fun l => s.gate l 2)

/-- The take word of an on-duty device on an idle line ends, 16 µs after its start, with the partner's take word at the same instant, 0 for
none (R461, R471). -/
def execHoldfastTake (rival : BitVec 7) (t : Nat) (s : State) : Host.Outcome State Fault Refusal :=
  done (
    let s := s.atTime t
    let line := decide (s.range.lowAt + 116000 ≤ s.now) && decide (s.range.stAt + 16000 ≤ s.now)
    let inTime := match s.range.takeAt with
      | some a => decide (t ≤ a + 6000000)
      | none => true
    if s.rangeState == 4 && s.range.idle && !s.flag RANGE.STS_HOLDS_HF && s.hoistGates && line && inTime then
      let s := s.hfLow
      if rival.toNat ≤ s.fld RANGE.STS_BASE then
        (((s.onRange fun r => { r with takeAt := none }).setHoldsHf true).gapClose true (t + 25000)).fieldSettle
      else s.setFlag RANGE.STS_HF_SEEN true
    else s)

/-- A holder sees a low level at another time than R461 allows: both devices release the line. -/
def State.hfContend (s : State) : State := ((s.bump RANGE.ERR_HF 1).setHoldsHf false).fieldSettle

/-- The pass pulse: sent by a HANDING holder that has stopped claiming, or seen by a TAKING partner (R461, R467). -/
def execHoldfastPass (t : Nat) (s : State) : Host.Outcome State Fault Refusal :=
  done (
    let s := s.atTime t
    if s.rangeState = 5 ∧ s.range.quit ∧ s.flag RANGE.STS_HOLDS_HF then s.onRange fun r => { r with passed := true }
    else if s.rangeState = 3 ∧ !s.flag RANGE.STS_HOLDS_HF then
      (((s.hfLow.onRange fun r => { r with passEnd := s.now + 50000 }).setHoldsHf true).gapClose true (t + 25000)).fieldSettle
    else if s.rangeState = 0 then s
    else if s.flag RANGE.STS_HOLDS_HF then s.hfLow.hfContend
    else s.hfLow)

/-- The line has shown no low level for 100 µs (R461). -/
def execHoldfastIdle (t : Nat) (s : State) : Host.Outcome State Fault Refusal :=
  done (
    let s := s.atTime t
    if s.rangeState = 0 ∨ s.flag RANGE.STS_HOLDS_HF ∨ s.now < s.range.lowAt + 100000 then s
    else (s.onRange fun r => { r with idle := true }).setFlag RANGE.STS_HF_SEEN false)

/-- A low pulse of the partner on HOLDFAST (R461). -/
def execHoldPatternPulse (t : Nat) (s : State) : Host.Outcome State Fault Refusal :=
  done (
    let s := s.atTime t
    if s.rangeState = 0 then s
    else
      let s := s.hfLow
      if !s.flag RANGE.STS_HOLDS_HF ∨ s.rangeState = 3 ∨ s.now ≤ s.range.passEnd then s.setFlag RANGE.STS_HF_SEEN true
      else if s.range.passed then
        let s := s.setFlag RANGE.STS_HF_SEEN true
        let s := s.onRange fun r => { r with pulses := r.pulses + 1 }
        if 2 ≤ s.range.pulses then (s.setHoldsHf false).fieldSettle else s
      else s.hfContend)

/-- A heartbeat word is sent, every 50 µs (R463). -/
def execRangeHeartbeat (t : Nat) (s : State) : Host.Outcome State Fault Refusal :=
  done (
    let s := s.atTime t
    let due := match s.range.beat with
      | some b => decide (b.1 + 50000 ≤ s.now)
      | none => true
    if s.paired && due then s.onRange fun r => { r with beat := some (s.now, s.flag RANGE.STS_READY) } else s)

/-- A good word on the link. -/
def State.goodWord (s : State) : State := (s.onRange fun r => { r with linkAt := some s.now }).heardPartner

/-- A heartbeat word arrives (R463, R464); a bad frame counts in ERR.CRC. -/
def execLinkHeartbeatReceive (good ready : Bool) (t : Nat) (s : State) : Host.Outcome State Fault Refusal :=
  done (
    let s := s.atTime t
    if !s.paired then s
    else if !good then s.bump RANGE.ERR_CRC 1
    else
      let s := (s.setFlag RANGE.STS_P_READY ready).readyShow
      let s := s.onRange fun r => { r with wasReady := s.flag RANGE.STS_READY }
      s.goodWord.pathTo 0 false)

/-- A stream record arrives (R462, R484): the partner's tide number, outcome, mode, state, handover flag, mirror, digest, the mask of
its XFER words and the words. -/
def execStreamRecord (good : Bool) (tide : Word) (outcome mode st : BitVec 8) (hand : Bool) (mirror : Word) (digest : List Byte)
    (mask : BitVec 14) (words : List Word) (t : Nat) (s : State) : Host.Outcome State Fault Refusal :=
  done (
    let s := s.atTime t
    if !s.paired then s
    else if !good then ((s.bump RANGE.ERR_CRC 1).onRange fun r => { r with recs := 0 }).readyShow
    else
      let s := s.goodWord
      let old := if s.range.recSeen then some (s.regN RANGE.MIRROR) else none
      let miss := (tide - s.reg RANGE.PTIDE - 1).toNat
      let gap := s.range.recSeen && decide (miss ≠ 0)
      let s := s.when gap fun s => s.bump RANGE.ERR_GAP miss
      let s := (s.setReg RANGE.PTIDE tide).setReg RANGE.MIRROR mirror
      let s := s.onRange fun r =>
        { r with recSeen := true, recs := if gap then 1 else min 16 (r.recs + 1),
                 recAt := s.now, recOld := if r.recSeen && r.recAt == s.now then r.recOld else old
                 pSt := st.toNat % 16, pMode := mode.toNat % 16
                 handIn := if hand && s.rangeState == 2 && r.handIn.isNone then some s.now else r.handIn }
      let s := s.hwPush 28 (leBytes 4 tide.toNat ++ leBytes 1 outcome.toNat ++ leBytes 1 mode.toNat ++ leBytes 1 st.toNat ++
        leBytes 1 (b2n hand) ++ leBytes 4 mirror.toNat ++ leBytes 4 (shortOf s.now) ++ padTo 32 digest)
      let s := s.when (mask != 0) fun s =>
        let xs := (upto 14).foldl (fun (p : List Byte × List Word) k =>
          if bitB mask.toNat k then (p.1 ++ leBytes 4 (p.2.headD 0).toNat, p.2.tail) else (p.1 ++ leBytes 4 0, p.2)) ([], words)
        s.hwPush 29 (leBytes 4 tide.toNat ++ leBytes 4 mask.toNat ++ xs.1)
      s.readyShow)

/-- A path of the partner (0 link, 1 LLP) is lost by timeout; loss on both is partner loss (R463). -/
def execPathLost (path : Fin 2) (t : Nat) (s : State) : Host.Outcome State Fault Refusal :=
  done (
    let s := s.atTime t
    let late := if path.val = 0 then decide ((s.range.linkAt.getD s.range.enAt) + 250000 ≤ s.now)
      else
        let x := s.stream (128 + s.fld RANGE.CFG_PARTNER) 2
        let lim := (s.fld RANGE.CFG_HB_LLP_N * s.fld LLP.CYCLE_CYCLE + s.fld LLP.TIMING_TRANSIT + s.fld LLP.TIMING_SKEW_WIN) * 1000
        decide ((if x.last.isSome then x.stamp else s.range.enAt) + lim < s.now)
    if !s.paired || !late then s
    else
      let was := s.flag RANGE.STS_LINK_LOST && s.flag RANGE.STS_LLP_LOST
      let s := s.pathTo path true
      let both := s.flag RANGE.STS_LINK_LOST && s.flag RANGE.STS_LLP_LOST
      s.when (both && !was && s.range.heard) fun s => s.onRange fun r => { r with loss := some s.now })

/-- The devices exchange base claims and hash words when the link first comes up (R456, R464). -/
def execBaseClaimExchange (base : BitVec 7) (hash : Word) (t : Nat) (s : State) : Host.Outcome State Fault Refusal :=
  done (
    let s := s.atTime t
    if !s.paired || s.range.swapped then s
    else
      let s := s.onRange fun r => { r with swapped := true, hash := some hash.toNat }
      if base.toNat = s.fld RANGE.STS_BASE then (s.rangeTo 7 6).fieldSettle else s.goodWord.readyShow)

/-- 6 ms after an abrupt takeover HOLDFAST is not held (R471). -/
def execIsolated (t : Nat) (s : State) : Host.Outcome State Fault Refusal :=
  done (
    let s := s.atTime t
    match s.range.takeAt with
    | none => s
    | some a =>
      if s.rangeState = 4 ∧ !s.flag RANGE.STS_HOLDS_HF ∧ a + 6000000 ≤ s.now then
        ((s.onRange fun r => { r with takeAt := none }).rangeTo 6 4).fieldSettle
      else s)

end Sys2Proof.Machine
end

