-- ==== Sys2Proof/Machine/Sys.lean ====
section
/-! DEFINITION. SYS and KEEPER (R486 to R510): modes, entry to DARK and to KEEPER, power states and wakes, the real-time clock, VBAT,
the fog signal, the image writer's registers, and their commits. -/

namespace Sys2Proof.Machine

def State.power (s : State) : Nat := s.fld SYS.PWR_STS_STATE

/-- FAULT_N is low (R502). -/
def State.faultShow (s : State) : State :=
  let b := s.sys.phase == 0 || !s.sys.up || s.mode == 0 || s.mode == 1 || s.flag KEEPER.STS_FOG_BITE
  s.onSys fun x => { x with pinFault := b }

/-! ### Instants that move with a step of device time -/

/-- An instant that the part keeps for a duration moves with a step of device time. -/
def mvT (d : Int) (t : Nat) : Nat := ((t : Int) + d).toNat

def ChSt.shift (c : ChSt) (d : Int) : ChSt :=
  { c with adm := c.adm.map (mvT d), pulse := c.pulse.map fun p => { p with start := mvT d p.start, stop := mvT d p.stop }
           offEnd := c.offEnd.map (mvT d), due := c.due.map (mvT d), clrAt := mvT d c.clrAt
           swAt := mvT d c.swAt, thermAt := c.thermAt.map (mvT d), perAt := mvT d c.perAt
           watch := c.watch.map fun w => (mvT d w.1, mvT d w.2) }

def DieSt.shift (k : DieSt) (d : Int) : DieSt :=
  { k with qs := k.qs.map (fun e => (e.1, mvT d e.2)), qo := k.qo.map (fun e => (e.1, mvT d e.2)), past := k.past.map (mvT d)
           up := k.up.map (mvT d), low := k.low.map (mvT d), hi15 := k.hi15.map (mvT d), hi17 := k.hi17.map (mvT d)
           heard := k.heard.map (fun e => (e.1, mvT d e.2)) }

def RangeSt.shift (r : RangeSt) (d : Int) : RangeSt :=
  { r with enAt := mvT d r.enAt, linkAt := r.linkAt.map (mvT d), duty := r.duty.map (fun p => (p.1, mvT d p.2))
           takeAt := r.takeAt.map (mvT d), gapFrom := r.gapFrom.map (mvT d), claimOff := mvT d r.claimOff
           loss := r.loss.map (mvT d), handIn := r.handIn.map (mvT d), beat := r.beat.map fun b => (mvT d b.1, b.2)
           lowAt := mvT d r.lowAt, stAt := mvT d r.stAt, roundAt := r.roundAt.map (mvT d), passEnd := mvT d r.passEnd
           recAt := mvT d r.recAt }

/-- Those of the networks and of LINK; stamps that a PTP message has carried stay as they are (R454). -/
def NetSt.shift (n : NetSt) (d : Int) : NetSt :=
  let at2 := fun (e : Nat × Nat) => (e.1, mvT d e.2)
  { n with
    servo := { n.servo with holdAt := mvT d n.servo.holdAt }
    ptp := n.ptp.map fun (p : Nat × PtpSt) => (p.1, { p.2 with
      syncAt := mvT d p.2.syncAt, sentAt := p.2.sentAt.map at2, reqs := p.2.reqs.map fun r => (r.1, r.2.1, mvT d r.2.2)
      foreign := p.2.foreign.map fun (m : Master) => { m with last := mvT d m.last, before := m.before.map (mvT d) } })
    port := n.port.map fun (p : Nat × PortSt) => (p.1, { p.2 with till := mvT d p.2.till })
    mdio := n.mdio.map fun (m : Nat × MdioCmd) => (m.1, { m.2 with at' := mvT d m.2.at' })
    poll := n.poll.map at2 }

/-- Those of POS. Stamps that a capture carries stay as they are (R454). -/
def PosSt.shiftTime (p : PosSt) (d : Int) : PosSt :=
  { p with
    enc := p.enc.map fun (e : Nat × EncSt) => (e.1, { e.2 with zAt := e.2.zAt.map fun z => (mvT d z.1, z.2), enAt := mvT d e.2.enAt })
    ssi := p.ssi.map fun (e : Nat × SsiSt) => (e.1, { e.2 with latch := mvT d e.2.latch, ends := e.2.ends.map (mvT d) })
    hist := p.hist.map fun (h : Hist) => { h with t := mvT d h.t }
    dmq := p.dmq.map fun (e : DmEdge) => { e with at' := mvT d e.at', ref := mvT d e.ref }
    capq := p.capq.map fun (e : CapEdge) => { e with at' := mvT d e.at' } }

def LinkSt.shift (k : LinkSt) (d : Int) : LinkSt :=
  { k with uart := k.uart.map fun (u : Nat × UartSt) => (u.1, { u.2 with rxAt := mvT d u.2.rxAt, txAt := mvT d u.2.txAt })
           spi := k.spi.map fun (x : Nat × Nat × List Byte × Nat) => (x.1, x.2.1, x.2.2.1, mvT d x.2.2.2) }

/-- Those of MOTION. -/
def MotSt.shiftTime (m : MotSt) (d : Int) : MotSt :=
  { m with axes := (m.axes.map fun (x : Nat × AxSt) => (x.1, { x.2 with
      spHist := x.2.spHist.map fun h => (h.1, h.2.1, h.2.2 + d)
      home := { x.2.home with
        since := mvT d x.2.home.since, latch := x.2.home.latch.map (mvT d)
        edges := x.2.home.edges.map fun (e : HomeEdge) => { e with stamp := mvT d e.stamp, at' := mvT d e.at' } } })).filter (·.2 != AxSt.reset) }

/-- All of them, in the blocks that time durations across a step. -/
def State.shiftTimes (s : State) (d : Int) : State :=
  let ch := (s.field.ch.map fun (c : Nat × ChSt) => (c.1, c.2.shift d)).filter fun c => c.2 != ChSt.reset
  let die := (s.field.die.map fun (k : Nat × DieSt) => (k.1, k.2.shift d)).filter fun k => k.2 != DieSt.reset
  let fails := s.gal.fails.map fun (f : Nat × Nat) => (f.1, mvT d f.2)
  let s := { s with field := { s.field with ch := ch, die := die, slotAt := s.field.slotAt.map (mvT d) }
                    gal := { s.gal with
                      fails := fails
                      heard := s.gal.heard.map fun (h : Nat × Nat) => (h.1, mvT d h.2)
                      edge := { s.gal.edge with last := mvT d s.gal.edge.last, due := mvT d s.gal.edge.due }
                      relief := { s.gal.relief with at' := mvT d s.gal.relief.at' } }
                    ringOff := s.ringOff.map fun (r : Nat × Nat) => (r.1, mvT d r.2)
                    ringPre := s.ringPre.map fun (r : Nat × (Nat × Nat)) => (r.1, (mvT d r.2.1, r.2.2))
                    tickAt := s.tickAt.map (mvT d)
                    pos := s.pos.shiftTime d
                    mot := s.mot.shiftTime d
                    host := { s.host with ltrPre := s.host.ltrPre.map fun (p : Nat × Nat × Option Nat) => (mvT d p.1, p.2) }
                    range := s.range.shift d
                    tests := { s.tests with passAt := mvT d s.tests.passAt, slotEnd := s.tests.slotEnd.map fun (e : Nat × Nat) => (e.1, mvT d e.2),
                                             slotAt := mvT d s.tests.slotAt, segAt := mvT d s.tests.segAt, scrubAt := mvT d s.tests.scrubAt, hashAt := mvT d s.tests.hashAt }
                    safe := { s.safe with mon := s.safe.mon.map fun (m : Nat × MonSt) => (m.1, { m.2 with at' := m.2.at'.map (mvT d) }) }
                    llp := { s.llp with streams := s.llp.streams.map fun (m : Nat × StreamSt) => (m.1, { m.2 with
                      held := m.2.held.map fun (h : HeldCopy) => { h with arrival := mvT d h.arrival, expiry := mvT d h.expiry } }) } }
  { s with net := s.net.shift d, link := s.link.shift d }

/-- The instants that DOOR and the engines hold follow a step. -/
def State.shiftDrives (s : State) (d : Int) : State :=
  let doors := s.door.doors.map fun (x : Nat × DoorSt) => (x.1, { x.2 with
    ins := x.2.ins.map fun (i : Nat × EngIn) => (i.1, { i.2 with at' := mvT d i.2.at', was := mvT d i.2.was })
    tblAt := mvT d x.2.tblAt
    angle := { x.2.angle with tick := mvT d x.2.angle.tick }
    angleOld := { x.2.angleOld with tick := mvT d x.2.angleOld.tick }
    loadAt := mvT d x.2.loadAt
    pwmAt := x.2.pwmAt.map (mvT d) })
  let s := { s with door := { s.door with doors := doors, readAt := mvT d s.door.readAt } }
  s.forAll [0, 1, 2] fun l s => s.onLane l fun x =>
    { x with eng := x.eng.map fun (e : Nat × EngSlot) => (e.1, { e.2 with at' := mvT d e.2.at' }) }

/-! ### Modes (R487 to R490) -/

/-- On the first entry to NORMAL the boot record's ROLLBACK follows the running image (R110). -/
def State.rollbackRaise (s : State) : State :=
  if s.img.valid && decide (rdLE s.mram 4 4 < s.img.rollback) then { s with mram := wrLE s.mram 4 4 s.img.rollback } else s

/-- Pending writes of the keeper's slots complete: the checkpoint and the door slots. -/
def State.keeperFlush (s : State) : State :=
  let s := s.forAll [0, 1] fun d s => s.onDr d fun x => { x with slot := x.writes.getLast?.getD x.slot, writes := [] }
  match s.pos.ckptBusy with
  | none => s
  | some b =>
    let i := match s.ckptIdx with
      | some 0 => 1
      | _ => 0
    let s := s.onPos fun p => { p with ckpt := wrBytes p.ckpt (32 * i) b, ckptBusy := none }
    (s.bump POS.CKPT_STS_WRITES 1).ckptShow

/-- The power state changes (source 249). On a return to P0 or P1 the engines' slots start again (R263). -/
def State.powerTo (s : State) (p : Nat) : State :=
  if s.power = p then s
  else (s.when (decide (p ≤ 1 ∧ 2 ≤ s.power)) State.ctrlRestart |>.setFld SYS.PWR_STS_STATE p).fire 249

/-- The lanes stop. -/
def State.lanesStop (s : State) : State := s.forAll [0, 1, 2] fun l s => s.onLane l fun x => { x with run := false, wait := none }

/-- Entry to P4 (R495): the writes in progress complete, then the checkpoint is written, with the values of the tick of this instant or
else of the last one (assumption 34). -/
def State.keeperEntry (s : State) : State :=
  let s := if s.now % 31250 = 0 ∧ s.tickAt ≠ some s.now then { s with tickAt := some s.now }.posTick else s
  let s := (s.doorsKeepAll.keeperFlush.ckptAsk.ckptStart.keeperFlush).logHw 0xC 0
  let s := (s.lanesStop.powerTo 4).onKeep fun k => { k with paused := true }
  s.fieldSettle

/-- A mode other than the present one takes effect (R486 to R490); the field channels follow with the rest of the write set. -/
def State.modeShift (s : State) (new cause : Nat) : State :=
  let old := s.mode
  let s := ((s.setFld SYS.MODE_MODE new).setFld SYS.MODE_PREV old).setFld SYS.MODE_CAUSE cause
  let s := s.fire 248
  let s := if new ≤ 3 then s.disarmAll else s
  let s := if new = 0 then s.motionDark else s
  let s := if new = 6 then s.rollbackRaise else s
  let s := s.dspMode
  let s := if new = 0 then s.logHw 8 cause else s.logHw 9 new
  let s := s.when (new == 1) State.keeperEntry
  s.readyShow.faultShow

/-- A mode other than the present one is entered outside a write set. -/
def State.modeEnter (s : State) (new cause : Nat) : State := (s.modeShift new cause).fieldSettle

/-- A cause of DARK (R489). -/
def State.darkEntry (s : State) (cause : Nat) : State :=
  if s.mode = 0 then s.logHw 8 cause else s.modeEnter 0 cause

/-- The transitions that may be committed (R487). -/
def modeNext : Nat → List Nat
  | 0 => [2]
  | 2 => [3, 4, 5, 6, 11, 1]
  | 3 => [2]
  | 4 => [5]
  | 5 => [4, 6, 11]
  | 6 => [5, 7, 8, 10, 11]
  | 7 => [6, 5, 8]
  | 8 => [9, 6, 10]
  | 9 => [8]
  | 10 => [6, 11]
  | 11 => [6, 5, 2, 1]
  | _ => []

/-- Why a committed mode is refused, 0 for not at all (R186, R359, R487, R488); `s0` is the state that the earlier groups of the tide
leave. -/
def State.modeFrom (s0 s : State) (new : Nat) : Nat :=
  let old := s.mode
  let idle := (upto 4).all fun a => s0.axState a == 0
  let armed := s0.voters.all fun l => s0.flag (SAFE.STS_ARMED l)
  let ready := s.voters.all fun l => s.flag (SAFE.STS_ARMED l)
  if 12 ≤ new then cRange
  else if new = old then 0
  else if new ≠ 0 ∧ !(modeNext old).contains new then cMode
  else if (new = 2 ∨ new = 3) ∧ !idle then cState
  else if (new = 4 ∨ new = 5) ∧ !armed then cState
  else if new = 1 ∧ !(idle && decide (209000 ≤ s0.regN SYS.LTR) && s0.flag KEEPER.STS_VBAT_OK) then cState
  else if new = 2 ∧ old = 0 ∧ 1 < s0.fld GALLERY.VOTE_STS_VOTE then cState
  else if new = 6 ∧ !(ready && s.posState == 3) then cState
  else 0

def State.modeCheck (s : State) (new : Nat) : Nat := s.modeFrom s new

/-! ### Power states (R491 to R496) -/

/-- The exit latency of a power state, µs. -/
def exitUs : Nat → Nat
  | 0 => 0
  | 1 => 2
  | 2 => 40
  | 3 => 3000
  | _ => 209000

/-- Whether the mode permits a power state. -/
def modePermits (m p : Nat) : Bool :=
  if p = 0 then true
  else if p = 1 then m != 3
  else if p = 2 then m == 0 || m == 2 || m == 6 || m == 7 || m == 11
  else if p = 3 then m == 11
  else m == 1

/-- Whether a source is latched and wakes (R496). -/
def State.wakes (s : State) (n : Nat) : Bool :=
  bitB (s.regN (SYS.WAKE_EN (n / 32))) (n % 32) && bitB (s.regN (GALLERY.EVT_PEND (n / 32))) (n % 32)

/-- A latched source that wakes, the lowest first. -/
def State.wakeSource (s : State) : Option Nat := (upto 256).find? s.wakes

/-- A source that wakes and was latched at the present instant: it meets an entry to P2 or P3 and does not bar it (R509). -/
def State.wakeNow (s : State) : Option Nat := (upto 256).find? fun n => s.wakes n && mget zeroNat s.gal.evtStamp n == s.now

/-- Whether a source that wakes was latched before the present instant (R492). -/
def State.wakeBefore (s : State) : Bool := (upto 256).any fun n => s.wakes n && mget zeroNat s.gal.evtStamp n != s.now

/-- A channel of a group is commanded on. -/
def State.grpCommanded (s : State) (g : Nat) : Bool :=
  (upto 32).any fun c => s.groupOf c == some g && s.flag (FIELD.CH_OUT_ON c)

/-- The entry conditions of a power state. -/
def State.powerEntry (s : State) (p : Nat) : Bool :=
  let quiet := !s.wakeBefore
  let axes := (upto 4).all fun a => s.axState a == 0 || (s.axState a == 1 && (s.ax a).queue == [] && (s.ax a).prof.segs == [])
  let axes := axes && (upto 4).all fun a => (s.ax a).acts == [] && (s.ax a).faultPend == none
  let doors := [0, 1].all fun d => s.fld (DOOR.DOOR_STS_DSTATE d) == 0 || s.axState (d + 1) == 0
  let lanes := [0, 1, 2].all fun l => s.laneState l == 0
  let p2 := axes && !s.grpCommanded 2 && doors && lanes && s.tests.req.isNone
  if p = 0 ∨ p = 4 then true
  else if p = 1 then quiet
  else if p = 2 then quiet && p2
  else quiet && p2 && ((upto 4).all fun a => s.axState a == 0) && !s.grpCommanded 1

/-- The power state at a boundary (R492, R493). -/
def State.powerSelect (s : State) : State :=
  let ltr := s.regN SYS.LTR
  let ok := fun (p : Nat) => decide (exitUs p ≤ ltr) && modePermits s.mode p
  let may := fun (p : Nat) => ok p && s.powerEntry p && !(s.sys.woke && (p == 2 || p == 3))
  let deepest := (upto 5).foldl (fun d p => if ok p then p else d) 0
  let p := (upto 5).foldl (fun d p => if may p then p else d) 0
  let old := s.power
  let s := (s.setFld SYS.PWR_STS_DEEPEST deepest).onSys fun x => { x with woke := false }
  let ltrWake := old == 2 && decide (p < 2) && decide (ltr < 40)
  let s := s.powerTo p
  let s := s.when ltrWake fun s => (s.setFld SYS.PWR_STS_CAUSE 2).fire 250
  if p = 3 ∧ old ≠ 3 then
    let s := s.forAll [0, 1, 2] fun l s => (s.monStop l).gatesShow l
    ((s.lanesStop.doorsKeepAll.onKeep fun k => { k with paused := true }).safeShow).fieldSettle
  else s

/-- Free-running ms of the keeper at which a fog interval is judged. -/
def State.fogResume (s : State) : State :=
  if s.keep.paused then s.onKeep fun k => { k with paused := false, fogAt := s.freeRun, half := false } else s

/-- A wake of P2 or P3 (R493, R494, R496): 1 EVENT with its source, 2 LTR, 3 WAKE_BALL, 4 ALARM. PWR_STS.SRC is the source of the last EVENT
wake. -/
def State.wakeUp (s : State) (cause src : Nat) : State :=
  let p := s.power
  if p = 2 ∨ p = 3 then
    let s := (s.setFld SYS.PWR_STS_CAUSE cause).when (cause == 1) fun s => s.setFld SYS.PWR_STS_SRC src
    let s := (s.powerTo 0).fire 250
    let s := s.onSys fun x => { x with woke := true, phase := if p = 3 then 3 else x.phase }
    -- the tide of P2 ends early; after P3 the first boundary falls 2995 µs from here
    if p = 3 then s.fogResume.edgeStart (s.now + 2995000) else s.edgeShort
  else s

/-- A latched source or SYS.LTR wakes the device (R496). -/
def execWakeCause (t : Nat) (s : State) : Host.Outcome State Fault Refusal :=
  done (
    let s := s.atTime t
    match s.wakeSource with
    | some n => s.wakeUp 1 n
    | none => if s.regN SYS.LTR < exitUs s.power then s.wakeUp 2 0 else s)

/-- The lanes are back after P3: lanes with a double-bit error are REMOVED, the monitors resume without a release (R494). -/
def execP3ExitComplete (bad : BitVec 3) (t : Nat) (s : State) : Host.Outcome State Fault Refusal :=
  done (
    let s := s.atTime t
    if s.sys.phase ≠ 3 ∨ s.now < s.gal.edge.due then s
    else
      let s := s.onSys fun x => { x with phase := 2 }
      let s := s.forAll [0, 1, 2] fun l s =>
        if bitB bad.toNat l && s.votes l then (s.setLaneState l 3).laneCause l 4 else s
      (s.forAll [0, 1, 2] fun l s => s.gatesShow l).linkHeard.safeShow.fieldSettle)

/-! ### Clock, VBAT and log (R503 to R505) -/

/-- The keeper contents are lost (R503). -/
def State.keeperLose (s : State) : State :=
  let s := s.rtcSet 0
  let s := s.forAll (upto 1024) fun w s => s.setN (KEEPER.LOG w) 0
  let s := (((s.setN KEEPER.LOG_STS 0).setN KEEPER.CFG 0).setN KEEPER.ALARM_LO 0).setN KEEPER.ALARM_HI 0
  let s := (s.stick KEEPER.STS_VBAT_LOST).setFlag KEEPER.STS_RTC_VALID false
  let s := s.onKeep fun k => { k with nrec := 0, lost := false, syncAt := none }
  let s := s.onPos fun p => { p with ckpt := [] }
  let s := s.forAll [0, 1] fun d s => s.onDr d fun x => { x with slot := { x.slot with valid := false } }
  (s.ckptShow.rtcShow).logHw 2 0

/-- VBAT as measured, with VBAT_OK and VBAT_LOW. -/
def State.vbatShow (s : State) (mv : Nat) : State :=
  let s := s.setFld KEEPER.STS_VBAT mv
  let s := s.setFlag KEEPER.STS_VBAT_OK (decide (2000 ≤ mv))
  let low := decide (mv < 2200)
  let rise := low && !s.flag KEEPER.STS_VBAT_LOW
  (s.setFlag KEEPER.STS_VBAT_LOW low).when rise fun s => s.fire 252

/-- VBAT falls below 2.0 V; `io` tells whether VDD_IO keeps the island running (R503, R509, R518). -/
def execVbatLoss (mv : BitVec 16) (io : Bool) (t : Nat) (s : State) : Host.Outcome State Fault Refusal :=
  done (
    let s := s.atTime t
    if 2000 ≤ mv.toNat then s
    else
      let s := s.vbatShow mv.toNat
      if io && s.power != 4 then s.keeperLose else s.onKeep fun k => { k with lost := true })

/-- VBAT falls below 2.2 V. -/
def execVbatLow (mv : BitVec 16) (t : Nat) (s : State) : Host.Outcome State Fault Refusal :=
  done (
    let s := s.atTime t
    if mv.toNat < 2200 ∧ 2000 ≤ mv.toNat then s.vbatShow mv.toNat else s)

/-- VBAT rises back over a threshold. -/
def execVbatReturn (mv : BitVec 16) (t : Nat) (s : State) : Host.Outcome State Fault Refusal :=
  done (
    let s := s.atTime t
    if 2000 ≤ mv.toNat then s.vbatShow mv.toNat else s)

/-! ### The fog signal (R506, R507) -/

def State.fogOn (s : State) : Bool := s.flag KEEPER.STS_FOG_ARMED && !s.flag KEEPER.STS_FOG_BITE

/-- ns since the last feed. -/
def State.fogAge (s : State) : Nat := if s.keep.paused then 0 else (s.freeRun - s.keep.fogAt).toNat

/-- FOG_STS.LEFT. -/
def State.fogShow (s : State) : State :=
  let left := if s.fogOn then s.fld KEEPER.FOG_CFG_T - s.fogAge / 1000000 else 0
  s.setFld KEEPER.FOG_STS_LEFT left

/-- The fog signal bites; the second answer asks for the reset of ACT RESET. -/
def State.fogBite (s : State) : State × Bool :=
  let s := ((s.stick KEEPER.STS_FOG_BITE).logHw 5 0).fire 253
  if s.fld KEEPER.FOG_CFG_ACT = 1 then (s, true)
  else ((s.onKeep fun k => { k with bite := true }).fogShow.faultShow, false)

/-- A feed applies; the second answer is that of a bite. -/
def State.fogFeed (s : State) (key : Nat) : State × Bool :=
  if !s.fogOn then (s, false)
  else
    let want := match s.keep.fogKey with
      | none => 0x5AC3
      | some k => 65535 - k
    if key ≠ want ∨ s.fogAge < s.fld KEEPER.FOG_CFG_MIN * 1000000 then s.fogBite
    else
      let s := s.onKeep fun k => { k with fogKey := some key, fogAt := s.freeRun, half := false }
      ((s.wrapAdd KEEPER.FOG_STS_FEEDS 1).fogShow, false)

/-- Half of T has passed without a feed (R510). -/
def execFogHalfT (t : Nat) (s : State) : Host.Outcome State Fault Refusal :=
  done (
    let s := s.atTime t
    let half := s.fld KEEPER.FOG_CFG_T * 500000
    if s.fogOn && !s.keep.paused && !s.keep.half && decide (half ≤ s.fogAge) then
      (s.onKeep fun k => { k with half := true }).fogShow.fire 253
    else s)

/-! ### Commits of SYS and KEEPER -/

def sysCheck (s : State) (o : Nat) (m v : Word) : Nat :=
  if o = 0xC then (if tch m 0 4 then s.modeCheck (v.toNat % 16) else 0)
  else if o = 0x14 then (if inRanges m v [(0, 8, 4, 100)] then 0 else cRange)
  else if o = 0x50 then
    let go := wbit (v &&& m) 31
    let op := bitsOf v.toNat 28 3
    firstCause [(go && s.fld SYS.IMG_STS_STATE == 1, cState), ((go || tch m 28 3) && decide (op = 0 ∨ 3 < op), cRange)]
  else 0

/-- The effect of a register item in SYS; for MODE the mode before is taken from the old word, which the store has replaced. -/
def sysApply (s : State) (o : Nat) (m old new cmd : Word) : State :=
  if o = 8 then
    match s.host.ltr with
    | some h => s.setN SYS.LTR (min new.toNat h)
    | none => s
  else if o = 0xC then
    let a := old.toNat % 16
    let b := new.toNat % 16
    if a = b ∨ !tch m 0 4 then s else (s.setFld SYS.MODE_MODE a).modeShift b 0
  else if o = 0x50 ∧ wbit cmd 31 then
    let s := (s.setFld SYS.IMG_STS_STATE 1).setFld SYS.IMG_STS_CAUSE 0
    s.onSys fun x => { x with img := some (bitsOf cmd.toNat 28 3, bitsOf new.toNat 0 22 ||| bitsOf cmd.toNat 0 22) }
  else s

def keeperCheck (s : State) (o : Nat) (m v : Word) : Nat :=
  if o = 0x30 then
    let x := v.toNat
    let en := wbit v 31
    let t := bitsOf x 0 12
    let mn := bitsOf x 16 12
    if s.flag KEEPER.STS_FOG_ARMED then (if v = s.reg KEEPER.FOG_CFG then 0 else cState)
    else firstCause
      [(!inRanges m v [(29, 2, 0, 1)], cRange), (en && t == 0, cRange), ((en || t != 0) && decide (t ≤ mn), cRange),
       (en && !s.flag KEEPER.STS_VBAT_OK, cState)]
  else 0

/-- The effect of a register item in KEEPER; the second answer asks for the reset of a fog bite. -/
def keeperApply (s : State) (o : Nat) (m _old new cmd : Word) : State × Bool :=
  if o = 8 then
    let s := s.when (wbit cmd 1) fun s => (s.setFlag KEEPER.STS_VBAT_LOST false).setFlag KEEPER.STS_STUCK false
    let s := s.when (wbit cmd 0) fun s =>
      ((s.rtcSet ((s.regN KEEPER.RTC_SET_LO + 2 ^ 32 * (s.regN KEEPER.RTC_SET_HI % 65536)) * 1000000000)).setFlag
        KEEPER.STS_RTC_VALID true).rtcShow
    (s, false)
  else if o = 0x30 then
    if wbit new 31 && !s.flag KEEPER.STS_FOG_ARMED then
      (((s.setFlag KEEPER.STS_FOG_ARMED true).onKeep fun k => { k with fogKey := none, fogAt := s.freeRun, half := false }).fogShow, false)
    else (s, false)
  else if o = 0x34 then (if tch m 0 16 then s.fogFeed (cmd.toNat % 65536) else (s, false))
  else if o = 0x44 then (s.logRec 0xF 0 cmd.toNat false, false)
  else (s, false)

end Sys2Proof.Machine
end

