-- ==== Sys2Proof/Machine/Boot.lean ====
section
/-! DEFINITION. Images and boot (R102 to R110), start-up (R497, R499), resets (R500, R501, R516) and the image writer (R508). -/

namespace Sys2Proof.Machine

/-! ### Images -/

/-- Whether a TIDE_CFG word is legal and leaves a program its budget of `wcet` ns (R29, R32, R101). -/
def tideCfgOk (w wcet : Nat) : Bool :=
  let p := bitsOf w 0 12
  let g := bitsOf w 16 7
  decide (w = p + 65536 * g) && decide (250 ≤ p) && decide (p ≤ 4000) && decide (10 ≤ g) && decide (g ≤ 100) &&
    decide (wcet + (g + 5) * 1000 ≤ p * 1000)

/-- A field of the header of a bank. -/
def State.hdr (s : State) (bank o n : Nat) : Nat := rdLE s.mram (imgBase bank + o) n

/-- Whether a range of the bank lies in the body (R104, R105). An empty range has to begin in it too (assumption 27). -/
def inBody (off len body : Nat) : Bool := decide (len ≤ 0x40000) && decide (0x100 ≤ off) && decide (off + len ≤ 0x100 + body)

/-- The check of a bank (R107). -/
def State.bankOk (s : State) (bank : Nat) : Bool :=
  let h := s.hdr bank
  let b := imgBase bank
  let zero := (rdBytes s.mram (b + 0x38) 8 ++ rdBytes s.mram (b + 0xA0) 96).all fun x => x == 0
  let var := h 6 1
  let k := h 0x10 4
  let ks := rdLE s.mram 8 4
  let len := h 0x24 4
  let key := fun (o : Nat) => beNat (rdBytes s.mram (0x40 + 64 * k + o) 32)
  let sig := fun (o : Nat) => beNat (rdBytes s.mram (b + 0x60 + o) 32)
  h 0 4 == 0x4D495144 && h 4 2 == 1 && zero && decide (h 7 1 < 2) && (var == 0x43 || (var == 0x47 && !s.straps.variantC)) &&
    decide (k < 4) && bitB ks k && !bitB ks (8 + k) && decide (len ≤ 0x3FFF00) &&
    h 0x18 4 % 4 == 0 && inBody (h 0x14 4) (h 0x18 4) len && inBody (h 0x1C 4) (h 0x20 4) len &&
    h 0x28 4 % 4 == 0 && decide (h 0x28 4 < 0x40000) && h 0x2C 4 % 4 == 0 && decide (h 0x2C 4 < 0x40000) &&
    decide (rdLE s.mram 4 4 ≤ h 8 4) && tideCfgOk (h 0x34 4) (h 0x30 4) &&
    sha256 (rdBytes s.mram (b + 0x100) len) == beNat (rdBytes s.mram (b + 0x40) 32) &&
    ecdsaVerify (key 0) (key 32) (sig 0) (sig 32) (sha256 (rdBytes s.mram b 0x60))

/-- The contents of a lane's RAM as an image gives them: `len` bytes of the bank from `off` on, the rest 0. -/
def State.imgRam (s : State) (bank off len : Nat) : List Host.Cell := wrBytes [] 0 (rdBytes s.mram (imgBase bank + off) len)

/-- A lane's RAMs are loaded and its core is reset. -/
def State.laneLoad (s : State) (bank l : Nat) (dram : Bool) : State :=
  let h := s.hdr bank
  s.onLane l fun x =>
    { LaneSt.reset with
      iram := s.imgRam bank (h 0x14 4) (h 0x18 4)
      dram := if dram then s.imgRam bank (h 0x1C 4) (h 0x20 4) else []
      clkLost := x.clkLost, railLost := x.railLost, railHeld := x.railHeld, tally := x.tally }

/-- An accepted bank is loaded (R108). -/
def State.bankLoad (s : State) (bank : Nat) (fallback : Bool) : State :=
  let h := s.hdr bank
  let s := { s with img := ⟨true, bank, h 0x28 4, h 0x2C 4, h 0x30 4, h 8 4, bitB (h 7 1) 0⟩ }
  let s := s.forAll [0, 1, 2] fun l s => s.laneLoad bank l true
  let s := s.setN GALLERY.TIDE_CFG (h 0x34 4)
  let s := (s.setFld SYS.RST_STS_BANK bank).setFlag SYS.RST_STS_FALLBACK fallback
  s.setFld SYS.IMG_STS_BANK (1 - bank)

/-- While an image with LOCKED runs, JTAG debug is disabled; boundary scan is not (R112). -/
def State.jtagOff (s : State) : Bool := s.img.valid && s.img.locked

/-- Boot (R106 to R109), with ACTIVE taken modulo 2 (assumption 27): whether the calibration area passes its CRC (R527), and the lanes whose read-back differs. -/
def execBoot (cal : Bool) (differs : BitVec 3) (t : Nat) (s : State) : Host.Outcome State Fault Refusal :=
  done (
    let s := s.atTime t
    if s.sys.phase ≠ 1 ∨ s.sys.booted then s
    else
      let s := ((s.onSys fun x => { x with booted := true }).mapLoad s.bankPick).ckptShow
      let sel := s.straps.bootSel
      let first := if sel = 0 then rdLE s.mram 0 4 % 2 else sel - 1
      -- a calibration area that fails its CRC makes every start a failed boot (R527)
      if sel = 3 then (if cal then s.darkEntry 1 else (s.logHw 7 0).darkEntry 7)
      else
        let ok := fun b => cal && s.bankOk b
        let s : State :=
          if ok first then s.bankLoad first false
          else if sel = 0 then
            let s := s.logHw 6 0
            if ok (1 - first) then s.bankLoad (1 - first) true else (s.logHw 7 0).darkEntry 7
          else (s.logHw 7 0).darkEntry 7
        if !s.img.valid then s
        else s.forAll [0, 1, 2] fun l s =>
          if bitB differs.toNat l then
            ((s.setLaneState l 3).laneCause l 8).setFld ⟨SYS.RST_STS, 16 + l, 1⟩ 1
          else s)

/-! ### Start-up and reset -/

/-- Registers of the keeper island whose fields are marked keep (R14). -/
def keepReg (a : Nat) : Bool :=
  a == KEEPER.CFG || a == KEEPER.RTC_SEC_LO || a == KEEPER.RTC_SEC_HI || a == KEEPER.RTC_SUB || a == KEEPER.ALARM_LO ||
    a == KEEPER.ALARM_HI || a == KEEPER.LOG_STS || decide (0x40131000 ≤ a ∧ a < 0x40132000)

/-- The islands but the keeper are reset (R14, R500); with `p4` the keeper island keeps all it holds (R506). -/
def State.deviceReset (s : State) (p4 : Bool) : State :=
  let keepSts := s.regN KEEPER.STS
  let regs := s.regs.filter fun r => keepReg r.1 || (p4 && decide (0x40130000 ≤ r.1 ∧ r.1 < 0x40132000))
  let d := s.door.doors.map fun x => (x.1, { DoorSt.reset with slot := x.2.slot, pin := x.2.pin })
  let n : State :=
    { State.reset with
      pending := s.pending, now := s.now, osc := s.osc, stepped := s.stepped, regs := regs, mram := s.mram, straps := s.straps,
      pos := { PosSt.reset with ckpt := s.pos.ckpt }
      door := { DoorsSt.reset with doors := d.filter fun x => x.2 != DoorSt.reset }
      field := { FieldSt.reset with ball := s.field.ball, temp := s.field.temp }
      keep := if p4 then s.keep else { KeepSt.reset with rtcOff := s.keep.rtcOff, syncAt := s.keep.syncAt, nrec := s.keep.nrec, lost := s.keep.lost }
      sys := { SysSt.reset with phase := 0, stuck := s.sys.stuck, nrstAt := s.sys.nrstAt, supplyOut := s.sys.supplyOut }
      freeCtr := s.freeCtr }
  let sts := if p4 then keepSts else setBits keepSts 26 2 0
  let n := n.setN KEEPER.STS sts
  let n := n.forAll [0, 1, 2] fun l n => n.onLane l fun x => { x with clkLost := (s.lane l).clkLost, railLost := (s.lane l).railLost, railHeld := (s.lane l).railLost }
  ((n.setFld SYS.RST_STS_SEL s.straps.bootSel).setFlag HOSTIF.HSTS_PROV (s.straps.bootSel == 3)).setFld RANGE.STS_BASE s.straps.base

/-- Straps are latched: BOOT_SEL and the base claim (R106, R455). -/
def State.strap (s : State) (sel base : Nat) : State := { s with straps := { s.straps with bootSel := sel, base := base } }

/-- Start-up begins (R497): cause 1 POWER_ON, 2 NRST, 3 FOG, 4 P4_WAKE, with its log record, if it has one. -/
def State.startUp (s : State) (cause log detail : Nat) : State :=
  let s := (s.setFld SYS.RST_STS_CAUSE cause).setFlag SYS.RST_STS_STUCK s.sys.stuck
  let s := s.onSys fun x => { x with phase := 1, start := s.now, startFree := s.freeRun, stuck := false, nrstAt := none, up := false, pinFault := true, booted := false }
  let s := if s.keep.lost then s.keeperLose else s
  (if log = 0 then s else s.logHw log detail).rtcShow.ckptShow

/-- The supplies are within range and the power-on reset releases (R516). While NRST is low the device stays in reset (R500). -/
def execPowerOn (sel : BitVec 2) (base : BitVec 7) (t : Nat) (s : State) : Host.Outcome State Fault Refusal :=
  done (
    let s := (s.atTime t).onSys fun x => { x with supplyOut := false }
    let s := (s.strap sel.toNat base.toNat).deviceReset false
    if s.sys.nrstAt.isSome then s.faultShow else (s.startUp 1 1 0).faultShow)

/-- Whether the keeper has stopped in P4 with VBAT: only a return of power starts the device (R509). -/
def State.keeperDead (s : State) : Bool := s.power == 4 && s.keep.lost

/-- NRST has been low for 10 µs (R500). -/
def execNrstAssert (t : Nat) (s : State) : Host.Outcome State Fault Refusal :=
  done (
    let s := s.atTime t
    let s := s.onSys fun x => { x with nrstAt := some s.now }
    if s.keeperDead then s else (s.deviceReset false).faultShow)

/-- NRST rises (R497, R500): start-up begins, unless a supply is still out of range (R516). -/
def execNrstRelease (sel : BitVec 2) (base : BitVec 7) (t : Nat) (s : State) : Host.Outcome State Fault Refusal :=
  done (
    let s := s.atTime t
    if s.sys.supplyOut ∨ s.keeperDead then s.onSys fun x => { x with nrstAt := none }
    else if s.sys.phase = 0 ∧ s.sys.nrstAt.isSome then
      (((s.strap sel.toNat base.toNat).deviceReset false).startUp 2 3 0).faultShow
    else s)

/-- NRST has stayed low for more than 10 s (R501), of which the acceptance has taken 10 µs. -/
def execResetStuck (t : Nat) (s : State) : Host.Outcome State Fault Refusal :=
  done (
    let s := s.atTime t
    match s.sys.nrstAt with
    | none => s
    | some a =>
      if s.sys.phase = 0 ∧ !s.sys.stuck ∧ a + 9999990000 < s.now then
        ((s.onSys fun x => { x with stuck := true }).stick KEEPER.STS_STUCK).logHw 4 0
      else s)

/-- RST_OUT_N is low (R501). -/
def State.rstOutLow (s : State) : Bool := s.sys.phase == 0 && s.sys.stuck

/-- A supply of the device is out of range for more than 5 µs: a reset as by NRST, until POWER_ON (R516). With VBAT below 2.0 V the keeper island
stops with VDD_IO, and its contents are lost at the next start (R503, R518). -/
def execSupplyFall (o : SupplyOut) (s : State) : Host.Outcome State Fault Refusal :=
  done (
    let s := s.atTime o.t
    let s := s.onSys fun x => { x with supplyOut := true }
    let s := s.when (o.io && !s.flag KEEPER.STS_VBAT_OK) fun s => s.onKeep fun k => { k with lost := true }
    (s.deviceReset false).faultShow)

/-- A lane's rail is out of range: the lane is held in reset (R516). -/
def execLaneRailFall (l : Lane) (t : Nat) (s : State) : Host.Outcome State Fault Refusal :=
  done (
    let s := (s.atTime t).onLane l fun x => { x with railLost := true, railHeld := true, run := false, wait := none }
    ((((s.copyFault l.val).monStop l.val).gatesShow l.val).safeShow).fieldSettle)

/-- Whether a lane's power ramp of start-up has not begun yet (R497). -/
def State.beforeRamp (s : State) (l : Nat) : Bool :=
  s.sys.phase == 0 || (s.sys.phase == 1 && decide (s.now < s.sys.start + 2600000 + 200000 * l))

/-- The rail returns; the lane rejoins by relief. A rail that is back before the lane's ramp of start-up has held nothing (R516). -/
def execLaneRailReturn (l : Lane) (t : Nat) (s : State) : Host.Outcome State Fault Refusal :=
  done (
    let s := s.atTime t
    s.onLane l fun x => { x with railLost := false, railHeld := x.railHeld && !s.beforeRamp l })

/-- A lane loses its clock: it stops and presents no record (R26). -/
def execLaneClockLoss (l : Lane) (s : State) : Host.Outcome State Fault Refusal :=
  done (
    let s := s.onLane l fun x => { x with clkLost := true, run := false, wait := none }
    ((((s.copyFault l.val).monStop l.val).gatesShow l.val).safeShow).fieldSettle)

/-- The mode of the first boundary (R486, R497, R499): DARK when two lanes failed the self-test or one voting lane alone is left (R131), each cause
with its record (R489), else WAKE. -/
def State.firstMode (s : State) (out : Nat) : State :=
  let alone := decide (s.voters.length ≤ 1)
  let s := s.when (decide (2 ≤ out)) fun s => s.darkEntry 1
  if alone then s.darkEntry 4 else if s.mode = 0 then s else s.modeEnter 2 1

/-- The start-up self-test ends: lanes that failed it, and the start of device time (R417, R497, R499). -/
def execStartupSelftestComplete (fails : BitVec 3) (t : Nat) (s : State) : Host.Outcome State Fault Refusal :=
  done (
    let s := s.atTime t
    if s.sys.phase ≠ 1 ∨ !s.sys.booted then s
    else
      let sec := if s.flag KEEPER.STS_RTC_VALID then s.rtcSec else 0
      let new := sec * 1000000000
      let s := ((s.dieSync 0).dieSync 1).shiftTimes ((new : Int) - s.now)
      let s := { s with stepped := s.stepped + ((new : Int) - s.now), now := new, osc := new * 2 ^ 32 }
      let s := s.setReg TIME.RATE (s.reg TIME.RATE_INIT)
      let s := s.onSys fun x => { x with phase := 2 }
      let s := s.forAll [0, 1, 2] fun l s =>
        if bitB fails.toNat l || (s.lane l).railHeld then
          ((s.setLaneState l 3).laneCause l 7).setFld ⟨SYS.RST_STS, 16 + l, 1⟩ 1
        else s
      let out := [0, 1, 2].countP fun l => bitB fails.toNat l || (s.lane l).railHeld
      let s := { s with tests := { s.tests with passAt := new, scrubAt := new, hashAt := new } }
      let s := ((s.forAll [0, 1, 2] fun l s => s.charOn l).edgeStart new).onEdge fun e => { e with voted := s.voters.length }
      s.firstMode out)

/-- The WAKE ball or the alarm in P4: start-up, then WAKE (R496). BOOT_SEL and the base claim are latched as this start begins, as
R497's table says of every start: the model's choice beside R106, which samples BOOT_SEL only while NRST is low (assumption 132). -/
def State.p4Wake (s : State) (x : Strapped) (cause : Nat) : State :=
  if s.keep.lost then s
  else
    let s := (((s.strap x.sel.toNat x.base.toNat).deviceReset true).setFld SYS.PWR_STS_CAUSE cause).fogResume
    (s.startUp 4 0xD cause).faultShow

def execWakeBall (x : Strapped) (s : State) : Host.Outcome State Fault Refusal :=
  done (
    let s := s.atTime x.t
    if s.power = 4 then s.p4Wake x 3 else if s.flag SYS.PWR_CFG_WAKE_BALL then s.wakeUp 3 0 else s)

/-- The clock is at or past ALARM (R496). -/
def execAlarm (x : Strapped) (s : State) : Host.Outcome State Fault Refusal :=
  done (
    let s := s.atTime x.t
    let at' := s.regN KEEPER.ALARM_LO + 2 ^ 32 * (s.regN KEEPER.ALARM_HI % 65536)
    if s.flag KEEPER.CFG_ALARM_EN && decide (at' ≤ s.rtcSec) then
      if s.power = 4 then s.p4Wake x 4 else s.wakeUp 4 0
    else s)

/-- The reset of a fog bite (R507). -/
def State.fogReset (s : State) : State :=
  let s := s.deviceReset false
  let s := s.startUp 3 0 0
  (s.onSys fun x => { x with start := s.now + 100000 }).faultShow

/-- What a fog bite asks for. -/
def fogAct (p : State × Bool) : State := if p.2 then p.1.fogReset else p.1

/-- T has passed without a feed (R506, R507); a feed that applies at that instant counts (R509). -/
def execFogBite (t : Nat) (s : State) : Host.Outcome State Fault Refusal :=
  done (
    let s := s.atTime t
    if s.fogOn && !s.keep.paused && decide (s.fld KEEPER.FOG_CFG_T * 1000000 ≤ s.fogAge) &&
        !(s.fogAge == s.fld KEEPER.FOG_CFG_T * 1000000 && s.gal.edge.due == s.now) then fogAct s.fogBite else s)

/-! ### The image writer (R508) -/

def State.imgDone (s : State) (st cause : Nat) : State :=
  (((s.setFld SYS.IMG_STS_STATE st).setFld SYS.IMG_STS_CAUSE cause).onSys fun x => { x with img := none }).fire 251

/-- The operation ends; `ok` tells whether the MRAM took a write. -/
def execImgComplete (ok : Bool) (t : Through Nat) (s : State) : Host.Outcome State Fault Refusal :=
  done (
    let s := s.atTime t.what
    match s.sys.img with
    | none => s
    | some (op, off) =>
      let bank := s.fld SYS.IMG_STS_BANK
      let src := s.fld SYS.IMG_SRC_SRC
      if op = 1 then
        let bad := off % 256 ≠ 0 ∨ src % 256 ≠ 0 ∨ src < 0x100000
        let s := s.setFlag SYS.IMG_STS_CHECKED false
        if bad then s.imgDone 3 1
        else if !ok then s.imgDone 3 2
        else
          let r := s.hwEcc 0 t.ecc (rdBytes s.sram src 256)
          { r.2 with mram := wrBytes s.mram (imgBase bank + blockOff off) r.1 }.imgDone 2 0
      else if op = 2 then
        if s.bankOk bank then (s.setFlag SYS.IMG_STS_CHECKED true).imgDone 2 0
        else (s.setFlag SYS.IMG_STS_CHECKED false).imgDone 3 3
      else if !s.flag SYS.IMG_STS_CHECKED then s.imgDone 3 4
      else if !ok then s.imgDone 3 2
      else ({ s with mram := wrLE s.mram 0 4 bank }.logHw 0xE 0).imgDone 2 0)

end Sys2Proof.Machine
end

