-- ==== Sys2Proof/Machine/DoorCommit.lean ====
section
/-! DEFINITION. Commits to DOOR: what is refused (R266, R267, R270, R276, R283, R289, R297, R301, R302 and the register tables)
and what is done. -/

namespace Sys2Proof.Machine

/-- Whether the edit table of a door is non-decreasing (R283). -/
def State.tblRises (s : State) (d : Nat) : Bool :=
  (upto 1023).all fun i => decide (s.regN (DOOR.STEP_TBL d i) ≤ s.regN (DOOR.STEP_TBL d (i + 1)))

/-- Whether the ADC limit that tripped the door is still exceeded. -/
def State.tripLimitNow (s : State) (d : Nat) : Bool :=
  s.fld (DOOR.DOOR_STS_TRIP_CAUSE d) == 2 && s.adcOver (s.fld (DOOR.DOOR_STS_TRIP_CH d))

/-- The check of a register item in DOOR. -/
def doorCheck (s : State) (o : Nat) (m v : Word) : Nat :=
  let x := v.toNat
  let rng := fun l => if inRanges m v l then 0 else cRange
  if o < 0x200 then
    let d := o / 0x100
    let r := o % 0x100
    let c := v &&& m
    if r = 0x00 then rng [(29, 2, 0, 2)]
    else if r = 0x04 then rng [(16, 14, 5000, 12500), (0, 10, 8, 800)]
    else if r = 0x08 then rng [(24, 4, 0, 5), (0, 8, 1, 255)]
    else if r = 0x0C then rng [(0, 20, 4, 1048575)]
    else if r = 0x28 then rng [(0, 32, 0, 0x7FFFFFFF)]
    else if r = 0x34 then rng [(24, 2, 0, 2), (16, 6, 0, 47), (0, 8, 1, 255)]
    else if r = 0x44 then rng [(0, 8, 1, 255)]
    else if r = 0x4C then rng [(24, 4, 1, 12)]
    else if r = 0x58 then
      if wbit c 0 && (s.flag (DOOR.DOOR_STS_TRIP_NOW d) || s.tripLimitNow d) then cState else 0
    else 0
  else if o = 0x900 then (if (upto 16).all fun n => !tch m (2 * n) 2 || bitsOf x (2 * n) 2 != 3 then 0 else cRange)
  else if o = 0x940 then
    let k := bitsOf x 28 2
    let t := bitsOf x 24 4
    firstCause [((tch m 24 8 || wbit (v &&& m) 31) && !((k == 1 && decide (t ≤ 1)) || (k == 2 && decide (t ≤ 11))), cRange),
      (wbit (v &&& m) 31 && s.fld DOOR.PROF_STS_STATE == 1, cState)]
  else 0

/-- What a group of `items` leaves in DOOR. -/
def doorGroup (s0 s : State) (items : List Item) : Nat :=
  let any := [0, 1].any
  let moved := fun (k : Nat) => s0.reg k != s.reg k
  let movedF := fun (f : Fld) => s0.fld f != s.fld f
  let on := any fun d => moved (DOOR.DRV_CFG d) && s.flag (DOOR.DRV_CFG_EN d) && !s0.flag (DOOR.DRV_CFG_EN d) &&
    (s.fld (DOOR.ELEC1_CUR_FS d) == 0 || s.fld (DOOR.ELEC1_VBUS_FS d) == 0)
  let sync := any fun d => (moved (DOOR.DRV_CFG d) || moved (DOOR.PWM_CFG d)) && s.flag (DOOR.DRV_CFG_SYNC d) &&
    s.fld (DOOR.PWM_CFG_PER d) != 6250 && s.fld (DOOR.PWM_CFG_PER d) != 12500
  let la := any fun d => (moved (DOOR.DRV_CFG d) || moved (DOOR.OBS_CFG d)) && s.flag (DOOR.OBS_CFG_LA_EN d) &&
    s.fld (DOOR.DRV_CFG_MODE d) != 2
  let learn := any fun d => (moved (DOOR.FR_CFG d) || moved (DOOR.STROKE d)) && s.flag (DOOR.FR_CFG_LEARN d) &&
    s.regN (DOOR.STROKE d) == 0
  let enc := any fun d => wrote items (DOOR.DRV_CFG_MODE d) false && s.fld (DOOR.DRV_CFG_MODE d) == 1 &&
    !s.flag (POS.ENC_CFG_EN (s.fld (DOOR.ANG_CFG_SRC d)))
  let swap := any fun d => wrote items (DOOR.DOOR_CMD_TBL_SWAP d) true && !s.tblRises d
  let live := any fun d => s0.flag (DOOR.DRV_CFG_EN d) && s.flag (DOOR.DRV_CFG_EN d) &&
    (movedF (DOOR.DRV_CFG_MODE d) || movedF (DOOR.DRV_CFG_SYNC d) || moved (DOOR.PWM_CFG d) || moved (DOOR.ANG_CFG d) ||
      moved (DOOR.ANG_CPR d) || moved (DOOR.SENSE_CFG d))
  if on || sync || la || learn || swap then cRange else if enc || live then cState else 0

/-- DRV_CFG is written: EN that falls commands a quick stop of the axis (R297), and the trip input is judged as TRIP_EN and TRIP_POL now
are (R270). The drive follows at the tick. -/
def State.drvApply (s : State) (d : Nat) (old new : Word) : State :=
  (s.when (wbit old 31 && !wbit new 31) fun s => s.axPost (d + 1) .qstop).tripPin d

/-- The effect of a register item in DOOR. -/
def doorApply (s : State) (o : Nat) (m old new cmd : Word) : State :=
  if o < 0x200 then
    let d := o / 0x100
    let r := o % 0x100
    if r = 0 then s.drvApply d old new
    else if r = 0x58 then
      let s := s.when (wbit cmd 4) fun s => s.onDr d fun x => { x with swap := true }
      let s := s.when (wbit cmd 3) fun s => s.onDr d fun x => { x with frClr := true, frPre := [] }
      let s := s.when (wbit cmd 2) fun s => s.setFld ⟨DOOR.DOOR_FLAGS d, 0, 6⟩ 0
      let s := s.when (wbit cmd 1) fun s => s.setFld (DOOR.DOOR_STS_OBS_CAUSE d) 0
      s.when (wbit cmd 0) fun s => s.setFlag (DOOR.DOOR_STS_TRIP d) false
    else s
  else if o = 0x800 then
    s.forAll (upto 16) fun n s => s.adcShow n
  else if o = 0x808 then s.when (wbit cmd 0) fun s => s.setFld DOOR.ADC_STS_SAT 0
  else if o = 0x940 then
    s.when (wbit cmd 31) fun s =>
      let c := cmd.toNat
      s.profGo (wbit cmd 30) (bitsOf c 28 2) (bitsOf c 24 4) (bitsOf c 0 5)
  else if 0x3000 ≤ o ∧ o < 0x4000 then
    let d := (o - 0x3000) / 0x800
    let i := (o - 0x3000) % 0x800 / 4
    let base := ((s.dr d).frPre.find? fun p => p.1 == i).elim old (·.2)
    let v := (base &&& ~~~m) ||| (new &&& m)
    (s.setReg (DOOR.FRIC d (i / 256) (i % 256)) old).onDr d fun x => { x with frPre := (x.frPre.filter fun p => p.1 != i) ++ [(i, v)] }
  else s

end Sys2Proof.Machine
end

