-- ==== Sys2Proof/Machine/Group.lean ====
section
/-! DEFINITION. Commit group instructions (R79 to R83), ring instructions (R86 to R88) and the record they build (R121). -/

namespace Sys2Proof.Machine

/-- A trap of the instruction that runs, with its cycle count. -/
def State.laneTrap (s : State) (l tc : Nat) (tv : Word) (c : Nat) : State :=
  s.onLane l fun x => x.trap s.img.trapvec tc tv c

/-- Opens a group (R79); a group already open traps with GROUP (R80), a 17th with STAGE_FULL (R82). -/
def execTbegin (l : Lane) (s : State) : Host.Outcome State Fault Refusal :=
  done (s.runLane l fun x s =>
    if x.stage.opened.isSome then s.laneTrap l tcGroup 0 2
    else if 16 ≤ x.stage.groups then s.laneTrap l tcStageFull 0 2
    else s.setLane l ({ x with
        stage := { x.stage with opened := some [], groups := x.stage.groups + 1 }
        sw := x.sw ||| 0x80#32 }.next 2))

/-- Closes the open group into the record with its CLOSE element: GRP := 0, GRPN increments (R79, R121). -/
def LaneSt.closeGroup (x : LaneSt) : LaneSt :=
  match x.stage.opened with
  | none => x
  | some items =>
    let x := x.elem 6 0 items.length 0 0
    { x with
      stage := { x.stage with opened := none, closed := x.stage.closed ++ [(x.stage.groups - 1, items)] }
      sw := BitVec.ofNat 32 (setBits (x.sw &&& ~~~0x80#32).toNat 8 8 (x.stage.closed.length + 1)) }

def execTcommit (l : Lane) (s : State) : Host.Outcome State Fault Refusal :=
  done (s.runLane l fun x s =>
    if x.stage.opened.isNone then s.laneTrap l tcGroup 0 4 else s.setLane l (x.closeGroup.next 4))

def execTabort (l : Lane) (s : State) : Host.Outcome State Fault Refusal :=
  done (s.runLane l fun x s =>
    if x.stage.opened.isNone then s.laneTrap l tcGroup 0 2 else s.setLane l (x.abortGroup.next 2))

/-- Presents the record with its TRAILER element and ends the lane's tide (R79, R121). -/
def LaneSt.present (x : LaneSt) (abortE : Bool) : LaneSt :=
  let a := x.tc + 16 * b2n abortE + 256 * min x.stage.bells 63 + 65536 * x.stage.folds
    + 16777216 * x.stage.closed.length
  let x := x.elem 9 0 a (if x.tc = 0 then 0 else x.tp) x.stage.items
  { x.next 4 with run := false, stage := { x.stage with done := true, abortE := abortE } }

/-- Stages a masked word write: ga, gv, gm (R81). The order ALIGN, MAP, GROUP, STAGE_FULL of its checks is the model's choice (assumption
25). -/
def execTstage (l : Lane) (ga gv gm : GReg) (s : State) : Host.Outcome State Fault Refusal :=
  done (s.runLane l fun x s =>
    let a := (x.rg ga.val).toNat
    if a % 4 ≠ 0 then s.laneTrap l tcAlign (BitVec.ofNat 32 a) 2
    else if !s.stageable a then s.laneTrap l tcMap (BitVec.ofNat 32 a) 2
    else if x.stage.opened.isNone then s.laneTrap l tcGroup 0 2
    else if 1024 ≤ x.stage.items then s.laneTrap l tcStageFull 0 2
    else s.setLane l ((x.stageWord a (x.rg gv.val) (x.rg gm.val)).next 2))

/-! ### Ring instructions -/

/-- The items that a lane has staged and not discarded in this tide. -/
def LaneSt.staged (x : LaneSt) : List Item := x.stage.closed.flatMap (·.2) ++ x.stage.opened.getD []

/-- The entries that a lane has staged for ring `n`, oldest first. -/
def LaneSt.stagedPushes (x : LaneSt) (n : Nat) : List (List Byte) :=
  x.staged.filterMap fun i =>
    match i with
    | .push _ r d _ => if r = n then some d else none
    | _ => none

/-- The tail advances that a lane has staged for ring `n`: its pops and its DROP_OLD advances (R56, R57). -/
def LaneSt.stagedTail (x : LaneSt) (n : Nat) : Nat :=
  (x.staged.filter fun i =>
    match i with
    | .pop _ r => r == n
    | .push _ r _ d => r == n && d
    | _ => false).length

/-- Head, tail and count of a ring as a lane judges them: the snapshot, adjusted by what it has staged (R56). -/
def State.judgedHead (s : State) (x : LaneSt) (n : Nat) : Nat :=
  ((s.snapReg (RINGS.RING_HEAD n)).toNat + (x.stagedPushes n).length) % 65536
def State.judgedTail (s : State) (x : LaneSt) (n : Nat) : Nat :=
  ((s.snapReg (RINGS.RING_TAIL n)).toNat + x.stagedTail n) % 65536
def State.judgedCnt (s : State) (x : LaneSt) (n : Nat) : Nat := ringDiff (s.judgedHead x n) (s.judgedTail x n)

/-- The trap, if any, of RPUSH and RPOP (R80, R82, R88): `party` tells whether the program has the needed end of the ring. The order in
which the causes are checked is the model's choice (assumption 25). -/
def State.ringTrap (s : State) (x : LaneSt) (gr gp : Nat) (party : Bool) : Option (Nat × Nat) :=
  if x.stage.opened.isNone then some (tcGroup, 0)
  else if 63 < gr ∨ !s.flag (RINGS.RING_CFG_EN gr) ∨ !party then some (tcRing, gr)
  else if gp % s.ringEnt gr ≠ 0 then some (tcAlign, gp)
  else if gp < 0x10000000 ∨ 0x10040000 < gp + s.ringEnt gr then some (tcMap, gp)
  else if 1024 ≤ x.stage.items then some (tcStageFull, 0)
  else none

/-- DATA elements of an entry, 12 bytes each (R121). -/
def LaneSt.dataElems : Nat → Nat → List Byte → LaneSt → LaneSt
  | 0, _, _, x => x
  | k + 1, q, bs, x =>
    let c := padTo 12 bs
    LaneSt.dataElems k (q + 1) (bs.drop 12) (x.elem 4 q (leNat (c.take 4)) (leNat ((c.drop 4).take 4)) (leNat (c.drop 8)))

def LaneSt.setC (x : LaneSt) (b : Bool) : LaneSt := { x with sw := swC x.sw b }
def LaneSt.setZ (x : LaneSt) (b : Bool) : LaneSt := { x with sw := swZ x.sw b }

/-- Stages a push (R56, R57, R86, R87, R121); the entry is read from DRAM through ECC (R27). With gr above 63 no ring and so no entry size
exists: the cycles charged are those of an absent descriptor (assumption 26). -/
def execRpush (l : Lane) (gr : GReg) (gp : Through GReg) (s : State) : Host.Outcome State Fault Refusal :=
  done (s.runLane l fun x s =>
    let n := (x.rg gr.val).toNat
    let p := (x.rg gp.what.val).toNat
    let e := s.ringEnt n
    let c := 4 + e / 8
    match s.ringTrap x n p (s.progProduces n) with
    | some (tc, tv) => s.laneTrap l tc (BitVec.ofNat 32 tv) c
    | none =>
      let q := x.stage.items
      let full := decide (s.ringSize n ≤ s.judgedCnt x n)
      if full && s.fld (RINGS.RING_CFG_POLICY n) != 1 then
        s.setLane l ((((x.elem 3 q n 0xFFFFFFFF e).addItem (.idle q n)).setC true).next c)
      else
        s.readEcc l p c gp.ecc fun s =>
          let x := s.lane l
          let bs := rdBytes x.dram (p - 0x10000000) e
          let y := x.elem 3 q n (s.judgedHead x n) e
          s.setLane l (((LaneSt.dataElems ((e + 11) / 12) 0 bs (y.addItem (.push q n bs full))).setC false).next c))

/-- Copies the next entry into DRAM and stages the tail advance (R56, R86, R87, R121). -/
def execRpop (l : Lane) (gr gp : GReg) (ecc : Ecc) (s : State) : Host.Outcome State Fault Refusal :=
  done (s.runLane l fun x s =>
    let n := (x.rg gr.val).toNat
    let p := (x.rg gp.val).toNat
    let e := s.ringEnt n
    let c := 12 + e / 8
    match s.ringTrap x n p (s.progConsumes n) with
    | some (tc, tv) => s.laneTrap l tc (BitVec.ofNat 32 tv) c
    | none =>
      let q := x.stage.items
      if s.judgedCnt x n = 0 then
        s.setLane l ((((x.elem 5 q n 0xFFFFFFFF 0).addItem (.idle q n)).setZ true).next c)
      else
        s.readEcc l 0x20000000 c ecc fun s =>
          let x := s.lane l
          let t := s.judgedTail x n
          let inSnap := ringDiff (s.snapReg (RINGS.RING_HEAD n)).toNat (s.snapReg (RINGS.RING_TAIL n)).toNat
          let k := x.stagedTail n
          let bs := if k < inSnap then s.ringEntry n t else padTo e ((x.stagedPushes n).getD (k - inSnap) [])
          let y := (x.elem 5 q n t 0).addItem (.pop q n)
          s.setLane l (((y.wrDram (p - 0x10000000) bs).setZ false).next c))

/-- Entries of a ring as the lane judges them (R86); only the ring number and EN are checked (R88). -/
def execRcnt (l : Lane) (gd gr : GReg) (s : State) : Host.Outcome State Fault Refusal :=
  done (s.runLane l fun x s =>
    let n := (x.rg gr.val).toNat
    if 63 < n ∨ !s.flag (RINGS.RING_CFG_EN n) then s.laneTrap l tcRing (BitVec.ofNat 32 n) 2
    else
      let v := BitVec.ofNat 32 (s.judgedCnt x n)
      s.setLane l (((x.wg gd.val v).flagsZN v).next 2))

end Sys2Proof.Machine
end

