-- ==== Sys2Proof/Machine/EventInstr.lean ====
section
/-! DEFINITION. Presentation of events (R40 to R43, R85), the event instructions (R84), time instructions (R89 to R91), folds
(R93, R94) and status instructions (R95). -/

namespace Sys2Proof.Machine

/-- The sources of word `k` that a cut presents: enabled, latched, and stamped at or before it (R41). -/
def State.dueIn (s : State) (cut k : Nat) : List (Nat × Pres) :=
  let m := s.regN (GALLERY.EVT_PEND k) &&& s.regN (GALLERY.EVT_EN k)
  if m = 0 then []
  else (upto 32).filterMap fun b =>
    let src := 32 * k + b
    let t := mget zeroNat s.gal.evtStamp src
    if bitB m b && decide (t ≤ cut) then some (src, ⟨t, bitB (s.regN (GALLERY.EVT_OVR k)) b⟩) else none

/-- The sources that a cut presents. -/
def State.dueAt (s : State) (cut : Nat) : List (Nat × Pres) := (upto 8).flatMap fun k => s.dueIn cut k

/-- Presentation clears a latch with its OVR bit and its stamp (R40). -/
def State.unlatch (s : State) (src : Nat) : State :=
  let k := src / 32
  let s := s.setN (GALLERY.EVT_PEND k) (setBits (s.regN (GALLERY.EVT_PEND k)) (src % 32) 1 0)
  let s := s.setN (GALLERY.EVT_OVR k) (setBits (s.regN (GALLERY.EVT_OVR k)) (src % 32) 1 0)
  { s with gal := { s.gal with evtStamp := mput zeroNat s.gal.evtStamp src 0 } }

def noPres : Nat → Pres := fun _ => ⟨0, false⟩

/-- Remembers what a tide presented, with the earliest stamp; a source presented again has fired again since (R129). -/
def notePres (m : List (Nat × Pres)) (p : Nat × Pres) : List (Nat × Pres) :=
  match m.find? (fun q => q.1 == p.1) with
  | none => m ++ [p]
  | some _ => m.map fun q => if q.1 = p.1 then (q.1, ⟨min q.2.stamp p.2.stamp, true⟩) else q

/-- Takes the events of a cut: they are unlatched and answered (R40, R41). -/
def State.present (s : State) (cut : Nat) : List (Nat × Pres) × State :=
  let set := s.dueAt cut
  let s := s.forAll (set.map (·.1)) fun src s => s.unlatch src
  (set, { s with gal := { s.gal with tidePres := set.foldl notePres s.gal.tidePres } })

/-- Adds one presented source to a lane's set: one bit, the later stamp, OVR when it was still there (R85). The set is held as a
list in rising order of the source number. -/
def insPres : List (Nat × Pres) → Nat × Pres → List (Nat × Pres)
  | [], p => [p]
  | q :: m, p =>
    if q.1 < p.1 then q :: insPres m p
    else if q.1 = p.1 then (q.1, ⟨max q.2.stamp p.2.stamp, true⟩) :: m
    else p :: q :: m

def LaneSt.addPres (x : LaneSt) (set : List (Nat × Pres)) : LaneSt := { x with pres := set.foldl insPres x.pres }

/-- A lane goes on from its bell point with the set: gd := number of sources newly presented (R84). -/
def LaneSt.bellTake (x : LaneSt) (rd : Nat) (set : List (Nat × Pres)) : LaneSt :=
  let y := (x.addPres set).wg rd (BitVec.ofNat 32 set.length)
  { y with wait := none, pc := y.pc + 4 }

/-- A bell point (R42, R43): the first lane fixes the cut, the earlier of two instants wins until the copies agree, later lanes
take the released set; from the 33rd on the set is empty and BELL_OVR is set. `waitNs` is what the wait took. -/
def execBell (l : Lane) (gd : GReg) (t waitNs : Nat) (s : State) : Host.Outcome State Fault Refusal :=
  done (s.runLane l fun x s =>
    let s := s.atTime t
    let k := x.stage.bells
    let x := { x.charge 8 (min waitNs 60) with stage := { x.stage with bells := k + 1 } }
    let x := { x with tally := { x.tally with bells := x.tally.bells + 1 } }
    if 32 ≤ k then (s.setLane l (x.bellTake gd.val [])).stick GALLERY.TIDE_STS_BELL_OVR
    else
      match s.gal.bells[k]? with
      | none =>
        let s := { s with gal := { s.gal with bells := s.gal.bells ++ [BellPt.mk t none] } }
        s.setLane l { x with wait := some (.bell gd.val k) }
      | some b =>
        match b.set with
        | some set => s.setLane l (x.bellTake gd.val set)
        | none =>
          let s := { s with gal := { s.gal with bells := lset s.gal.bells k ⟨min b.cut t, none⟩ } }
          s.setLane l { x with wait := some (.bell gd.val k) })

/-- The gallery copies agree on the cut of a bell point (counted from 0) and release its set to the waiting lanes (R42). -/
def execBellSetAgreed (k : Fin 32) (s : State) : Host.Outcome State Fault Refusal :=
  done (match s.gal.bells[k.val]? with
    | none => s
    | some b =>
      match b.set with
      | some _ => s
      | none =>
        let (set, s) := s.present b.cut
        let s := { s with gal := { s.gal with bells := lset s.gal.bells k.val ⟨b.cut, some set⟩ } }
        s.forAll [0, 1, 2] fun l s =>
          match (s.lane l).wait with
          | some (.bell rd j) => if j = k.val then s.onLane l fun x => x.bellTake rd set else s
          | _ => s)

/-- Removes the lowest-numbered source from the presented set (R84). -/
def execEvnext (l : Lane) (gd : GReg) (s : State) : Host.Outcome State Fault Refusal :=
  done (s.runPure l fun x =>
    match x.pres with
    | [] => (x.wg gd.val 0x80000000#32).next 2
    | (src, p) :: m =>
      { x.wg gd.val (BitVec.ofNat 32 (src + 256 * b2n p.ovr)) with pres := m, last := shortOf p.stamp }.next 2)

/-- The short stamp of the source that EVNEXT last returned in this tide, else 0 (R84). -/
def execEvstamp (l : Lane) (gd : GReg) (s : State) : Host.Outcome State Fault Refusal :=
  done (s.runPure l fun x => (x.wg gd.val (BitVec.ofNat 32 x.last)).next 2)

/-! ### Time -/

/-- Writes seconds, nanoseconds, and fraction with upper seconds to three registers (R89). -/
def LaneSt.putTime (x : LaneSt) (gd t frac : Nat) : LaneSt :=
  let sec := t / 1000000000
  ((x.wg gd (BitVec.ofNat 32 sec)).wg (gd + 1) (BitVec.ofNat 32 (t % 1000000000))).wg (gd + 2)
    (BitVec.ofNat 32 (sec / 2 ^ 32 % 65536 + frac % 65536 * 65536))

/-- TNOW and TNOW.L need gd among g4, g8, …, g28 (R90). -/
def tripleReg (gd : Nat) : Bool := gd % 4 == 0 && 4 ≤ gd && gd ≤ 28

def execTnow (l : Lane) (gd : GReg) (s : State) : Host.Outcome State Fault Refusal :=
  done (s.runPure l fun x =>
    if tripleReg gd.val then (x.putTime gd.val s.snap.time s.snap.frac).next 3
    else x.trap s.img.trapvec tcRegPair (BitVec.ofNat 32 (wordR 2 gd.val 0 0 0x18)) 3)

/-- One atomic capture of live time (R89) at the instant `t` and `frac` × 2^-16 ns: the ns of the instant, and the fraction of the island's count
then (R415). -/
def execTnowL (l : Lane) (gd : GReg) (t frac waitNs : Nat) (s : State) : Host.Outcome State Fault Refusal :=
  done (s.runLane l fun x s =>
    let s := s.atTime t
    if tripleReg gd.val then
      let y := x.putTime gd.val t (fracOf (s.oscAt t frac))
      s.setLane l { y.charge 4 (min waitNs 20) with pc := y.pc + 4 }
    else s.setLane l (x.trap s.img.trapvec tcRegPair (BitVec.ofNat 32 (wordR 2 gd.val 0 0 0x418)) 4 20))

def execTshort (l : Lane) (gd : GReg) (s : State) : Host.Outcome State Fault Refusal :=
  done (s.runPure l fun x => (x.wg gd.val (BitVec.ofNat 32 (shortOf s.snap.time))).next 1)

/-- The short stamp of live time (R89). The wait of TSHORT.L, up to 20 ns, enters no counter: code 0x2 of R481 does not name it. -/
def execTshortL (l : Lane) (gd : GReg) (t _waitNs : Nat) (s : State) : Host.Outcome State Fault Refusal :=
  done (s.runLane l fun x s =>
    let s := s.atTime t
    let y := x.wg gd.val (BitVec.ofNat 32 (shortOf t))
    s.setLane l (y.next 2))

/-- The instant that a short stamp names, by its signed distance from the snapshot time (R91). -/
def extendStamp (snap : Nat) (st : Word) : Int := (snap : Int) + (st - BitVec.ofNat 32 (shortOf snap)).toInt

/-- TEXT: gd must be an even register from g2 to g30 (R90, R91). -/
def execText (l : Lane) (gd gs : GReg) (s : State) : Host.Outcome State Fault Refusal :=
  done (s.runPure l fun x =>
    if gd.val % 2 = 0 ∧ 2 ≤ gd.val then
      let t := extendStamp s.snap.time (x.rg gs.val)
      ((x.wg gd.val (wordOfInt (t / 1000000000))).wg (gd.val + 1) (wordOfInt (t % 1000000000))).next 4
    else x.trap s.img.trapvec tcRegPair (BitVec.ofNat 32 (wordR 2 gd.val gs.val 0 0x1A)) 4)

/-! ### Folds -/

/-- A lane goes on from a fold with its value and the FOLD element (R93, R121). -/
def LaneSt.foldTake (x : LaneSt) (rd : Nat) (v : Word) : LaneSt :=
  let k := x.stage.folds + 1
  let y := (x.elem 8 0 k v.toNat 0).wg rd v
  { y with wait := none, pc := y.pc + 4, stage := { y.stage with folds := k } }

def LaneSt.countFold (x : LaneSt) (w : Nat) : LaneSt :=
  let y := x.charge 8 w
  { y with tally := { y.tally with folds := y.tally.folds + 1 } }

/-- Submits a value to the gallery and waits for the fold value, or takes the value already fixed; only a voting lane's
submission takes part (R93). The 65th fold of a tide traps with FOLD (R94). -/
def execVfold (l : Lane) (gd gs : GReg) (w : Request) (s : State) : Host.Outcome State Fault Refusal :=
  done (s.runLane l fun x s =>
    let s := s.atTime w.t
    let k := x.stage.folds
    if 64 ≤ k then s.setLane l (x.trap s.img.trapvec tcFold 0 8 2100)
    else
      let y := x.countFold (min w.waitNs 2100)
      let f := s.gal.folds.getD k ⟨[], 0, none⟩
      match f.value with
      | some v => s.setLane l (y.foldTake gd.val v)
      | none =>
        let f := if s.votes l then { f with subs := f.subs ++ [(l.val, x.rg gs.val)], at' := s.now } else f
        let fs := if k < s.gal.folds.length then lset s.gal.folds k f else s.gal.folds ++ [f]
        let s := { s with gal := { s.gal with folds := fs } }
        s.setLane l { y with wait := some (.fold gd.val k) })

/-- The value of a fold: the median of three submissions, the lesser (signed) of two (R93). -/
def foldValue : List (Nat × Word) → Option Word
  | [(_, a), (_, b), (_, c)] => some (wordOfInt (median3 a.toInt b.toInt c.toInt))
  | [(_, a), (_, b)] => some (minW a b)
  | _ => none

/-- Whether the value of a fold is due: every voting lane has submitted, or the third has not within 2000 ns after the second (R93). -/
def State.foldDue (s : State) (f : FoldPt) : Bool := decide (s.voters.length ≤ f.subs.length) || decide (f.at' + 2000 ≤ s.now)

/-- The gallery fixes the value of fold `k` (counted from 0) and the waiting lanes go on (R93). With fewer than two submissions
there is no value yet and nothing happens. -/
def execVfoldValueFixed (k : FoldAt) (s : State) : Host.Outcome State Fault Refusal :=
  done (
    let s := s.atTime k.t
    match s.gal.folds[k.k.val]? with
    | none => s
    | some f =>
      if f.value.isSome || !s.foldDue f then s
      else
        match foldValue f.subs with
        | none => s
        | some v =>
          let s := { s with gal := { s.gal with folds := lset s.gal.folds k.k.val { f with value := some v } } }
          s.forAll [0, 1, 2] fun l s =>
            match (s.lane l).wait with
            | some (.fold rd j) => if j = k.k.val then s.onLane l fun x => x.foldTake rd v else s
            | _ => s)

/-! ### Status and software traps -/

/-- Traps with SOFT, tv := n; 4 cycles in all (R95). -/
def execTrap (l : Lane) (n : BitVec 5) (s : State) : Host.Outcome State Fault Refusal :=
  done (s.runPure l fun x => x.trap s.img.trapvec tcSoft (n.setWidth 32) 0)

def execRdsw (l : Lane) (gd : GReg) (s : State) : Host.Outcome State Fault Refusal :=
  done (s.runPure l fun x => (x.wg gd.val x.sw).next 1)

/-- Writes sw[5:0] only (R64). -/
def execWrsw (l : Lane) (gs : GReg) (s : State) : Host.Outcome State Fault Refusal :=
  done (s.runPure l fun x => { x with sw := (x.sw &&& ~~~0x3F#32) ||| (x.rg gs.val &&& 0x3F#32) }.next 1)

def execRdtp (l : Lane) (gd : GReg) (s : State) : Host.Outcome State Fault Refusal :=
  done (s.runPure l fun x => (x.wg gd.val (BitVec.ofNat 32 x.tp)).next 1)

def execRdtv (l : Lane) (gd : GReg) (s : State) : Host.Outcome State Fault Refusal :=
  done (s.runPure l fun x => (x.wg gd.val x.tv).next 1)

end Sys2Proof.Machine
end

