-- ==== Sys2Proof/Machine/TimeServo.lean ====
section
/-! DEFINITION. Device time and PTP (R414 to R431): the servo, steps, path delays, the ordinary clocks and the choice of a master.
Times and delays of PTP are held in units of 2^-16 ns. -/

namespace Sys2Proof.Machine

def State.onNet (s : State) (f : NetSt → NetSt) : State := { s with net := f s.net }
def State.ptp (s : State) (k : Nat) : PtpSt := mget (fun _ => PtpSt.reset) s.net.ptp k
def State.onPtp (s : State) (k : Nat) (f : PtpSt → PtpSt) : State :=
  s.onNet fun n => { n with ptp := mput (fun _ => PtpSt.reset) n.ptp k (f (s.ptp k)) }
def State.onServo (s : State) (f : ServoSt → ServoSt) : State := s.onNet fun n => { n with servo := f n.servo }
def State.timeState (s : State) : Nat := s.fld TIME.STS_STATE

/-- The median; for an even count the mean of the middle two, truncated toward 0 (R420). -/
def medianOf (l : List Int) : Int :=
  let q := sortInt l
  let n := q.length
  if n % 2 = 1 then q.getD (n / 2) 0 else (q.getD (n / 2 - 1) 0 + q.getD (n / 2) 0).tdiv 2

/-- Largest minus smallest. -/
def spreadOf (l : List Int) : Int :=
  match sortInt l with
  | [] => 0
  | x :: q => (q.getLastD x) - x

/-- An interval given as a signed log2 of seconds, in ns. -/
def logNs (e : Int) : Nat := if 0 ≤ e then 1000000000 * 2 ^ e.toNat else 1000000000 / 2 ^ (-e).toNat

/-- An entry of ring 35 (R453): KIND and bytes 5 to 15. -/
def State.ring35 (s : State) (kind : Nat) (b : List Byte) : State := s.hwPush 35 (leBytes 4 (shortOf s.now) ++ leBytes 1 kind ++ b)

/-- LOCKED, with what follows it (R334, R372, R418). -/
def State.setTimeLocked (s : State) (b : Bool) : State :=
  if s.flag TIME.STS_LOCKED == b then s else ((s.setFlag TIME.STS_LOCKED b).llpTime b).gstateSet false

/-- A change of TIME.STS.STATE (R418). -/
def State.timeTo (s : State) (st : Nat) : State :=
  if s.timeState = st then s
  else
    let s := (s.setFld TIME.STS_STATE st).fire 224
    let s := if st = 3 then s.onServo fun v => { v with holdAt := s.now } else s
    let s := if st = 3 then s.setI TIME.RATE s.net.servo.acc else if st = 0 then s.setReg TIME.RATE (s.reg TIME.RATE_INIT) else s
    s.setTimeLocked (st == 2 || st == 3 || st == 4)

def State.portState (s : State) (k : Nat) : Nat := s.fld (NET.PTP_STS_PORT_STATE k)

/-- Whether the ordinary clock of a network follows a master. -/
def State.follows (s : State) (k : Nat) : Bool := s.portState k == 8 || s.portState k == 9

/-- The network that CFG.SRC selects, if its clock follows a master (R419). -/
def State.wantSrc (s : State) : Option Nat :=
  let c := s.fld TIME.CFG_SRC
  if c = 0 ∧ s.follows 0 then some 0
  else if c = 1 ∧ s.follows 1 then some 1
  else if c = 2 then (if s.follows 0 then some 0 else if s.follows 1 then some 1 else none)
  else none

/-- STATE follows the sources (R418, R419, R425, R428). -/
def State.servoSettle (s : State) : State :=
  let stepped := s.flag TIME.STS_STEPPED
  let master := s.portState 0 == 6 || s.portState 1 == 6
  match s.wantSrc with
  | none =>
    if master then (s.timeTo 4).when (s.fld TIME.CFG_SRC == 3) fun s => s.setReg TIME.RATE (s.reg TIME.RATE_INIT)
    else if s.fld TIME.CFG_SRC = 3 then s.timeTo 0
    else if s.timeState = 1 ∨ s.timeState = 2 ∨ s.timeState = 4 then s.timeTo (if stepped then 3 else 0)
    else s
  | some k =>
    if !stepped then s.timeTo 0
    else if s.net.servo.src ≠ some k ∨ s.timeState = 0 ∨ s.timeState = 4 then s.timeTo 3
    else s

/-! ### The servo (R420 to R423) -/

/-- Device time is stepped by `-m` ns (R420, R423). -/
def State.timeStep (s : State) (m : Int) (again : Bool) : State :=
  let new := ((s.now : Int) - m).toNat
  let d : Int := (new : Int) - s.now
  let stepped := s.flag TIME.STS_STEPPED
  let s := { s with now := new, osc := ((s.osc : Int) + d * 2 ^ 32).toNat, stepped := s.stepped + d }.shiftTimes d |>.shiftDrives d
  let s := (s.setI TIME.STEP_S (d / 1000000000)).setN TIME.STEP_NS (d % 1000000000).toNat
  let s := (s.setFlag TIME.STS_STEPPED true).bump TIME.CNT_STEPS 1
  -- acc starts again at the RATE_INIT of the first step, if one has been made: later commits do not affect it (R421, R423)
  let rate := if again && stepped then s.net.servo.seed else s.regI TIME.RATE_INIT
  let s := s.onServo fun v =>
    { v with step := none, offs := [], fedAt := none, tol := 0, past := 0, within := 0, acc := rate, seed := rate }
  let s := s.when (again && s.flag TIME.STS_SPLIT) fun s => (s.setFlag TIME.STS_SPLIT false).fire 226
  let s := (s.timeTo (if again then 2 else 1)).fire 225
  s.ring35 2 (leBytes 3 0 ++ leBytes 4 (s.regN TIME.STEP_S) ++ leBytes 4 (s.regN TIME.STEP_NS))

/-- SPLIT changes (R422). -/
def State.splitTo (s : State) (b : Bool) : State :=
  let s := (s.setFlag TIME.STS_SPLIT b).fire 226
  let s := s.when b fun s => s.bump TIME.CNT_SPLITS 1
  s.ring35 3 (leBytes 1 0 ++ leBytes 1 (b2n b) ++ leBytes 1 0 ++ leBytes 4 (s.regN TIME.OFFSET))

/-- A valid offset of the source, in ns, outside a re-measurement (R421, R422, R425). -/
def State.servoFeed (s : State) (o : Int) : State :=
  let win := s.fld TIME.CFG_SLEW_WIN * 1000
  let v := s.net.servo
  if win < o.natAbs then
    let s := (s.setI TIME.RATE v.acc).onServo fun v => { v with past := min 8 (v.past + 1), within := 0, tol := 0 }
    s.when (s.net.servo.past == 8 && v.past == 7 && !s.flag TIME.STS_SPLIT) fun s => s.splitTo true
  else
    -- with no feed before it, or one at the same instant, the rate error is a free value (assumption 2)
    let f := s.free
    let t0 := v.fedAt.getD s.now
    let e : Int := if t0 < s.now then (-o * 4294967296) / ((s.now : Int) - t0) else (f.1 : Int)
    let s := if t0 < s.now then s else f.2
    let acc := clampInt (-2147483) 2147483 (v.acc + asr e (s.fld TIME.CFG_KI))
    let rate := clampInt (-2147483) 2147483 (acc + asr e (s.fld TIME.CFG_KP))
    let near := decide (o.natAbs ≤ s.fld TIME.CFG2_LOCK_TOL * 100)
    let split := s.flag TIME.STS_SPLIT
    let s := (s.setI TIME.RATE rate).onServo fun v =>
      { v with acc := acc, fedAt := some s.now, past := 0, tol := if near then min 16 (v.tol + 1) else 0,
               within := if split then v.within + 1 else 0 }
    let s := s.when (split && s.net.servo.within == 16) fun s => (s.splitTo false).onServo fun v => { v with within := 0 }
    if s.timeState = 3 then (s.timeTo 2).setI TIME.RATE rate
    else if s.timeState = 1 ∧ s.net.servo.tol = 16 then s.timeTo 2
    else s

/-- The servo takes network `k` as its source: a change of source counts and fires (R419, R452). The first source of all replaces none: the
model counts no change for it (assumption 100). -/
def State.srcTake (s : State) (k : Nat) : State :=
  let old := s.net.servo.src
  let s := (s.setFlag TIME.STS_SRC_NET (k == 1)).onServo fun v => { v with src := some k }
  s.when (old.isSome && old != some k) fun s => (s.bump TIME.CNT_SWITCHES 1).fire 228

/-- An offset that network `k` computed (R419, R420, R430); `measuring` during a re-measurement. A valid offset of the wanted source counts for a
re-step (R423), be the source taken or not. -/
def State.offsetNow (s : State) (k : Nat) (o : Int) (measuring : Bool) : State :=
  let ns := asr o 16
  let s := s.setI (NET.OFFSET k) (satInt 32 ns)
  let s := if s.portState k = 8 then (s.setFld (NET.PTP_STS_PORT_STATE k) 9).fire (229 + k) else s
  if s.wantSrc ≠ some k then s
  else
    let v := s.net.servo
    let id := (k, (s.ptp k).parent.getD 0)
    if !s.flag TIME.STS_STEPPED then
      let s := (s.setI TIME.OFFSET (satInt 32 ns)).srcTake k
      if measuring then s
      else
        let l := if v.from' = some id then (ns :: v.offs).take 15 else [ns]
        let n := s.fld TIME.CFG_STEP_N
        let full := decide (n ≤ l.length) && decide (spreadOf (l.take n) ≤ 2000) && v.step.isNone
        s.onServo fun v => { v with offs := l, from' := some id, step := if full then some (medianOf (l.take n)) else v.step }
    else if measuring then s.setI TIME.OFFSET (satInt 32 ns)
    else
      let l := if v.from' = some id then (ns :: v.offs).take 15 else [ns]
      let s := s.onServo fun v => { v with offs := l, from' := some id }
      if v.src ≠ some k ∧ s.fld TIME.CFG_SLEW_WIN * 1000 < ns.natAbs then s
      else ((s.srcTake k).setI TIME.OFFSET (satInt 32 ns)).servoFeed ns

/-- HOLD_MAX has passed in HOLDOVER (R418). -/
def execHoldMax (t : Nat) (s : State) : Host.Outcome State Fault Refusal :=
  done (
    let s := s.atTime t
    if s.timeState = 3 ∧ s.net.servo.holdAt + s.fld TIME.CFG2_HOLD_MAX * 100000000 ≤ s.now then s.setTimeLocked false else s)

/-! ### Path delays (R424) -/

/-- A raw path delay enters a path: the new path, and 1 for a jump detected, 2 for a new delay accepted. -/
def PathSt.measure (p : PathSt) (d jump : Int) : PathSt × Nat :=
  match p.remeas with
  | some l =>
    let l := l ++ [d]
    if 16 ≤ l.length then (⟨some (medianOf l), none⟩, 2) else (⟨p.filt, some l⟩, 0)
  | none =>
    match p.filt with
    | none => (⟨some d, none⟩, 0)
    | some f => if (d - f).natAbs ≤ jump.natAbs then (⟨some (f + (d - f) / 8), none⟩, 0) else (⟨some f, some [d]⟩, 1)

/-- What the servo does with a measurement of its source's path. -/
def State.pathSeen (s : State) (k : Nat) (old new : PathSt) (d : Int) (what : Nat) : State :=
  if s.wantSrc ≠ some k then s
  else
    let n := match new.remeas with
      | some l => l.length
      | none => if what = 2 then 16 else 0
    let s := (s.setFlag TIME.STS_REMEAS new.remeas.isSome).setFld TIME.STS_REMEAS_N n
    let entry := fun (acc : Nat) (b : Int) (s : State) =>
      s.ring35 4 (leBytes 1 k ++ leBytes 1 acc ++ leBytes 1 0 ++ leBytes 4 (unsgn 32 (asr (old.filt.getD 0) 16)) ++
        leBytes 4 (unsgn 32 (asr b 16)))
    if what = 1 then
      let s := if s.flag TIME.STS_STEPPED then s.timeTo 3 else s
      entry 0 d (s.fire 227)
    else if what = 2 then entry 1 (new.filt.getD 0) ((s.bump TIME.CNT_JUMPS 1).fire 227)
    else s

/-! ### The ordinary clocks (R427 to R430) -/

/-- The clockIdentity of a network (R427). -/
def State.clockId (s : State) (k : Nat) : Nat :=
  let m := s.portMac k 0
  m / 2 ^ 24 * 2 ^ 40 + 0xFFFE * 2 ^ 24 + m % 2 ^ 24

def State.clockShow (s : State) (k : Nat) : State :=
  let c := s.clockId k
  (s.setN (NET.CLK_ID_LO k) (c % 2 ^ 32)).setN (NET.CLK_ID_HI k) (c / 2 ^ 32)

/-- An error counter of PTP increments (sources 231, 232). -/
def State.ptpErr (s : State) (k : Nat) (f : Fld) (n : Nat) : State := if n = 0 then s else (s.bump f n).fire (231 + k)

/-- A new grandmaster identity (R452, R453). -/
def State.setGm (s : State) (k gm : Nat) : State :=
  let old := s.regN (NET.GM_ID_LO k) + 2 ^ 32 * s.regN (NET.GM_ID_HI k)
  if old = gm then s
  else
    let s := ((s.setN (NET.GM_ID_LO k) (gm % 2 ^ 32)).setN (NET.GM_ID_HI k) (gm / 2 ^ 32)).fire 228
    s.ring35 5 (leBytes 1 k ++ leBytes 2 0 ++ beBytes 8 gm)

def State.portTo (s : State) (k st : Nat) : State :=
  let s := s.setFlag (NET.PTP_STS_GM k) (st == 6)
  let s := if s.portState k = st then s else (s.setFld (NET.PTP_STS_PORT_STATE k) st).fire (229 + k)
  let s := if st = 6 then s.setGm k (s.clockId k) else s
  s.servoSettle

/-- The order of data sets: a smaller list is better. -/
def Master.rank (m : Master) : List Nat := [m.p1, m.cls, m.acc, m.var', m.p2, m.gm, m.steps, m.src]

def lexLt : List Nat → List Nat → Bool
  | a :: x, b :: y => if a = b then lexLt x y else decide (a < b)
  | [], _ :: _ => true
  | _, [] => false

def Master.better (a b : Master) : Bool := if a.gm = b.gm then lexLt [a.steps, a.src] [b.steps, b.src] else lexLt a.rank b.rank

/-- The device as a master. -/
def State.ownMaster (s : State) (k : Nat) : Master :=
  ⟨s.clockId k * 65536 + 1, s.fld (NET.PTP_PRIO_PRIORITY1 k), s.fld (NET.PTP_PRIO_CLASS k), s.fld (NET.PTP_PRIO_ACCURACY k),
    s.fld (NET.PTP_PRIO2_VARIANCE k), s.fld (NET.PTP_PRIO_PRIORITY2 k), s.clockId k, 0, s.now, some s.now, 0⟩

/-- A foreign master that counts: two announces within four of its intervals, and the last not timed out. -/
def State.qualified (s : State) (k : Nat) (m : Master) : Bool :=
  (match m.before with
    | some b => decide (m.last ≤ b + 4 * m.annNs)
    | none => false) && decide (s.now < m.last + s.fld (NET.PTP_CFG_ANN_TO k) * m.annNs) && decide (m.steps < 255)

/-- The choice of a master, and the port state that follows (R427). -/
def State.bmca (s : State) (k : Nat) : State :=
  let role := s.fld (NET.PTP_CFG_ROLE k)
  let best := ((s.ptp k).foreign.filter (s.qualified k)).foldl (fun (b : Option Master) m =>
    match b with
    | some x => if m.better x then some m else b
    | none => some m) none
  match best with
  | none => if s.follows k ∨ s.portState k = 7 then (s.onPtp k fun p => { p with parent := none }).portTo k 4 else s
  | some m =>
    let own := s.ownMaster k
    if role = 2 ∧ own.better m then (s.onPtp k fun p => { p with parent := none }).portTo k 6
    else if role = 2 ∧ own.cls ≤ 127 then (s.onPtp k fun p => { p with parent := none }).portTo k 7
    else if (s.ptp k).parent = some m.src then (s.setGm k m.gm).servoSettle
    else
      let s := s.onPtp k fun p =>
        { p with parent := some m.src, wait := none, sync := none, syncAt := s.now, syncNs := 0, reqs := [], path := PathSt.reset }
      (s.setGm k m.gm).portTo k 8

def State.ptpOn (s : State) (k : Nat) : Bool := s.flag (NET.PTP_CFG_EN k) && s.fld (NET.PTP_CFG_ROLE k) != 0

/-- The ports of a network that the device uses, as a mask (R438). -/
def State.portsOn (s : State) (k : Nat) : Nat := b2n (s.flag (NET.PORT_CFG_EN k 0)) + 2 * b2n (s.flag (NET.PORT_CFG_EN k 1))

/-- The ordinary clock hears a port (R438). -/
def State.hears (s : State) (k p : Nat) : Bool := s.ptpOn k && s.flag (NET.PORT_CFG_EN k p)

/-- An Announce: source port, grandmaster data set, steps removed, its interval; `ok` false for a malformed message. -/
def execAnnounceReceive (x : NetPort) (ok : Bool) (domain : BitVec 8) (src : BitVec 80) (gm : BitVec 64) (p1 cls acc p2 : BitVec 8)
    (var' steps : BitVec 16) (log : Int) (t : Nat) (s : State) : Host.Outcome State Fault Refusal :=
  done (
    let s := s.atTime t
    let k := x.k
    if !s.hears k x.p then s
    else if !ok then s.ptpErr k (NET.PTP_ERR_BADMSG k) 1
    else if domain.toNat ≠ s.fld (NET.PTP_CFG_DOMAIN k) ∨ src.toNat / 65536 = s.clockId k then s
    else
      let l := (s.ptp k).foreign
      let old := (l.find? fun m => m.src == src.toNat).map (·.last)
      let m : Master := ⟨src.toNat, p1.toNat, cls.toNat, acc.toNat, var'.toNat, p2.toNat, gm.toNat, steps.toNat, s.now, old, logNs log⟩
      (s.onPtp k fun p => { p with foreign := l.filter (fun x => x.src != m.src) ++ [m] }).bmca k)

/-- A master's Announce or Sync messages are missed (R425). -/
def execMasterLoss (k : Fin 2) (sync : Bool) (t : Nat) (s : State) : Host.Outcome State Fault Refusal :=
  done (
    let s := s.atTime t
    let p := s.ptp k
    if !s.ptpOn k then s
    else if sync then
      if s.follows k && decide (p.syncNs ≠ 0 ∧ p.syncAt + 4 * p.syncNs ≤ s.now) then
        let s := s.ptpErr k (NET.PTP_ERR_TIMEOUT k) 1
        let s := s.onPtp k fun p => { p with syncNs := 0 }
        if s.wantSrc = some k.val ∧ s.flag TIME.STS_STEPPED then s.timeTo 3 else s
      else s
    else
      let annTo := s.fld (NET.PTP_CFG_ANN_TO k)
      let m := p.foreign.find? fun m => some m.src == p.parent
      let due := match m with
        | some m => decide (m.last + annTo * m.annNs ≤ s.now)
        | none => s.portState k == 4
      if !due then s
      else
        let lost := m.isSome
        let s := s.when lost fun s => s.ptpErr k (NET.PTP_ERR_TIMEOUT k) 1
        let s := s.onPtp k fun p => { p with foreign := p.foreign.filter (fun x => some x.src != p.parent), parent := none }
        let src := s.wantSrc == some k.val
        let s := if lost then s.bmca k else s
        let s := s.when (lost && src && s.wantSrc.isSome && s.flag TIME.STS_STEPPED) fun s => s.timeTo 3
        if (s.ptp k).parent.isNone ∧ s.portState k = 4 ∧ s.fld (NET.PTP_CFG_ROLE k) = 2 then s.portTo k 6 else s)

/-- The path that an offset of a port rests on (R430): E2E or the port's peer path. -/
def State.pathFor (s : State) (k p : Nat) : PathSt :=
  if s.fld (NET.PTP_CFG_TCMODE k) = 2 then mget (fun _ => PathSt.reset) (s.ptp k).peer p else (s.ptp k).path

/-- A Sync is complete: t1, t2 and the summed corrections give an offset (R430). -/
def State.syncDone (s : State) (k p : Nat) (t1 t2 cs : Int) : State :=
  let s := s.onPtp k fun x => { x with sync := some (t1, t2, cs, p) }
  let path := s.pathFor k p
  match path.filt with
  | none => s
  | some f => s.offsetNow k (t2 - t1 - cs - f - s.regI (NET.ASYM k p) * 65536) path.remeas.isSome

/-- A Sync: source port, sequenceId, two-step flag, originTimestamp (ns), correctionField, log of its interval (R430). -/
def execSyncReceive (k p : Fin 2) (ok : Bool) (domain : BitVec 8) (src : BitVec 80) (seq : BitVec 16) (two : Bool) (t1 corr : Int)
    (log : Int) (t : Nat) (s : State) : Host.Outcome State Fault Refusal :=
  done (
    let s := s.atTime t
    if !s.hears k p then s
    else if !ok then s.ptpErr k (NET.PTP_ERR_BADMSG k) 1
    else if domain.toNat ≠ s.fld (NET.PTP_CFG_DOMAIN k) ∨ !s.follows k ∨ (s.ptp k).parent ≠ some src.toNat then s
    else
      let t2 : Int := ((s.now : Int) - s.fld (NET.LAT_INGRESS k p)) * 65536
      let s := (s.setFlag (NET.PORT_STS_MASTER k p) true).setFlag (NET.PORT_STS_MASTER k (1 - p.val)) false
      let s := s.onPtp k fun x => { x with syncAt := s.now, syncNs := logNs log, wait := if two then some (seq.toNat, t2, corr, p.val) else none }
      if two then s else s.syncDone k p (t1 * 65536) t2 corr)

/-- A Follow_Up supplies the originTimestamp of its Sync (R430). -/
def execFollowUpReceive (x : NetPort) (src : BitVec 80) (seq : BitVec 16) (t1 corr : Int) (t : Nat) (s : State) :
    Host.Outcome State Fault Refusal :=
  done (
    let s := s.atTime t
    let k := x.k
    if !s.hears k x.p || !s.follows k || (s.ptp k).parent != some src.toNat then s
    else match (s.ptp k).wait with
      | some w =>
        if w.1 = seq.toNat then (s.onPtp k fun x => { x with wait := none }).syncDone k w.2.2.2 (t1 * 65536) w.2.1 (w.2.2.1 + corr)
        else s.ptpErr k (NET.PTP_ERR_SEQ k) 1
      | none => s.ptpErr k (NET.PTP_ERR_SEQ k) 1)

/-- The port at which the master's Sync arrives. -/
def State.syncPort (s : State) (k : Nat) : Nat := if s.flag (NET.PORT_STS_MASTER k 1) then 1 else 0

/-- A Delay_Resp gives a raw path delay (R424, R430): receiveTimestamp (ns) and correctionField. -/
def execDelayRespReceive (x : NetPort) (seq : BitVec 16) (t4 corr : Int) (t : Nat) (s : State) : Host.Outcome State Fault Refusal :=
  done (
    let s := s.atTime t
    let k := x.k
    if !s.hears k x.p || !s.follows k || s.fld (NET.PTP_CFG_TCMODE k) == 2 then s
    else
      let x := s.ptp k
      match x.reqs.find? (fun r => r.1 == seq.toNat), x.sync with
      | some r, some (t1, t2, cs, _) =>
        let d := ((t2 - t1) + (t4 * 65536 - r.2.1) - cs - corr) / 2
        let m := x.path.measure d (s.fld TIME.CFG2_PD_JUMP * 65536)
        let s := s.onPtp k fun x => { x with reqs := x.reqs.filter (fun q => q.1 != seq.toNat), path := m.1 }
        let s := s.setI (NET.MPD k) (satInt 32 (asr (m.1.filt.getD 0) 16))
        s.pathSeen k x.path m.1 d m.2
      | _, _ => s.ptpErr k (NET.PTP_ERR_SEQ k) 1)

/-- Requests without an answer after 4 intervals (R430). -/
def execDelayReqLost (k : Fin 2) (t : Nat) (s : State) : Host.Outcome State Fault Refusal :=
  done (
    let s := s.atTime t
    let iv := logNs (s.sfld (NET.PTP_CFG_LOG_DELAY k))
    let late := (s.ptp k).reqs.filter fun r => decide (r.2.2 + 4 * iv ≤ s.now)
    (s.onPtp k fun x => { x with reqs := x.reqs.filter fun r => !decide (r.2.2 + 4 * iv ≤ s.now) }).ptpErr k (NET.PTP_ERR_LOST k) late.length)

/-- A Pdelay_Resp gives a raw peer delay (R424): `turn` is the time at the peer with all corrections, in 2^-16 ns. -/
def execPdelayRespReceive (k p : Fin 2) (seq : BitVec 16) (turn : Int) (t : Nat) (s : State) : Host.Outcome State Fault Refusal :=
  done (
    let s := s.atTime t
    if s.fld (NET.PTP_CFG_TCMODE k) ≠ 2 ∨ !s.flag (NET.PORT_CFG_EN k p) then s
    else
      let x := s.ptp k
      let r := mget (fun _ => (65536, 0)) x.preqs p
      if r.1 ≠ seq.toNat then s.ptpErr k (NET.PTP_ERR_SEQ k) 1
      else
        let t4 : Int := ((s.now : Int) - s.fld (NET.LAT_INGRESS k p)) * 65536
        let d := (t4 - r.2 - turn) / 2
        let old := mget (fun _ => PathSt.reset) x.peer p
        let m := old.measure d (s.fld TIME.CFG2_PD_JUMP * 65536)
        let s := s.onPtp k fun x =>
          { x with peer := mput (fun _ => PathSt.reset) x.peer p m.1, preqs := mput (fun _ => (65536, 0)) x.preqs p (65536, 0) }
        let s := (s.setI (NET.PDELAY k p) (satInt 32 (asr (m.1.filt.getD 0) 16))).setFlag (NET.PORT_STS_PD_VALID k p) true
        if p.val = s.syncPort k then s.pathSeen k old m.1 d m.2 else s)

/-! ### Commits of TIME -/

/-- Why a RESTEP is refused (R423). -/
def State.restepCheck (s : State) : Nat :=
  let l := s.net.servo.offs.take 8
  let m := s.mode
  firstCause
    [(!(m == 0 || m == 2 || m == 11), cMode), ((upto 4).any fun a => decide (1 < s.axSoon a), cState),
     (decide (l.length < 8) || decide (2000 < spreadOf l), cState)]

def timeCheck (s : State) (o : Nat) (m v : Word) : Nat :=
  let rng := fun f => if inRanges m v f then 0 else cRange
  if o = 0x10 then rng [(16, 4, 4, 15), (0, 16, 10, 10000)]
  else if o = 0x14 then rng [(16, 16, 100, 65535), (8, 8, 1, 255), (0, 8, 1, 255)]
  else if o = 0x18 then (if v.toInt.natAbs ≤ 2147483 then 0 else cRange)
  else if o = 0x30 then (if wbit (v &&& m) 0 then s.restepCheck else 0)
  else 0

def timeApply (s : State) (o : Nat) (_m _old new cmd : Word) : State :=
  if o = 0x10 then
    -- a step that waits is dropped with the source that asked for it (R419)
    let s := s.servoSettle
    if s.wantSrc = s.net.servo.src then s else s.onServo fun v => { v with step := none }
  else if o = 0x18 then (if s.timeState = 0 ∨ (s.timeState = 4 ∧ s.fld TIME.CFG_SRC = 3) then s.setReg TIME.RATE new else s)
  else if o = 0x30 then
    let s := s.when (wbit cmd 1) fun s => s.setN TIME.CNT 0
    s.when (wbit cmd 0) fun s => s.timeStep (medianOf (s.net.servo.offs.take 8)) true
  else s

end Sys2Proof.Machine
end

