-- ==== Sys2Proof/Machine/NetPort.lean ====
section
/-! DEFINITION. NETA and NETB (R431 to R438): the relay, delivery to the receive rings, the transmit rings, MDIO, and the commits of
a network. A frame is given from its destination address to its last data byte, without FCS. -/

namespace Sys2Proof.Machine

def State.port (s : State) (k p : Nat) : PortSt := mget (fun _ => PortSt.reset) s.net.port (2 * k + p)
def State.onPort (s : State) (k p : Nat) (f : PortSt → PortSt) : State :=
  s.onNet fun n => { n with port := mput (fun _ => PortSt.reset) n.port (2 * k + p) (f (s.port k p)) }

/-- The core island runs (R433, R497): out of reset, not in P4, and 2.3 ms into start-up. -/
def State.coreUp (s : State) : Bool :=
  s.sys.phase != 0 && s.power != 4 && (s.sys.phase != 1 || decide (s.sys.start + 2300000 ≤ s.now))

/-- The relay forwards: 3.3 ms into start-up at the latest (R433, R497). -/
def State.relayUp (s : State) : Bool := s.coreUp && (s.sys.phase != 1 || decide (s.sys.start + 3300000 ≤ s.now))

/-! ### What a frame is -/

def frU16 (f : List Byte) (o : Nat) : Nat := beNat ((f.drop o).take 2)
def frByte (f : List Byte) (o : Nat) : Nat := (f.getD o 0).toNat
def frTagged (f : List Byte) : Bool := frU16 f 12 == 0x8100
/-- The offset behind the ethertype. -/
def frBody (f : List Byte) : Nat := if frTagged f then 18 else 14
def frType (f : List Byte) : Nat := frU16 f (frBody f - 2)
def frTci (f : List Byte) : Nat := if frTagged f then frU16 f 14 else 0
def frGroup (f : List Byte) : Bool := bitB (frByte f 0) 0
def frBroad (f : List Byte) : Bool := beNat (f.take 6) == 0xFFFFFFFFFFFF

/-- Whether the frame carries PTP over UDP/IPv4 with a 20-byte header (R427). -/
def frUdpPtp (f : List Byte) : Bool :=
  let b := frBody f
  let d := frU16 f (b + 22)
  frType f == 0x0800 && frByte f b == 0x45 && frByte f (b + 9) == 17 && (d == 319 || d == 320)

/-- The offset of the PTP message of a frame (R427). -/
def frPtp (f : List Byte) : Option Nat :=
  if frType f = 0x88F7 then some (frBody f) else if frUdpPtp f then some (frBody f + 28) else none

/-- The messageType of a PTP frame; 16 for another frame. -/
def frPtpKind (f : List Byte) : Nat :=
  match frPtp f with
  | some o => frByte f o % 16
  | none => 16

/-- A PTP frame with `r` (2^-16 ns) added to its correctionField; the UDP checksum becomes 0 (R431). -/
def frCorrect (f : List Byte) (r : Int) : List Byte :=
  match frPtp f with
  | none => f
  | some o =>
    let c := beNat ((f.drop (o + 8)).take 8)
    let f := f.take (o + 8) ++ beBytes 8 (unsgn 64 ((c : Int) + r)) ++ f.drop (o + 16)
    if frUdpPtp f then f.take (o - 2) ++ [0, 0] ++ f.drop o else f

/-- Whether the transparent clock corrects a message (R431). -/
def State.tcFixes (s : State) (k kind : Nat) : Bool :=
  let m := s.fld (NET.PTP_CFG_TCMODE k)
  (m == 1 && decide (kind ≤ 3)) || (m == 2 && kind == 0)

/-- Whether the transparent clock ends a message at this port (R431). -/
def State.tcEnds (s : State) (k kind : Nat) : Bool :=
  s.fld (NET.PTP_CFG_TCMODE k) == 2 && (kind == 1 || kind == 2 || kind == 3 || kind == 9 || kind == 10)

/-- The class of a frame received on port `p` of network `k`; for a ring frame, `ring` is its descriptor's CLASS (R435). -/
def State.frameClass (s : State) (k p : Nat) (f : List Byte) (ring : Option Nat) : Nat :=
  let et := frType f
  let kind := frByte f (frBody f)
  if (frPtp f).isSome then s.fld (NET.SRC_CLASS_PTP k)
  else if et = 0x88B5 then s.fld (NET.SRC_CLASS_LLP k)
  else if et = 0x88B6 ∧ kind = 1 then s.fld (NET.SRC_CLASS_HREF k)
  else if et = 0x88B6 ∧ kind = 2 then s.fld (NET.SRC_CLASS_BID k)
  else match ring with
    | some c => c
    | none =>
      if frTagged f then bitsOf (s.fld (NET.PCP_MAP_MAP k p)) (2 * (frTci f / 8192)) 2 else s.fld (NET.PORT_CFG_DEF_CLASS k p)

/-- One of the network's port addresses (R433). -/
def State.ownMac (s : State) (k m : Nat) : Bool := m != 0 && (m == s.portMac k 0 || m == s.portMac k 1)

/-! ### Egress (R434, R435) -/

/-- Bytes that a class has queued, with FCS. -/
def PortSt.queued (q : PortSt) (c : Nat) : Nat :=
  (q.queue.filter fun e => e.1.cls == c).foldl (fun n e => n + e.1.bytes.length + 4) 0

/-- A PTP timestamp: 48 bits of seconds and 32 bits of nanoseconds. -/
def ptpTime (ns : Nat) : List Byte := beBytes 6 (ns / 1000000000) ++ beBytes 4 (ns % 1000000000)

/-- A PTP message of the device itself takes its egress stamp `e`: a Sync carries it, a request keeps it, and a Pdelay_Resp adds it to its
correctionField, which holds the request's less the ingress stamp (R427, R429, R430). -/
def State.ptpStamp (s : State) (k p : Nat) (x : TxCur) (b : List Byte) (e : Nat) : State × List Byte :=
  match (if x.ring || !s.ownMac k (beNat ((b.drop 6).take 6)) then none else frPtp b) with
  | none => (s, b)
  | some o =>
    let kind := frByte b o % 16
    let seq := frU16 b (o + 30)
    if kind = 0 then (s, b.take (o + 34) ++ ptpTime e ++ b.drop (o + 44))
    else if kind = 1 then (s.onPtp k fun x => { x with reqs := x.reqs ++ [(seq, (e : Int) * 65536, s.now)] }, b)
    else if kind = 2 then (s.onPtp k fun x => { x with preqs := mput (fun _ => (65536, 0)) x.preqs p (seq, (e : Int) * 65536) }, b)
    else if kind = 3 then (s, frCorrect b ((e : Int) * 65536))
    else (s, b)

/-- A frame leaves at an instant: its egress stamp, and the residence time of a PTP event message (R431). With FCS, gap and preamble it
holds the egress for 80 ns a byte (R435). -/
def State.egress (s : State) (k p : Nat) (x : TxCur) (inAt : Option Nat) (at' : Nat) : State :=
  let e := at' + s.fld (NET.LAT_EGRESS k p)
  let fix := match inAt with
    | some i => s.tcFixes k (frPtpKind x.bytes) && decide (i ≤ e)
    | none => false
  let b := if fix then frCorrect x.bytes (((e : Int) - (inAt.getD 0 : Int)) * 65536) else x.bytes
  let r := s.ptpStamp k p x b e
  r.1.onPort k p fun q => { q with cur := some { x with bytes := r.2, stamp := shortOf e }, till := at' + (b.length + 24) * 80 }

/-- A frame reaches the egress of a port: it leaves at `at'` when the port is idle, and otherwise waits or is dropped. -/
def State.toEgress (s : State) (k p : Nat) (x : TxCur) (inAt : Option Nat) (at' : Nat) : State :=
  let q := s.port k p
  if q.cur.isNone && q.queue.isEmpty && decide (q.till ≤ at') then s.egress k p x inAt at'
  else if 8192 < q.queued x.cls + x.bytes.length + 4 then s.ptpErr k (NET.ERRCNT_DROP k p) 1
  else s.onPort k p fun q => { q with queue := q.queue ++ [(x, inAt.getD 0)] }

/-- A frame of the device itself goes to a port, unless EN of the port is 0 (R438). -/
def State.devSend (s : State) (k p : Nat) (f : List Byte) (at' : Nat) : State :=
  s.when (s.flag (NET.PORT_CFG_EN k p)) fun s => s.toEgress k p ⟨f, s.frameClass k p f none, false, false, false, 0, 0⟩ none at'

/-- Fragment `f` of the bid frame goes to both ports of each network that DSP_CFG.NET selects (R327). -/
def execFragmentSend (f : Fin 3) (t : Nat) (s : State) : Host.Outcome State Fault Refusal :=
  done (
    let s := s.atTime t
    if s.now ≠ t ∨ !s.fragDue f then s
    else
      let nets := s.fld DISPATCH.DSP_CFG_NET
      (s.fragForm f).forAll (upto 4) fun x s =>
        let k := x / 2
        let p := x % 2
        s.when (bitB nets k) fun s =>
          s.devSend k p (s.bidFrame k p) s.now)

/-- The slot of this device (R370 to R372): each PDU goes out of both ports of both networks (R365). -/
def execLlpSlot (t : Through Nat) (s : State) : Host.Outcome State Fault Refusal :=
  done (
    let s := s.atTime t.what
    if s.now = t.what ∧ s.llpSlotNow ∧ s.flag LLP.CFG_EN ∧ s.flag LLP.STS_TIME_OK ∧ s.fld SYS.PWR_STS_STATE ≤ 2 then
      let s := s.llpSlotPdus t.ecc
      s.llp.sent.foldl (fun s d => s.forAll (upto 4) fun x s =>
        s.devSend (x / 2) (x % 2) (s.llpFrame (x / 2) (x % 2) d) s.now) s
    else s)

/-! ### Reception (R433, R436) -/

/-- The buffer of the receive ring's slot at counter `c` (R436). -/
def State.rxBuf (s : State) (k p c : Nat) : Nat :=
  s.fld (NET.RXBUF_BASE k p) + c % s.ringSize (4 * k + 2 * p) * 2 ^ s.fld (NET.RXBUF_BUF_LOG2 k p)

/-- The frame of the entry after counter `c` moves to the buffer of slot `c`, as its entry moves there (R57, R436). -/
def State.rxDown (s : State) (k p c : Nat) : State :=
  { s with sram := wrBytes s.sram (s.rxBuf k p c) (rdBytes s.sram (s.rxBuf k p (c + 1)) (2 ^ s.fld (NET.RXBUF_BUF_LOG2 k p))) }

/-- The entry at counter `c` names the buffer of its own slot. -/
def State.rxName (s : State) (k p c : Nat) : State :=
  s.putEntry (4 * k + 2 * p) c (leBytes 4 (0x20000000 + s.rxBuf k p c) ++ (s.ringEntry (4 * k + 2 * p) c).drop 4)

/-- A delivered frame enters the receive ring (R436). When a full DROP_OLD ring drops its oldest entry outside the snapshot window, the frames
of the entries after it move with them, each to the buffer of its new slot (assumption 20). -/
def State.rxDeliver (s : State) (k p : Nat) (f : List Byte) (relayed : Bool) (stamp : Nat) : State :=
  let n := 4 * k + 2 * p
  let size := 2 ^ s.fld (NET.RXBUF_BUF_LOG2 k p)
  let trunc := decide (size < f.length)
  let full := decide (s.ringSize n ≤ s.ringCnt n)
  let addr := s.rxBuf k p (if full then s.ringHead n + 65535 else s.ringHead n)
  let s := s.when trunc fun s => s.ptpErr k (NET.ERRCNT_TRUNC k p) 1
  let e := leBytes 4 (0x20000000 + addr) ++ leBytes 2 f.length ++
    leBytes 1 (b2n trunc + 2 * b2n (frTagged f) + 4 * b2n (frGroup f) + 8 * b2n relayed) ++
    leBytes 1 (s.frameClass k p f none) ++ leBytes 4 (shortOf stamp) ++ leBytes 2 (frTci f) ++ leBytes 2 0
  let out := min (ringDiff (s.ringHead n) (s.snapReg (RINGS.RING_HEAD n)).toNat) (s.ringCnt n)
  let room := !full || (s.fld (RINGS.RING_CFG_POLICY n) == 1 && decide (0 < out))
  if !room || !s.flag (RINGS.RING_CFG_EN n) then s.hwPush n e
  else
    let moved := if full then (upto (out - 1)).map (s.ringHead n + 65536 - out + ·) else []
    let s := s.forAll moved fun c s => s.rxDown k p c
    let s := { s with sram := wrBytes s.sram addr (f.take size) }
    (s.hwPush n e).forAll moved fun c s => s.rxName k p c

/-- A frame received on a port (R433): `fcs` tells whether its FCS is good, `sfd` the instant at which REF_CLK samples the end of its SFD (R429). PTP, LLP
and bid frames reach their receivers by rows of their own. -/
def execRelayFrame (k p : Fin 2) (f : List Byte) (fcs : Bool) (sfd t : Nat) (s : State) : Host.Outcome State Fault Refusal :=
  done (
    let s := s.atTime t
    if !s.relayUp || decide (f.length < 14) then s
    else
      let s := s.setN (NET.RXCNT k p) (satNat 0xFFFFFFFF (s.regN (NET.RXCNT k p) + 1))
      let kind := frPtpKind f
      let ingress := sfd - s.fld (NET.LAT_INGRESS k p)
      if s.ownMac k (beNat ((f.drop 6).take 6)) then s.ptpErr k (NET.ERRCNT_LOOP k p) 1
      else
        let own := s.ownMac k (beNat (f.take 6))
        let long := decide (1518 < f.length)
        let bad := !fcs || long
        let s := s.when bad fun s => s.ptpErr k (NET.ERRCNT_FCS k p) 1
        let fwd := !own && s.flag (NET.PORT_CFG_RELAY k p) && !s.tcEnds k kind
        let peer := ((mget (fun _ => PathSt.reset) (s.ptp k).peer p).filt).getD 0
        let extra : Int := if s.fld (NET.PTP_CFG_TCMODE k) = 2 ∧ kind = 0 then peer + s.regI (NET.ASYM k p) * 65536 else 0
        let g := f.take 1518
        let x : TxCur := ⟨if extra = 0 then g else frCorrect g extra, s.frameClass k p f none, bad, false, false, 0, 0⟩
        let s := s.when fwd fun s => s.toEgress k (1 - p.val) x (some ingress) (sfd + 2400)
        let ring := s.flag (NET.PORT_CFG_EN k p) && s.flag (NET.PORT_CFG_RXRING k p) && fcs &&
          (own || (frGroup f && (frBroad f || s.flag (NET.PORT_CFG_RXMC k p)))) && kind == 16 && frType f != 0x88B5 &&
          !(frType f == 0x88B6 && (frByte f (frBody f) == 1 || frByte f (frBody f) == 2))
        s.when ring fun s => s.rxDeliver k p f fwd ingress)

/-! ### Transmission (R437, R438) -/

/-- A TX entry of ring 35: status 0 SENT, 1 ABORTED, 2 BAD. -/
def State.txReport (s : State) (k p st tag stamp : Nat) : State :=
  s.ring35 1 (leBytes 1 (2 * k + p) ++ leBytes 1 st ++ leBytes 1 0 ++ leBytes 2 tag ++ leBytes 2 0 ++ leBytes 4 stamp)

/-- Takes the oldest entry off a transmit ring. -/
def State.txPop (s : State) (k p : Nat) : State :=
  let n := 4 * k + 2 * p + 1
  s.ringSet n (s.ringHead n) (s.ringTail n + 1)

/-- A port takes its next frame: the highest class of the frames that wait and of the transmit ring's oldest entry; an invalid entry is
popped instead (R435, R437). -/
def execTxFrame (k p : Fin 2) (t : Through Nat) (s : State) : Host.Outcome State Fault Refusal :=
  done (
    let s := s.atTime t.what
    let q := s.port k p
    let n := 4 * k.val + 2 * p.val + 1
    if !s.coreUp || q.cur.isSome || decide (s.now < q.till) then s
    else
      let best := q.queue.foldl (fun (b : Option (TxCur × Nat)) e =>
        match b with
        | some x => if x.1.cls < e.1.cls then some e else b
        | none => some e) none
      let d := s.ringEntry n (s.ringTail n)
      let addr := leNat (d.take 4)
      let len := leNat ((d.drop 4).take 2)
      let flags := frByte d 6
      let tag := leNat ((d.drop 8).take 2)
      let have' := s.flag (NET.PORT_CFG_EN k p) && s.ringCnt n != 0
      let valid := decide (14 ≤ len) && decide (len ≤ 1518) && decide (0x20100000 ≤ addr) && decide (addr + len ≤ 0x20200000)
      if have' && !valid then
        let s := (s.txPop k p).ptpErr k (NET.ERRCNT_ABORT k p) 1
        s.when (bitB flags 0) fun s => s.txReport k p 2 tag 0
      else
        let b := rdBytes s.sram (addr - 0x20000000) len
        let c := s.frameClass k p b (some (frByte d 7 % 4))
        let take := match best with
          | some x => decide (c ≤ x.1.cls)
          | none => false
        if have' && !take then
          let (b, s) := s.hwEcc (3 + k) t.ecc b
          let x : TxCur := ⟨b ++ List.replicate (60 - len) 0, c, false, true, bitB flags 0, tag, 0⟩
          let s := s.egress k p x none s.now
          s.when (bitB flags 1 && s.flag (NET.PORT_CFG_EN k (1 - p.val))) fun s =>
            s.toEgress k (1 - p.val) { x with ring := false, report := false } none s.now
        else match best with
          | some (x, i) =>
            let s := s.onPort k p fun q => { q with queue := q.queue.erase (x, i) }
            s.egress k p x (if x.ring ∨ i = 0 then none else some i) s.now
          | none => s)

/-- The last byte of a frame is read (R437). -/
def execTxComplete (k p : Fin 2) (t : Nat) (s : State) : Host.Outcome State Fault Refusal :=
  done (
    let s := s.atTime t
    match (s.port k p).cur with
    | none => s
    | some x =>
      if s.now + 1920 < (s.port k p).till then s else
      let s := s.onPort k p fun q => { q with cur := none }
      let s := s.setN (NET.TXCNT k p) (satNat 0xFFFFFFFF (s.regN (NET.TXCNT k p) + 1))
      let s := s.when x.ring fun s => s.txPop k p
      s.when x.report fun s => s.txReport k p 0 x.tag x.stamp)

/-- EN of a port falls: every entry left is popped and reported; a frame that is being sent completes (R438). -/
def State.portStop (s : State) (k p : Nat) : State :=
  let n := 4 * k + 2 * p + 1
  let busy := match (s.port k p).cur with
    | some x => x.ring
    | none => false
  let c := s.ringCnt n - b2n busy
  let first := s.ringTail n + b2n busy
  let s := s.forAll (upto c) fun i s =>
    let d := s.ringEntry n (first + i)
    let s := s.ptpErr k (NET.ERRCNT_ABORT k p) 1
    s.when (bitB (frByte d 6) 0) fun s => s.txReport k p 1 (leNat ((d.drop 8).take 2)) 0
  let s := s.ringSet n (s.ringHead n) (s.ringHead n)
  -- what waits there of the device's own frames is not sent
  s.onPort k p fun q => { q with cur := q.cur.map fun x => { x with ring := false }, queue := q.queue.filter fun e => e.2 != 0 }

/-! ### MDIO (R432) -/

/-- LINK of a port as the poll finds it; a frame in flight is cut when the link is lost (R438). -/
def State.linkTo (s : State) (k p : Nat) (up : Bool) : State :=
  if s.flag (NET.PORT_STS_LINK k p) == up then s
  else
    let s := (s.setFlag (NET.PORT_STS_LINK k p) up).fire (229 + k)
    match (if up then none else (s.port k p).cur) with
    | none => s
    | some x =>
      let s := s.onPort k p fun q => { q with cur := none, till := s.now }
      let s := s.when x.ring fun s => s.txPop k p
      s.when x.report fun s => s.txReport k p 1 x.tag 0

/-- The poll of the PHYs, every 10 ms (R432). -/
def execMdioPoll (k : Fin 2) (up0 up1 : Bool) (t : Nat) (s : State) : Host.Outcome State Fault Refusal :=
  done (
    let s := s.atTime t
    if s.coreUp && s.flag (NET.MDIO_CFG_POLL k) && decide (mget zeroNat s.net.poll k + 10000000 ≤ s.now) then
      ((s.onNet fun n => { n with poll := mput zeroNat n.poll k s.now }).linkTo k 0 up0).linkTo k 1 up1
    else s)

/-- An MDIO access ends 25.6 µs after its start, with the data read. -/
def execMdioComplete (k : Fin 2) (data : BitVec 16) (t : Nat) (s : State) : Host.Outcome State Fault Refusal :=
  done (
    let s := s.atTime t
    let x := mget (fun _ => MdioCmd.none) s.net.mdio k
    if !s.flag (NET.MDIO_STS_BUSY k) || decide (s.now < x.at' + 25600) then s
    else
      let s := s.onNet fun n => { n with mdio := mput (fun _ => MdioCmd.none) n.mdio k MdioCmd.none }
      let s := (s.setFlag (NET.MDIO_STS_BUSY k) false).setFlag (NET.MDIO_STS_DONE k) true
      let s := if x.write then s else s.setFld (NET.MDIO_STS_DATA k) data.toNat
      s.fire 237)

/-! ### Commits of a network -/

def netCheck (s : State) (k o : Nat) (m v : Word) : Nat :=
  let x := v.toNat
  if o = 0x200 then
    let low := fun (l : Nat) => !tch m l 4 || bitsOf x l 4 == 0 || decide (9 ≤ bitsOf x l 4)
    let ann := bitsOf x 4 4
    if inRanges m v [(29, 2, 0, 2), (27, 2, 0, 2), (0, 4, 2, 15)] && low 12 && low 8 && (!tch m 4 4 || decide (ann ≤ 3 ∨ 13 ≤ ann)) then 0
    else cRange
  else if o = 0x234 then (if wbit (v &&& m) 31 && s.flag (NET.MDIO_STS_BUSY k) then cState else 0)
  else 0

/-- What a group leaves in a network. -/
def netGroup (s0 s : State) (k : Nat) : Nat :=
  let any := [0, 1].any
  let moved := fun (a : Nat) => s0.reg a != s.reg a
  let cfg := fun (p : Nat) => moved (NET.PORT_CFG k p)
  let en := any fun p => (cfg p || moved (NET.MAC_LO k p) || moved (NET.MAC_HI k p)) && s.flag (NET.PORT_CFG_EN k p) &&
    (s.portMac k p == 0 || bitB (s.portMac k p) 40)
  let rx := any fun p => (cfg p || moved (NET.RXBUF k p)) && s.flag (NET.PORT_CFG_RXRING k p) &&
    (let l := s.fld (NET.RXBUF_BUF_LOG2 k p)
     let b := s.fld (NET.RXBUF_BASE k p)
     !(decide (7 ≤ l) && decide (l ≤ 11) && decide (0x100000 ≤ b) && decide (b + s.ringSize (4 * k + 2 * p) * 2 ^ l ≤ 0x200000)))
  if en || rx then cRange else 0

/-- The ordinary clock starts again, or stops. -/
def State.ptpRestart (s : State) (k : Nat) : State :=
  let on := s.flag (NET.PTP_CFG_EN k)
  let st := if !on then 0 else if s.fld (NET.PTP_CFG_ROLE k) = 0 then 3 else 4
  (s.onPtp k fun p => { PtpSt.reset with peer := p.peer, preqs := p.preqs, seqReq := p.seqReq, seqSync := p.seqSync,
                                         seqAnn := p.seqAnn, seqPeer := p.seqPeer, sentAt := p.sentAt }).portTo k st

def netApply (s : State) (k o : Nat) (_m old new cmd : Word) : State :=
  if o < 0x200 then
    let p := o / 0x100
    let r := o % 0x100
    if r = 0 then (if wbit old 31 && !wbit new 31 then s.portStop k p else s)
    else if r = 4 ∨ r = 8 then (if p = 0 then s.clockShow k else s)
    else s
  else if o = 0x200 then
    let x := old.toNat
    let y := new.toNat
    let s := if bitsOf x 29 3 = bitsOf y 29 3 ∧ bitsOf x 16 8 = bitsOf y 16 8 then s else s.ptpRestart k
    if bitsOf x 27 2 = bitsOf y 27 2 then s
    else
      let s := s.onPtp k fun p => { p with peer := [], preqs := [] }
      s.forAll [0, 1] fun p s => (s.setN (NET.PDELAY k p) 0).setFlag (NET.PORT_STS_PD_VALID k p) false
  else if o = 0x204 ∨ o = 0x208 then (if s.ptpOn k then s.bmca k else s)
  else if o = 0x234 then
    s.when (wbit cmd 31) fun s =>
      let s := (s.setFlag (NET.MDIO_STS_BUSY k) true).setFlag (NET.MDIO_STS_DONE k) false
      let c := cmd.toNat
      let x : MdioCmd := ⟨wbit cmd 30, bitsOf c 21 5, bitsOf c 16 5, bitsOf c 0 16, s.now⟩
      s.onNet fun n => { n with mdio := mput (fun _ => MdioCmd.none) n.mdio k x }
  else if o = 0x23C then
    let s := s.when (wbit cmd 1) fun s => s.forAll [0, 1] fun p s => (s.setN (NET.RXCNT k p) 0).setN (NET.TXCNT k p) 0
    s.when (wbit cmd 0) fun s => (s.forAll [0, 1] fun p s => s.setN (NET.ERRCNT k p) 0).setN (NET.PTP_ERR k) 0
  else s

end Sys2Proof.Machine
end

