-- ==== Sys2Proof/Machine/PtpSend.lean ====
section
/-! DEFINITION. What the ordinary clocks send (R427 to R431): the frames of PTP messages, as IEEE 1588-2019 lays them out (assumption
102), at their intervals. -/

namespace Sys2Proof.Machine

/-- A PTP message: header and body. The manual names the standard and does not repeat its layout. -/
def State.ptpMsg (s : State) (k kind seq : Nat) (corr : Int) (log : Nat) (body : List Byte) : List Byte :=
  let control := if kind = 0 then 0 else if kind = 1 then 1 else if kind = 9 then 3 else 5
  leBytes 1 kind ++ leBytes 1 0x12 ++ beBytes 2 (34 + body.length) ++ leBytes 1 (s.fld (NET.PTP_CFG_DOMAIN k)) ++ leBytes 3 0 ++
    beBytes 8 (unsgn 64 corr) ++ leBytes 4 0 ++ beBytes 8 (s.clockId k) ++ beBytes 2 1 ++ beBytes 2 seq ++ leBytes 1 control ++
    leBytes 1 log ++ body

/-- The one's complement of the sum of an IPv4 header's 16-bit words. -/
def ipCheck (h : List Byte) : Nat :=
  let n := (upto 10).foldl (fun a i => a + frU16 h (2 * i)) 0
  let n := n % 65536 + n / 65536
  65535 - (n % 65536 + n / 65536)

/-- The frame of a message at a port, over IEEE 802.3 or over UDP/IPv4 (R427). The IPv4 source address, identification and time to live
are free values: the manual gives none (assumption 102). -/
def State.ptpFrame (s : State) (k p : Nat) (msg : List Byte) : List Byte × State :=
  let kind := frByte msg 0 % 16
  let peer := kind == 2 || kind == 3
  let src := beBytes 6 (s.portMac k p)
  if !s.flag (NET.PTP_CFG_UDP k) then
    let f := beBytes 6 (if peer then 0x0180C200000E else 0x011B19000000) ++ src ++ beBytes 2 0x88F7 ++ msg
    (f ++ List.replicate (60 - f.length) 0, s)
  else
    let r := s.free
    let ip := fun (sum : Nat) => beBytes 2 0x4500 ++ beBytes 2 (28 + msg.length) ++ beBytes 2 (r.1 / 2 ^ 40 % 65536) ++ beBytes 2 0 ++
      beBytes 1 (r.1 / 2 ^ 32 % 256) ++ beBytes 1 17 ++ beBytes 2 sum ++ beBytes 4 (r.1 % 2 ^ 32) ++
      beBytes 4 (if peer then 0xE000006B else 0xE0000181)
    let port := if kind < 8 then 319 else 320
    let udp := beBytes 2 port ++ beBytes 2 port ++ beBytes 2 (8 + msg.length) ++ beBytes 2 0
    let f := beBytes 6 (if peer then 0x01005E00006B else 0x01005E000181) ++ src ++ beBytes 2 0x0800 ++ ip (ipCheck (ip 0)) ++ udp ++ msg
    (f ++ List.replicate (60 - f.length) 0, r.2)

/-- A message goes to the ports of a mask. -/
def State.ptpSend (s : State) (k ports : Nat) (msg : List Byte) : State :=
  s.forAll [0, 1] fun p s => s.when (bitB ports p) fun s =>
    let r := s.ptpFrame k p msg
    r.2.devSend k p r.1 s.now

/-- Whether the message `n` of a network (its messageType, with 16 × port for a peer request) is due again. -/
def State.ptpDue (s : State) (k n iv : Nat) : Bool :=
  match (s.ptp k).sentAt.find? fun e => e.1 == n with
  | some e => decide (e.2 + iv ≤ s.now)
  | none => true

/-- The instant of a message is kept. -/
def PtpSt.sent (x : PtpSt) (n now : Nat) : PtpSt := { x with sentAt := (n, now) :: x.sentAt.filter fun e => e.1 != n }

/-- An interval field of PTP_CFG as a message carries it. -/
def State.logByte (s : State) (f : Fld) : Nat := unsgn 8 (s.sfld f)

/-- A Delay_Req leaves on the port of the master's Sync, once an interval (R430). -/
def execDelayReqSend (k : Fin 2) (t : Nat) (s : State) : Host.Outcome State Fault Refusal :=
  done (
    let s := s.atTime t
    let p := s.syncPort k
    if s.ptpOn k && s.follows k && (s.ptp k).sync.isSome && s.fld (NET.PTP_CFG_TCMODE k) != 2 && s.flag (NET.PORT_CFG_EN k p) &&
        s.ptpDue k 1 (logNs (s.sfld (NET.PTP_CFG_LOG_DELAY k))) then
      let msg := s.ptpMsg k 1 (s.ptp k).seqReq 0 0x7F (leBytes 10 0)
      (s.onPtp k fun x => { x.sent 1 s.now with seqReq := (x.seqReq + 1) % 65536 }).ptpSend k (2 ^ p) msg
    else s)

/-- A Pdelay_Req leaves a port under P2P, once an interval (R424). -/
def execPdelayReqSend (k p : Fin 2) (t : Nat) (s : State) : Host.Outcome State Fault Refusal :=
  done (
    let s := s.atTime t
    if s.fld (NET.PTP_CFG_TCMODE k) = 2 ∧ s.flag (NET.PORT_CFG_EN k p) ∧
        s.ptpDue k (2 + 16 * p) (logNs (s.sfld (NET.PTP_CFG_LOG_DELAY k))) then
      let msg := s.ptpMsg k 2 (s.ptp k).seqPeer 0 0x7F (leBytes 20 0)
      (s.onPtp k fun x => { x.sent (2 + 16 * p) s.now with seqPeer := (x.seqPeer + 1) % 65536 }).ptpSend k (2 ^ p.val) msg
    else s)

/-- A Pdelay_Req is answered at its port (R431): its source port, sequenceId and correctionField. -/
def execPdelayReqReceive (k p : Fin 2) (m : PtpReq) (t : Nat) (s : State) : Host.Outcome State Fault Refusal :=
  done (
    let s := s.atTime t
    if s.fld (NET.PTP_CFG_TCMODE k) = 2 ∧ s.flag (NET.PORT_CFG_EN k p) then
      let t2 : Int := ((s.now : Int) - s.fld (NET.LAT_INGRESS k p)) * 65536
      s.ptpSend k (2 ^ p.val) (s.ptpMsg k 3 m.id.seq.toNat (m.corr - t2) 0x7F (leBytes 10 0 ++ beBytes 10 m.id.src.toNat))
    else s)

/-- A Sync of the device as master, one-step, once an interval; its originTimestamp is the egress stamp (R427). -/
def execSyncSend (k : Fin 2) (t : Nat) (s : State) : Host.Outcome State Fault Refusal :=
  done (
    let s := s.atTime t
    if s.portState k = 6 ∧ s.portsOn k ≠ 0 ∧ s.ptpDue k 0 (logNs (s.sfld (NET.PTP_CFG_LOG_SYNC k))) then
      let msg := s.ptpMsg k 0 (s.ptp k).seqSync 0 (s.logByte (NET.PTP_CFG_LOG_SYNC k)) (leBytes 10 0)
      (s.onPtp k fun x => { x.sent 0 s.now with seqSync := (x.seqSync + 1) % 65536 }).ptpSend k (s.portsOn k) msg
    else s)

/-- An Announce of the device as master, once an interval (R427). -/
def execAnnounceSend (k : Fin 2) (t : Nat) (s : State) : Host.Outcome State Fault Refusal :=
  done (
    let s := s.atTime t
    if s.portState k = 6 ∧ s.portsOn k ≠ 0 ∧ s.ptpDue k 11 (logNs (s.sfld (NET.PTP_CFG_LOG_ANN k))) then
      let b := fun (f : Fld) => beBytes 1 (s.fld f)
      let msg := s.ptpMsg k 11 (s.ptp k).seqAnn 0 (s.logByte (NET.PTP_CFG_LOG_ANN k))
        (leBytes 13 0 ++ b (NET.PTP_PRIO_PRIORITY1 k) ++ b (NET.PTP_PRIO_CLASS k) ++ b (NET.PTP_PRIO_ACCURACY k) ++
          beBytes 2 (s.fld (NET.PTP_PRIO2_VARIANCE k)) ++ b (NET.PTP_PRIO_PRIORITY2 k) ++ beBytes 8 (s.clockId k) ++ beBytes 2 0 ++
          b (NET.PTP_PRIO2_TIME_SOURCE k))
      (s.onPtp k fun x => { x.sent 11 s.now with seqAnn := (x.seqAnn + 1) % 65536 }).ptpSend k (s.portsOn k) msg
    else s)

/-- A Delay_Req at the device as master is answered with a Delay_Resp (R427): its source port, sequenceId and correctionField. -/
def execDelayReqReceive (k p : Fin 2) (domain : BitVec 8) (id : PtpId) (corr : Int) (t : Nat) (s : State) :
    Host.Outcome State Fault Refusal :=
  done (
    let s := s.atTime t
    if s.portState k = 6 ∧ s.flag (NET.PORT_CFG_EN k p) ∧ domain.toNat = s.fld (NET.PTP_CFG_DOMAIN k) ∧ s.fld (NET.PTP_CFG_TCMODE k) ≠ 2 then
      s.ptpSend k (s.portsOn k) (s.ptpMsg k 9 id.seq.toNat corr (s.logByte (NET.PTP_CFG_LOG_DELAY k))
        (ptpTime (s.now - s.fld (NET.LAT_INGRESS k p)) ++ beBytes 10 id.src.toNat))
    else s)

end Sys2Proof.Machine
end

