-- ==== Sys2Proof/Machine/Link.lean ====
section
/-! DEFINITION. LINK (R439 to R445): the CAN FD controllers, the UARTs, the SPI master, and the commits to LINK. -/

namespace Sys2Proof.Machine

def State.onLink (s : State) (f : LinkSt → LinkSt) : State := { s with link := f s.link }
def State.can (s : State) (c : Nat) : CanSt := mget (fun _ => CanSt.reset) s.link.can c
def State.onCan (s : State) (c : Nat) (f : CanSt → CanSt) : State :=
  s.onLink fun k => { k with can := mput (fun _ => CanSt.reset) k.can c (f (s.can c)) }
def State.uart (s : State) (u : Nat) : UartSt := mget (fun _ => UartSt.reset) s.link.uart u
def State.onUart (s : State) (u : Nat) (f : UartSt → UartSt) : State :=
  s.onLink fun k => { k with uart := mput (fun _ => UartSt.reset) k.uart u (f (s.uart u)) }

/-! ### CAN FD (R439 to R441) -/

/-- The data bytes of a frame (R440): a classic frame carries at most 8. -/
def canLen (fdf rtr : Bool) (dlc : Nat) : Nat :=
  if rtr then 0 else if dlc ≤ 8 then dlc else if !fdf then 8 else [12, 16, 20, 24, 32, 48, 64].getD (dlc - 9) 64

/-- The enabled filter that accepts a frame (R440). -/
def State.canFilter (s : State) (c id : Nat) (ide : Bool) : Option Nat :=
  (upto 16).find? fun f =>
    s.flag (LINK.CAN_FLT_ID_EN c f) && ((id ^^^ s.fld (LINK.CAN_FLT_ID_ID c f)) &&& s.fld (LINK.CAN_FLT_MASK_MASK c f)) == 0 &&
      (!s.flag (LINK.CAN_FLT_MASK_IDE_M c f) || s.flag (LINK.CAN_FLT_ID_IDE c f) == ide)

/-- A status entry: KIND 1 STATE, 2 TX_DONE, 3 TX_ABORTED; `w` is bytes [13:12]. -/
def State.canStatus (s : State) (c kind w stamp : Nat) : State :=
  s.hwPush (12 + 2 * c) (leBytes 4 stamp ++ leBytes 4 0 ++ leBytes 1 0 ++ leBytes 1 0x80 ++ leBytes 1 kind ++ leBytes 1 0 ++ leBytes 2 w)

/-- A frame from the bus: start-of-frame stamp `sof`. -/
def execCanFrameReceive (c : Fin 2) (id : BitVec 29) (ide rtr fdf brs esi : Bool) (dlc : BitVec 4) (data : List Byte) (sof t : Nat)
    (s : State) : Host.Outcome State Fault Refusal :=
  done (
    let s := s.atTime t
    let f := s.canFilter c id.toNat ide
    let any := (upto 16).any fun i => s.flag (LINK.CAN_FLT_ID_EN c i)
    if s.coreUp && s.flag (LINK.CAN_CFG_EN c) && s.fld (LINK.CAN_STS_STATE c) != 2 && (!fdf || s.flag (LINK.CAN_CFG_FD_EN c)) &&
        (f.isSome || !any) then
      s.hwPush (12 + 2 * c)
        (leBytes 4 (shortOf sof) ++ leBytes 4 (id.toNat + 2 ^ 29 * b2n ide + 2 ^ 30 * b2n rtr) ++ leBytes 1 dlc.toNat ++
          leBytes 1 (b2n fdf + 2 * b2n brs + 4 * b2n esi) ++ leBytes 1 0 ++ leBytes 1 (f.getD 255) ++ leBytes 4 0 ++
          padTo (canLen fdf rtr dlc.toNat) data)
    else s)

/-- An entry that will not be sent (R441). -/
def State.canAbort (s : State) (c : Nat) (e : List Byte) : State :=
  (s.bump (LINK.CAN_ERR_ABORT c) 1).canStatus c 3 (leNat ((e.drop 12).take 2)) (shortOf s.now)

/-- An attempt to send: `res` 0 under way, 1 arbitration lost, 2 an error with its code (R440). -/
def execCanFrameSend (c : Fin 2) (res : Fin 3) (lec : Fin 7) (t : Through Nat) (s : State) : Host.Outcome State Fault Refusal :=
  done (
    let s := s.atTime t.what
    let x := s.can c
    let n := 13 + 2 * c.val
    let on := s.flag (LINK.CAN_CFG_EN c) && s.fld (LINK.CAN_CFG_MODE c) != 1 && s.fld (LINK.CAN_STS_STATE c) != 2 && s.coreUp
    let s := if x.cur.isNone && on then
        match s.ringTake n with
        | some (e, s) =>
          let r := s.hwEcc 17 t.ecc e
          r.2.onCan c fun x => { x with cur := some r.1, stop := false }
        | none => s
      else s
    match (s.can c).cur with
    | none => s
    | some e =>
      if !on && !x.stop then s
      else
        let s := s.setFlag (LINK.CAN_STS_TX_BUSY c) true
        if res = 0 then s
        else
          let s := s.when (res == 2) fun s => (s.bump (LINK.CAN_ERR_ERRFR c) 1).setFld (LINK.CAN_STS_LEC c) lec
          if bitB (frByte e 9) 3 || (s.can c).stop then
            ((s.setFlag (LINK.CAN_STS_TX_BUSY c) false).onCan c fun x => { x with cur := none, stop := false }).canAbort c e
          else s.bump (LINK.CAN_ERR_RETX c) 1)

/-- The frame that is sent has been acknowledged (R440). -/
def execTxDone (c : Fin 2) (sof t : Nat) (s : State) : Host.Outcome State Fault Refusal :=
  done (
    let s := s.atTime t
    match (s.can c).cur with
    | none => s
    | some e =>
      let s := (s.setFlag (LINK.CAN_STS_TX_BUSY c) false).onCan c fun x => { x with cur := none, stop := false }
      s.when (bitB (frByte e 9) 4) fun s => s.canStatus c 2 (leNat ((e.drop 12).take 2)) (shortOf sof))

/-- The error counters change (R441); a controller leaves bus-off only by a recovery. -/
def execCanStateChange (c : Fin 2) (tec rec' : Nat) (lec : Fin 7) (t : Nat) (s : State) : Host.Outcome State Fault Refusal :=
  done (
    let s := s.atTime t
    let old := s.fld (LINK.CAN_STS_STATE c)
    if !s.flag (LINK.CAN_CFG_EN c) || (old == 2 && !(s.can c).rec') then s
    else
      let st := if 256 ≤ tec then 2 else if 128 ≤ tec ∨ 128 ≤ rec' then 1 else 0
      let s := (s.setFld (LINK.CAN_STS_TEC c) (min tec 255)).setFld (LINK.CAN_STS_REC c) (min rec' 255)
      let s := (s.setFlag (LINK.CAN_STS_WARN c) (decide (96 ≤ tec ∨ 96 ≤ rec'))).setFld (LINK.CAN_STS_LEC c) lec
      if st = old then s
      else
        let s := (s.setFld (LINK.CAN_STS_STATE c) st).onCan c fun x => { x with rec' := st == 2 && s.flag (LINK.CAN_CFG_AUTO_REC c) }
        let s := s.when (st == 2) fun s => (s.bump (LINK.CAN_ERR_BUSOFF c) 1).setFlag (LINK.CAN_STS_TX_BUSY c) false
        (s.canStatus c 1 (min tec 255 + 256 * min rec' 255) (shortOf s.now)).fire (233 + c))

/-- EN of a controller falls (R441). -/
def State.canStop (s : State) (c : Nat) : State :=
  let n := 13 + 2 * c
  let l := (upto (s.ringCnt n)).map fun i => s.ringEntry n (s.ringTail n + i)
  let s := s.ringSet n (s.ringHead n) (s.ringHead n)
  let s := s.onCan c fun x => { x with stop := x.cur.isSome }
  l.foldl (fun s e => s.canAbort c e) s

/-! ### UARTs (R442 to R444) -/

/-- A UART error counter increments (source 235). -/
def State.uartErr (s : State) (f : Fld) (n : Nat) : State := if n = 0 then s else (s.bump f n).fire 235

/-- The open receive entry closes; characters that the ring cannot take are counted (R444). -/
def State.uartClose (s : State) (u flags : Nat) : State :=
  let n := 16 + 2 * u
  match (s.uart u).rx with
  | none => s
  | some (stamp, cs) =>
    let s := s.onUart u fun x => { x with rx := none }
    let full := decide (s.ringSize n ≤ s.ringCnt n) && (s.fld (RINGS.RING_CFG_POLICY n) != 1 ||
      ringDiff (s.ringHead n) (s.snapReg (RINGS.RING_HEAD n)).toNat == 0)
    let s := if full then s.uartErr (LINK.UART_ERR_OVERRUN u) cs.length else s
    s.hwPush n (leBytes 4 stamp ++ leBytes 1 (cs.length + flags) ++ padTo 3 cs)

/-- A character, with its errors and the stamp of its start bit (R442 to R444). -/
def execUartCharacterReceive (u : Fin 4) (ch : Byte) (parity framing brk : Bool) (stamp t : Nat) (s : State) :
    Host.Outcome State Fault Refusal :=
  done (
    let s := s.atTime t
    if !s.coreUp || !s.flag (LINK.UART_CFG_EN u) || (s.flag (LINK.UART_STS_DE u) && !s.flag (LINK.UART_CFG_ECHO u)) then s
    else
      let par := parity && s.fld (LINK.UART_CFG_PARITY u) != 0 && !brk
      let fr := framing && !brk
      let ch := if s.flag (LINK.UART_CFG_BITS7 u) then ch &&& 0x7F else ch
      let s := s.setFlag (LINK.UART_STS_BREAK u) brk
      let s := s.when par fun s => s.uartErr (LINK.UART_ERR_PARITY u) 1
      let s := s.when fr fun s => s.uartErr (LINK.UART_ERR_FRAMING u) 1
      let s := s.when brk fun s => s.uartErr (LINK.UART_ERR_BREAK u) 1
      let s := s.onUart u fun x => { x with rxAt := s.now, rx := match x.rx with
        | some (a, cs) => some (a, cs ++ [ch])
        | none => some (shortOf stamp, [ch]) }
      let cnt := match (s.uart u).rx with
        | some (_, cs) => cs.length
        | none => 0
      if par || fr || brk || decide (3 ≤ cnt) then s.uartClose u (4 * b2n par + 8 * b2n fr + 16 * b2n brk) else s)

/-- `n` sixteenths of a bit time, in ns, rounded up: a bit lasts DIV / 3.2 ns (R442). -/
def State.bitNs (s : State) (u n : Nat) : Nat := (n * 10 * s.fld (LINK.UART_BAUD_DIV u) + 511) / 512

/-- The bits of a character, with start, parity and stop bits (R442). -/
def State.charBits (s : State) (u : Nat) : Nat :=
  9 + b2n (!s.flag (LINK.UART_CFG_BITS7 u)) + b2n (s.fld (LINK.UART_CFG_PARITY u) != 0) + b2n (s.flag (LINK.UART_CFG_STOP2 u))

/-- The end of the last stop bit of `n` characters. -/
def State.charsEnd (s : State) (u n : Nat) : Nat := (s.uart u).txAt + s.bitNs u (16 * s.charBits u * n)

/-- No character for IDLE bit times (R444). -/
def execUartIdleGap (u : Fin 4) (t : Nat) (s : State) : Host.Outcome State Fault Refusal :=
  done (
    let s := s.atTime t
    if s.now < (s.uart u).rxAt + s.bitNs u (16 * s.fld (LINK.UART_CFG_IDLE u)) then s else s.uartClose u 32)

/-- The next transmit entry starts, DE_LEAD after DE or right after the characters before it, or (`fin`) the transmission with its DE_LAG
ends (R443, R444). -/
def execUartSend (u : Fin 4) (fin : Bool) (t : Through Nat) (s : State) : Host.Outcome State Fault Refusal :=
  done (
    let s := s.atTime t.what
    if fin then
      let lag := if s.flag (LINK.UART_CFG_RS485 u) then s.bitNs u (s.fld (LINK.UART_CFG_DE_LAG u)) else 0
      let open' := match (s.uart u).tx with
        | some cs => decide (s.now < s.charsEnd u cs.length + lag)
        | none => true
      if open' then s
      else ((s.onUart u fun x => { x with tx := none }).setFlag (LINK.UART_STS_TX_BUSY u) false).setFlag (LINK.UART_STS_DE u) false
    else if !s.flag (LINK.UART_CFG_EN u) || !s.coreUp || (match (s.uart u).tx with
        | some cs => decide (s.now < s.charsEnd u cs.length)
        | none => false) then s
    else match s.ringTake (17 + 2 * u.val) with
      | none => s
      | some (e, s) =>
        let (e, s) := s.hwEcc 17 t.ecc e
        let n := frByte e 0
        if n = 0 ∨ 7 < n then s.uartErr (LINK.UART_ERR_OVERRUN u) 1
        else
          let lead := if s.flag (LINK.UART_CFG_RS485 u) then s.bitNs u (s.fld (LINK.UART_CFG_DE_LEAD u)) else 0
          let first := if (s.uart u).tx.isSome then s.now else s.now + lead
          let s := s.onUart u fun x => { x with tx := some ((e.drop 1).take n), txAt := first }
          (s.setFlag (LINK.UART_STS_TX_BUSY u) true).setFlag (LINK.UART_STS_DE u) (s.flag (LINK.UART_CFG_RS485 u)))

/-- EN of a UART falls (R444). -/
def State.uartStop (s : State) (u : Nat) : State :=
  let n := 17 + 2 * u
  let c := s.ringCnt n
  let s := (s.uartClose u 0).ringSet n (s.ringHead n) (s.ringHead n)
  -- the character being sent completes
  let k := if s.now < (s.uart u).txAt then 0 else (s.now - (s.uart u).txAt) * 32 / (10 * s.fld (LINK.UART_BAUD_DIV u) * s.charBits u) + 1
  let s := s.onUart u fun x => { x with tx := x.tx.map (·.take k) }
  s.hwPush (16 + 2 * u) (leBytes 4 (shortOf s.now) ++ leBytes 1 0x80 ++ leBytes 1 (min c 255))

/-! ### SPI (R445) -/

/-- The transfer ends, with the bytes read: it starts 1 µs after the boundary, and chip select frames its edges by one SCK period. -/
def execSpiComplete (rx : List Byte) (t : Nat) (s : State) : Host.Outcome State Fault Refusal :=
  done (
    let s := s.atTime t
    match s.link.spi with
    | none => s
    | some (_, len, _, at') =>
      if s.now < at' + 1000 + (16 * len + 3) * 5 * (s.fld LINK.SPI_CFG_DIV + 1) then s else
      let old := leBytes 4 (s.regN LINK.SPI_RX0) ++ leBytes 4 (s.regN LINK.SPI_RX1)
      let b := padTo len rx ++ old.drop len
      let s := (s.setN LINK.SPI_RX0 (leNat (b.take 4))).setN LINK.SPI_RX1 (leNat (b.drop 4))
      let s := (s.setFlag LINK.SPI_STS_BUSY false).setFlag LINK.SPI_STS_DONE true
      ((s.wrapAdd LINK.SPI_STS_COUNT 1).onLink fun k => { k with spi := none }).fire 236)

/-! ### Commits to LINK -/

def linkCheck (s : State) (o : Nat) (m v : Word) : Nat :=
  let rng := fun l => if inRanges m v l then 0 else cRange
  let c := v &&& m
  if o < 0x200 then
    let r := o % 0x100
    if r = 0 then rng [(29, 2, 0, 2)]
    else if r = 4 then rng [(16, 8, 1, 255), (8, 7, 1, 127)]
    else if r = 8 then rng [(16, 5, 1, 31), (8, 4, 1, 15)]
    else if r = 0x14 then (if wbit c 1 && s.fld (LINK.CAN_STS_STATE (o / 0x100)) != 2 then cState else 0)
    else 0
  else if 0x400 ≤ o ∧ o < 0x480 then
    let r := o % 0x20
    if r = 0 then rng [(26, 2, 0, 2), (0, 8, 1, 255)] else if r = 4 then rng [(0, 22, 800, 4194303)] else 0
  else if o = 0x600 then rng [(0, 8, 3, 255)]
  else if o = 0x604 then
    let n := bitsOf c.toNat 0 4
    firstCause [((wbit c 31 || tch m 0 4) && !(decide (1 ≤ n) && decide (n ≤ 8)), cRange), (bitsOf c.toNat 24 2 == 3, cRange),
      (wbit c 31 && s.flag LINK.SPI_STS_BUSY, cState)]
  else 0

/-- What a group leaves in LINK (R439). -/
def linkGroup (s0 s : State) : Nat :=
  let moved := fun (a : Nat) => s0.reg a != s.reg a
  let bad := [0, 1].any fun c =>
    let nq := (s.fld (LINK.CAN_NBT_BRP c) + 1) * (s.fld (LINK.CAN_NBT_TSEG1 c) + s.fld (LINK.CAN_NBT_TSEG2 c) + 3)
    let dq := (s.fld (LINK.CAN_DBT_BRP c) + 1) * (s.fld (LINK.CAN_DBT_TSEG1 c) + s.fld (LINK.CAN_DBT_TSEG2 c) + 3)
    (moved (LINK.CAN_NBT c) && (decide (s.fld (LINK.CAN_NBT_TSEG2 c) < s.fld (LINK.CAN_NBT_SJW c)) || decide (nq < 80))) ||
    (moved (LINK.CAN_DBT c) && decide (s.fld (LINK.CAN_DBT_TSEG2 c) < s.fld (LINK.CAN_DBT_SJW c))) ||
    ((moved (LINK.CAN_NBT c) || moved (LINK.CAN_DBT c) || moved (LINK.CAN_CFG c)) && s.flag (LINK.CAN_CFG_FD_EN c) &&
      (decide (dq < 16) || decide (nq < dq)))
  if bad then cRange else 0

def linkApply (s : State) (o : Nat) (_m old new cmd : Word) : State :=
  if o < 0x200 then
    let c := o / 0x100
    let r := o % 0x100
    if r = 0 then
      let s := s.when (wbit new 27 && s.fld (LINK.CAN_STS_STATE c) == 2) fun s => s.onCan c fun x => { x with rec' := true }
      if wbit old 31 && !wbit new 31 then s.canStop c else s
    else if r = 0x14 then
      let s := s.when (wbit cmd 0) fun s => s.setN (LINK.CAN_ERR c) 0
      s.when (wbit cmd 1) fun s => s.onCan c fun x => { x with rec' := true }
    else s
  else if 0x400 ≤ o ∧ o < 0x480 then
    let u := (o - 0x400) / 0x20
    let r := o % 0x20
    if r = 0 then (if wbit old 31 && !wbit new 31 then s.uartStop u else s)
    else if r = 0x10 then s.when (wbit cmd 0) fun s => s.setN (LINK.UART_ERR u) 0
    else s
  else if o = 0x604 then
    s.when (wbit cmd 31) fun s =>
      let len := bitsOf cmd.toNat 0 4
      let b := leBytes 4 (s.regN LINK.SPI_TX0) ++ leBytes 4 (s.regN LINK.SPI_TX1)
      let s := (s.setFlag LINK.SPI_STS_BUSY true).setFlag LINK.SPI_STS_DONE false
      s.onLink fun k => { k with spi := some (bitsOf cmd.toNat 24 2, len, b.take len, s.now) }
  else s

end Sys2Proof.Machine
end

