-- ==== Sys2Proof/Machine/HostPort.lean ====
section
/-! DEFINITION. The host port (R9, R446 to R451): transactions on its windows, host rings, provisioning and HIRQ_N. -/

namespace Sys2Proof.Machine

def State.onHost (s : State) (f : HostSt → HostSt) : State := { s with host := f s.host }

/-- Ring of the host's index 0 to 11. -/
def hostRing (k : Nat) : Nat := if k < 4 then 24 + k else 52 + k

def isHostRing (n : Nat) : Bool := (decide (24 ≤ n) && decide (n ≤ 27)) || (decide (56 ≤ n) && decide (n ≤ 63))

/-- The host is the producer of a ring (R448). -/
def State.hostProduces (s : State) (n : Nat) : Bool :=
  let p := s.fld (RINGS.RING_CFG_PRODUCER n)
  p == 2 || (p == 4 && s.fld (RINGS.RING_CFG_SEL n) == 2)

/-- The host is the consumer of a ring (R448). -/
def State.hostConsumes (s : State) (n : Nat) : Bool :=
  let p := s.fld (RINGS.RING_CFG_PRODUCER n)
  p == 3 || (p == 4 && s.fld (RINGS.RING_CFG_SEL n) == 1)

/-- HIRQ_N (R451). -/
def State.hirqShow (s : State) : State :=
  let on := s.coreUp && (upto 12).any fun k =>
    bitB (s.fld HOSTIF.IRQ_CFG_EN) k && s.hostConsumes (hostRing k) && s.ringCnt (hostRing k) != 0
  s.setFlag HOSTIF.HSTS_HIRQ on

/-- A failed access (R447). -/
def State.hostErr (s : State) (f : Fld) : State := (s.bump f 1).onHost fun h => { h with err := true }

/-- Provisioning is available (R450). -/
def State.provOn (s : State) : Bool := s.flag HOSTIF.HSTS_PROV

/-! ### Provisioning (R103, R450) -/

/-- A provisioning command fails. -/
def State.provFail (s : State) (cause : Nat) : State := s.onHost fun h => { h with psts := 3, pcause := cause, cmd := none }

/-- PROV_CMD is written: OP, SEL, OFFSET. -/
def State.provCmd (s : State) (op sel off : Nat) : State :=
  let ks := rdLE s.mram 8 4
  if !s.provOn then s.onHost fun h => { h with psts := 3, pcause := 1 }
  else if s.host.cmd.isSome then s.onHost fun h => { h with pcause := 7 }
  else
    let cause :=
      if op = 0 ∨ 5 < op then 4
      else if op = 1 ∧ bitB ks (8 + sel) then 3
      else if op = 1 ∧ bitB ks sel then 2
      else if 3 ≤ op ∧ 2 ≤ sel then 4
      else if op = 3 ∧ off % 256 ≠ 0 then 4
      else if op = 5 ∧ !bitB s.host.checked sel then 5
      else 0
    if cause ≠ 0 then s.provFail cause
    else
      s.onHost fun h => { h with psts := 1, pcause := 0, cmd := some (op, sel, off),
                                 checked := if op = 3 ∨ op = 4 then setBits h.checked sel 1 0 else h.checked }

/-- The running command ends; `ok` tells whether the MRAM took its write. -/
def execProvisioningComplete (ok : Bool) (t : Nat) (s : State) : Host.Outcome State Fault Refusal :=
  done (
    let s := s.atTime t
    match s.host.cmd with
    | none => s
    | some (op, sel, off) =>
      let fin := fun (s : State) => s.onHost fun h => { h with psts := 2, pcause := 0, cmd := none }
      let ks := rdLE s.mram 8 4
      if op = 4 then
        if s.bankOk sel then fin (s.onHost fun h => { h with checked := setBits h.checked sel 1 1 }) else s.provFail 5
      else if !ok then s.provFail 6
      else if op = 1 then
        fin { s with mram := wrLE (wrBytes s.mram (0x40 + 64 * (sel % 4)) (rdBytes s.host.buf 0 64)) 8 4 (setBits ks sel 1 1) }
      else if op = 2 then fin { s with mram := wrLE s.mram 8 4 (setBits ks (8 + sel) 1 1) }
      else if op = 3 then fin { s with mram := wrBytes s.mram (imgBase sel + blockOff off) (rdBytes s.host.buf 0 256) }
      else fin { s with mram := wrLE s.mram 0 4 sel })

/-! ### The windows (R448, R449) -/

/-- Slot of an offset in a ring window, if the offset lies in the ring's storage. -/
def State.winSlot (s : State) (n off : Nat) : Option Nat :=
  let q := off / s.ringEnt n
  if q < s.ringSize n then some q else none

/-- The distance of a slot behind a counter. -/
def State.slotAfter (s : State) (n q c : Nat) : Nat := (q + s.ringSize n - c % s.ringSize n) % s.ringSize n

/-- What the host reads at an address; `none` for an access outside the windows or their rights. -/
def State.hostWord (s : State) (a : Nat) : Option Nat :=
  if a = 0 then some (s.regN SYS.ID)
  else if a = 4 then some (s.regN SYS.CAPS)
  else if a = 8 then some (s.regN SYS.LTR)
  else if a = 0xC then some (s.mode + 16 * s.power + 2 ^ 31 * b2n s.provOn)
  else if 0x100 ≤ a ∧ a < 0x500 then
    let n := (a - 0x100) / 16
    if !isHostRing n then none
    else if a % 16 = 0 then some (s.ringHead n)
    else if a % 16 = 4 then some (s.ringTail n)
    else if a % 16 = 8 then some (s.regN (RINGS.RING_CFG n))
    else none
  else if 0x1000 ≤ a ∧ a < 0x1200 then some (rdLE s.sram (0x20000 + 0x200 * s.fld HEALTH.RPT_STS_BANK + (a - 0x1000)) 4)
  else if 0x2000 ≤ a ∧ a < 0x2100 then (if s.provOn then some (rdLE s.host.buf (a - 0x2000) 4) else none)
  else if a = 0x2104 then some (s.host.psts * 2 ^ 30 + s.host.pcause * 2 ^ 24)
  else if 0x400000 ≤ a ∧ a < 0xA00000 then
    let n := hostRing ((a - 0x400000) / 0x80000)
    let off := a % 0x80000
    match s.winSlot n off with
    | some q =>
      if s.hostConsumes n && decide (s.slotAfter n q (s.ringTail n) < s.ringCnt n) then
        some (rdLE s.sram (s.fld (RINGS.RING_BASE_BASE n) + off) 4)
      else none
    | none => none
  else none

/-- A host write of SYS.LTR (R9, R39, R496). -/
def State.hostLtr (s : State) (v : Nat) : State :=
  let pre := if s.host.ltrPre.any fun p => p.1 == s.now then s.host.ltrPre else some (s.now, s.regN SYS.LTR, s.host.ltr)
  let s := (s.setN SYS.LTR v).onHost fun h => { h with ltr := some v, ltrPre := pre }
  if v < exitUs s.power then s.wakeUp 2 0 else s

/-- A host write of HEAD (R449): a head that moves back, or that would overfill the ring, is refused. One at a boundary's instant is not in its
snapshot (R39, R454). -/
def State.hostHead (s : State) (n v : Nat) : State :=
  let v := v % 65536
  if !isHostRing n || !s.hostProduces n then s.hostErr HOSTIF.HERR_DENIED
  else if !s.flag (RINGS.RING_CFG_EN n) || decide (32768 ≤ ringDiff v (s.ringHead n)) then s.hostErr HOSTIF.HERR_RING
  else if s.ringSize n < ringDiff v (s.ringTail n) then
    let s := (s.ringOverflow n).hostErr HOSTIF.HERR_RING
    if s.fld (RINGS.RING_CFG_POLICY n) = 2 then s.setFlag (RINGS.RING_STS_WAITING n) true else s
  else (s.notePush n).ringSet n v (s.ringTail n)

/-- A host write of TAIL (R449). -/
def State.hostTail (s : State) (n v : Nat) : State :=
  let v := v % 65536
  if !isHostRing n || !s.hostConsumes n then s.hostErr HOSTIF.HERR_DENIED
  else if s.ringCnt n < ringDiff v (s.ringTail n) then s.hostErr HOSTIF.HERR_RING
  else (s.ringSet n (s.ringHead n) v).hirqShow

/-- A word that the host writes (R447 to R450). -/
def State.hostPut (s : State) (a v : Nat) : State :=
  if a = 8 then s.hostLtr v
  else if 0x100 ≤ a ∧ a < 0x500 ∧ a % 16 = 0 then s.hostHead ((a - 0x100) / 16) v
  else if 0x100 ≤ a ∧ a < 0x500 ∧ a % 16 = 4 then s.hostTail ((a - 0x100) / 16) v
  else if 0x2000 ≤ a ∧ a < 0x2100 then
    if s.provOn then s.onHost fun h => { h with buf := wrLE h.buf (a - 0x2000) 4 v } else s.hostErr HOSTIF.HERR_DENIED
  else if a = 0x2100 then s.provCmd (bitsOf v 28 4) (bitsOf v 26 2) (bitsOf v 0 22)
  else if 0x400000 ≤ a ∧ a < 0xA00000 then
    let n := hostRing ((a - 0x400000) / 0x80000)
    let off := a % 0x80000
    match s.winSlot n off with
    | some q =>
      if s.hostProduces n && s.flag (RINGS.RING_CFG_EN n) &&
          decide (s.slotAfter n q (s.ringHead n) < s.ringSize n - s.ringCnt n) then
        { s with sram := wrLE s.sram (s.fld (RINGS.RING_BASE_BASE n) + off) 4 v }
      else s.hostErr HOSTIF.HERR_DENIED
    | none => s.hostErr HOSTIF.HERR_DENIED
  else s.hostErr HOSTIF.HERR_DENIED

/-! ### Transactions (R446, R447) -/

/-- A transaction begins: it is counted, and ERR is that of the last one. -/
def State.hostBegin (s : State) : State := (s.wrapAdd HOSTIF.HSTS_TRANS 1).onHost fun h => { h with err := false, out := [] }

/-- Whether a host address is in shared SRAM: the health report and the ring windows. -/
def hostSram (a : Nat) : Bool := decide (0x1000 ≤ a ∧ a < 0x1200) || decide (0x400000 ≤ a ∧ a < 0xA00000)

/-- A read of `n` words from an address; ECC is that of the first word of shared SRAM (R51). -/
def State.hostRead (s : State) (a n : Nat) (t : Through Nat) : State :=
  let s := s.atTime t.what
  if !s.coreUp then s
  else
    let s := s.hostBegin
    if a % 4 ≠ 0 then s.hostErr HOSTIF.HERR_ALIGN
    else
      let at' := fun (i : Nat) => (a + 4 * i) % 0x1000000
      let first := (upto n).find? fun i => hostSram (at' i)
      s.forAll (upto n) fun i s =>
        match s.hostWord (at' i) with
        | some v =>
          let r := s.hwEcc 18 (if some i = first then t.ecc else .clean) (leBytes 4 v)
          r.2.onHost fun h => { h with out := h.out ++ [leNat r.1] }
        | none => (s.hostErr HOSTIF.HERR_DENIED).onHost fun h => { h with out := h.out ++ [0] }

/-- A write of words from an address; `part` tells of a partial last word, which is discarded. -/
def State.hostWrite (s : State) (a : Nat) (ws : List Word) (part : Bool) (t : Nat) : State :=
  let s := s.atTime t
  if !s.coreUp then s
  else
    let s := s.hostBegin
    if a % 4 ≠ 0 then s.hostErr HOSTIF.HERR_ALIGN
    else
      let s := (ws.zipIdx).foldl (fun s w => s.hostPut ((a + 4 * w.2) % 0x1000000) w.1.toNat) s
      (if part then s.hostErr HOSTIF.HERR_ALIGN else s).hirqShow

def execHostRead (a : BitVec 24) (n : Nat) (t : Through Nat) (s : State) : Host.Outcome State Fault Refusal := done (s.hostRead a.toNat n t)
def execHostWrite (a : BitVec 24) (ws : List Word) (part : Bool) (t : Nat) (s : State) : Host.Outcome State Fault Refusal :=
  done (s.hostWrite a.toNat ws part t)
def execHostQuadRead (a : BitVec 24) (n : Nat) (t : Through Nat) (s : State) : Host.Outcome State Fault Refusal :=
  done (s.hostRead a.toNat n t)
def execHostQuadWrite (a : BitVec 24) (ws : List Word) (part : Bool) (t : Nat) (s : State) : Host.Outcome State Fault Refusal :=
  done (s.hostWrite a.toNat ws part t)

/-- The status byte; the read clears ERR (R446). -/
def execHostStatus (t : Nat) (s : State) : Host.Outcome State Fault Refusal :=
  done (
    let s := s.atTime t
    if !s.coreUp then s
    else
      let b := b2n s.host.err + 2 * b2n s.host.cmd.isSome + 4 * b2n (s.flag RANGE.STS_READY) + 128 * b2n (s.flag HOSTIF.HSTS_HIRQ)
      s.hostBegin.onHost fun h => { h with out := [b] })

def execHostLtrWrite (v : Word) (t : Nat) (s : State) : Host.Outcome State Fault Refusal := done (s.hostWrite 8 [v] false t)
def execHostHeadWrite (r : BitVec 6) (v : Word) (t : Nat) (s : State) : Host.Outcome State Fault Refusal :=
  done (s.hostWrite (0x100 + 16 * r.toNat) [v] false t)
def execHostTailWrite (r : BitVec 6) (v : Word) (t : Nat) (s : State) : Host.Outcome State Fault Refusal :=
  done (s.hostWrite (0x104 + 16 * r.toNat) [v] false t)

/-- The word that PROV_CMD takes. -/
def provWord (op sel off : Nat) : Word := BitVec.ofNat 32 (op * 2 ^ 28 + sel * 2 ^ 26 + off)

def execKeyWrite (sel : Fin 4) (t : Nat) (s : State) : Host.Outcome State Fault Refusal :=
  done (s.hostWrite 0x2100 [provWord 1 sel 0] false t)
def execKeyRevoke (sel : Fin 4) (t : Nat) (s : State) : Host.Outcome State Fault Refusal :=
  done (s.hostWrite 0x2100 [provWord 2 sel 0] false t)
def execBankWrite (sel : Fin 4) (off : BitVec 22) (t : Nat) (s : State) : Host.Outcome State Fault Refusal :=
  done (s.hostWrite 0x2100 [provWord 3 sel off.toNat] false t)
def execBankCheck (sel : Fin 4) (t : Nat) (s : State) : Host.Outcome State Fault Refusal :=
  done (s.hostWrite 0x2100 [provWord 4 sel 0] false t)
def execSetActive (sel : Fin 4) (t : Nat) (s : State) : Host.Outcome State Fault Refusal :=
  done (s.hostWrite 0x2100 [provWord 5 sel 0] false t)

/-- The effect of a register item in HOSTIF. -/
def hostifApply (s : State) (o : Nat) (_m _old _new cmd : Word) : State :=
  if o = 0 then s.hirqShow
  else if o = 0xC then s.when (wbit cmd 0) fun s => s.setN HOSTIF.HERR 0
  else s

end Sys2Proof.Machine
end

