-- ==== Sys2Proof/Machine/SelfTest.lean ====
section
/-! DEFINITION. HEALTH (R474 to R485): self-test slots and segments, the ends of a lane's tide that start them, event counters, the health
report, and the commits to HEALTH. -/

namespace Sys2Proof.Machine

def State.onTests (s : State) (f : HealthSt → HealthSt) : State := { s with tests := f s.tests }

/-! ### Segments and slots (R474, R475) -/

/-- The segments of a lane area (R474). -/
def areaSegs : Nat → Nat
  | 1 => 16384
  | 2 => 16384
  | 3 => 8192
  | 4 => 4096
  | 5 => 2048
  | 6 => 1024
  | _ => 0

/-- A lane is out: REMOVED, LOCKOUT or in relief (R143). -/
def State.anyOut (s : State) : Bool := [0, 1, 2].any fun l => decide (3 ≤ s.laneState l)

/-- Whether an on-demand request tests an area of a lane (R478). -/
def reqCovers (r : Nat × Nat) (l a : Nat) : Bool :=
  (r.1 == 3 || r.2 == l) && (if r.1 = 1 then a == 5 else decide (1 ≤ a) && decide (a ≤ 6))

/-- Segments of the request that are left for a lane. -/
def State.demandLeft (s : State) (l : Nat) : Nat :=
  match s.tests.req with
  | none => 0
  | some r => [1, 2, 3, 4, 5, 6].foldl (fun n a => if reqCovers r l a then n + (areaSegs a - mget zeroNat s.tests.demand (16 * l + a)) else n) 0

/-- The next lane in rotation that is VOTING (R475). -/
def State.nextTurn (s : State) (l : Nat) : Nat :=
  ([(l + 1) % 3, (l + 2) % 3, l % 3].find? fun k => s.laneState k == 0).getD l

/-- The slot of a lane that has ended its tide (R475, R479). -/
def State.slotStart (s : State) (l : Nat) : State :=
  if s.tests.turn == l && s.laneState l == 0 && (s.flag HEALTH.ST_CFG_EN || s.demandLeft l != 0) && !s.anyOut &&
      decide (s.power ≤ 1) && s.sys.phase == 2 then
    ((s.setLaneState l 2).onTests fun t => { t with slot := some l, slotEnd := none, slotAt := s.now, segAt := s.now }).fieldSettle
  else s

/-- Closes the open group, presents the record and ends the tide (R79, R121); a self-test slot may start. -/
def execTcommitE (l : Lane) (s : State) : Host.Outcome State Fault Refusal :=
  done (s.runLane l fun x s => (s.setLane l (x.closeGroup.present false)).recordIn.slotStart l)

/-- Discards the open group, presents the record and ends the tide. -/
def execTabortE (l : Lane) (s : State) : Host.Outcome State Fault Refusal :=
  done (s.runLane l fun x s => (s.setLane l (x.abortGroup.present true)).recordIn.slotStart l)

/-- An entry of ring 49 (R484): result 0 PASS_DONE, 1 FAIL, 2 REQ_DONE. -/
def State.ring49 (s : State) (lane area res seg : Nat) : State :=
  s.hwPush 49 (leBytes 4 (shortOf s.now) ++ leBytes 1 lane ++ leBytes 1 area ++ leBytes 1 res ++ leBytes 1 0 ++ leBytes 4 seg)

/-- A self-test failure (R477). -/
def State.testFail (s : State) (lane area seg : Nat) : State :=
  let s := (s.bump HEALTH.ST_FAIL_CNT 1).setFld HEALTH.ST_FAIL_AREA area
  ((s.setFld HEALTH.ST_FAIL_LANE lane).ring49 lane area 1 seg).fire 245

/-- Progress of the pass (R474). -/
def State.progShow (s : State) : State :=
  s.forAll [0, 1, 2] fun l s =>
    let n := [1, 2, 3, 4, 5, 6].foldl (fun n a => n + mget zeroNat s.tests.segs (16 * l + a)) 0
    s.setFld ⟨HEALTH.ST_STS, 8 * l, 8⟩ (min 255 (n * 256 / 48128))

/-- The pass is complete (R474, R476). -/
def State.passDone (s : State) : State :=
  if [0, 1, 2].all fun l => [1, 2, 3, 4, 5, 6].all fun a => mget zeroNat s.tests.segs (16 * l + a) == areaSegs a then
    let s := (s.bump HEALTH.ST_PASS_PASSES 1).setFld HEALTH.ST_PASS_LAST_S (min 65535 ((s.now - s.tests.passAt) / 1000000000))
    let s := s.setFlag HEALTH.ST_STS_LATE false
    let s := s.onTests fun t => { t with segs := [], passAt := s.now }
    (s.ring49 3 0 0 0).fire 245
  else s

/-- The request is complete (R478). -/
def State.reqDone (s : State) : State :=
  match s.tests.req with
  | none => s
  | some r =>
    if [0, 1, 2].all fun l => s.demandLeft l == 0 then
      let s := s.onTests fun t => { t with req := none, demand := [] }
      let s := (s.setFlag HEALTH.ST_STS_QUEUED false).setFlag HEALTH.ST_STS_DEFERRED false
      (s.ring49 (if r.1 = 3 then 3 else r.2) (if r.1 = 1 then 5 else 0) 2 0).fire 246
    else s

/-- Whether a segment of the slot ends at the present instant: one every 50 µs from the slot's start, to P − 1 µs (R474, R475). -/
def State.segDue (s : State) : Bool :=
  let d := s.now - s.tests.slotAt
  decide (s.tests.segAt < s.now) && d % 50000 == 0 && decide (s.now + 1000 ≤ s.gal.edge.due)

/-- A segment of an area completes in the lane's slot, or fails (R474, R475, R477, R478). -/
def execSegmentComplete (l : Lane) (area : Fin 7) (ok : Bool) (t : Nat) (s : State) : Host.Outcome State Fault Refusal :=
  done (
    let s := s.atTime t
    let a := area.val
    let key := 16 * l.val + a
    let n := areaSegs a
    if s.tests.slot ≠ some l.val ∨ a = 0 ∨ !s.segDue then s
    else
      let want := s.demandLeft l != 0
      let cov := match s.tests.req with
        | some r => reqCovers r l a
        | none => false
      let i := if want then mget zeroNat s.tests.demand key else mget zeroNat s.tests.segs key
      let idle := decide (n ≤ i) || (want && !cov) || (!want && !s.flag HEALTH.ST_CFG_EN)
      let s := if idle then s else s.onTests fun t => { t with segAt := s.now }
      if idle then s
      else if !ok then (s.testFail l a i).onTests fun t => { t with failed := setBits t.failed l 1 1 }
      else if want then (s.onTests fun t => { t with demand := mput zeroNat t.demand key (i + 1) }).reqDone
      else ((s.onTests fun t => { t with segs := mput zeroNat t.segs key (i + 1) }).progShow).passDone.progShow)

/-- The background scrub of shared SRAM, once per 10 min: words corrected, and whether it met no double-bit error (R474, R477). -/
def execSramScrub (fixed : Nat) (ok : Bool) (t : Nat) (s : State) : Host.Outcome State Fault Refusal :=
  done (
    let s := s.atTime t
    if !s.coreUp || decide (s.now < s.tests.scrubAt + 600000000000) then s
    else
      let s := s.onTests fun t => { t with scrubAt := s.now }
      let s := s.forAll (upto fixed) fun _ s => (s.onTests fun t => { t with ecc := t.ecc + 1 }).fire 183
      if ok then s else s.testFail 3 8 0)

/-- The check of the running bank's body against BODY_HASH, once per 60 min (R474, R477). -/
def execMramHash (t : Nat) (s : State) : Host.Outcome State Fault Refusal :=
  done (
    let s := s.atTime t
    if !s.coreUp || !s.img.valid || decide (s.now < s.tests.hashAt + 3600000000000) then s
    else
      let s := s.onTests fun t => { t with hashAt := s.now }
      let b := imgBase s.img.bank
      if sha256 (rdBytes s.mram (b + 0x100) (s.hdr s.img.bank 0x24 4)) = beNat (rdBytes s.mram (b + 0x40) 32) then s
      else (s.setFlag HEALTH.ST_STS_IMG_BAD true).testFail 3 9 0)

/-- A pass has not completed within 60 min (R476). -/
def execSelftestLate (t : Nat) (s : State) : Host.Outcome State Fault Refusal :=
  done (
    let s := s.atTime t
    if s.tests.passAt + 3600000000000 ≤ s.now ∧ s.sys.phase = 2 then s.stick HEALTH.ST_STS_LATE else s)

/-- The slot ends: the lane is VOTING at P (R475). -/
def State.slotStop (s : State) : State :=
  let s := s.setFld HEALTH.ST_STS_SLOT (s.tests.slot.getD 3)
  match s.tests.slot with
  | none => s.onTests fun t => { t with slotEnd := none }
  | some l =>
    let s := s.onTests fun t => { t with slot := none, slotEnd := some (l, s.now) }
    if s.laneState l = 2 then s.setLaneState l 0 else s

/-- The turn of the tide that starts, and DEFERRED (R475, R478). -/
def State.slotTurn (s : State) : State :=
  let s := s.onTests fun t => { t with turn := s.nextTurn t.turn }
  s.setFlag HEALTH.ST_STS_DEFERRED (s.tests.req.isSome && s.anyOut)

/-! ### The health report (R483) -/

/-- Words of registers as bytes. -/
def State.wordBytes (s : State) (l : List Nat) : List Byte := l.flatMap fun a => leBytes 4 (s.regN a)

/-- FLAGS of the report. -/
def State.rptFlags (s : State) : Nat :=
  b2n (s.flag RANGE.STS_READY) + 2 * b2n (s.flag HEALTH.ST_STS_LATE) + 4 * b2n (s.flag HEALTH.ST_STS_IMG_BAD) +
    8 * b2n (s.flag DISPATCH.DSP_STS_DIVERGE)

/-- The report of the present boundary, before its CRC; `an` are the die temperature and the four supplies, which are free values. -/
def State.rptBody (s : State) (seq : Nat) (an : List Nat) : List Byte :=
  let a := fun i => an.getD i 0 % 65536
  padTo 0x0C0 (
    leBytes 4 0x48544C48 ++ leBytes 2 1 ++ leBytes 2 seq ++ leBytes 8 (s.now / 1000000000) ++ leBytes 4 (s.now % 1000000000) ++
    s.wordBytes [SYS.ID] ++ leBytes 1 s.mode ++ leBytes 1 s.power ++ leBytes 1 s.rangeState ++ leBytes 1 s.rptFlags ++
    s.wordBytes [GALLERY.TIDE_NUM_LO, GALLERY.VOTE_STS, GALLERY.LANE_STS 0, GALLERY.LANE_STS 1, GALLERY.LANE_STS 2, GALLERY.CHAR_STS,
      GALLERY.NOMAJ_CNT, GALLERY.DIS_CNT 0, GALLERY.DIS_CNT 1, GALLERY.DIS_CNT 2, TIME.STS, TIME.OFFSET, LLP.STS, DISPATCH.DSP_STS,
      DISPATCH.DSP_MEMB, FIELD.DIE_STS 0, FIELD.DIE_STS 1, FIELD.DIE_VF 0, FIELD.DIE_VF 1, LEDGER.STS 0, LEDGER.STS 1, SAFE.STS 0,
      SAFE.STS 1, SAFE.STS 2, POS.FUS_STS, POS.FUS_CONF, HEALTH.ST_STS, HEALTH.ST_PASS, HEALTH.ST_FAIL, RANGE.STS] ++
    leBytes 2 (a 0) ++ leBytes 2 (s.fld KEEPER.STS_VBAT) ++ leBytes 2 (a 1) ++ leBytes 2 (a 2) ++ leBytes 2 (a 3) ++ leBytes 2 (a 4) ++
    leBytes 4 s.keep.nrec ++ leBytes 4 s.tests.ecc ++ leBytes 4 ((s.freeRun - s.sys.startFree) / 1000000000).toNat) ++
  padTo 0xC0 ((upto 32).flatMap fun i => leBytes 6 (s.cnt48 (HEALTH.CNT_LO i))) ++
  padTo 0x7C ((upto 24).flatMap fun k => leBytes 4 (s.regN (HEALTH.PROG k)))

/-- At a boundary: the assembled report is swapped in, and a new one is assembled at the first boundary of a second (R483). -/
def State.healthReport (s : State) : State :=
  let s := match s.tests.report with
    | none => s
    | some stamp =>
      let q := s.fld HEALTH.RPT_STS_SEQ + 1
      let s := (s.setFld HEALTH.RPT_STS_SEQ q).setFld HEALTH.RPT_STS_BANK (1 - s.fld HEALTH.RPT_STS_BANK)
      let s := (s.onTests fun t => { t with report := none }).fire 244
      s.hwPush 48 (leBytes 4 (shortOf stamp) ++ leBytes 2 q ++ leBytes 1 s.tests.rptFlags)
  let sec := s.now / 1000000000
  if s.tests.lastSec = some sec then s
  else
    let p := (upto 5).foldl (fun (p : List Nat × State) _ => (p.1 ++ [p.2.free.1], p.2.free.2)) ([], s)
    let s := p.2
    let b := s.rptBody (s.fld HEALTH.RPT_STS_SEQ + 1) p.1
    let b := b ++ leBytes 4 (crc32c b)
    let bank := 1 - s.fld HEALTH.RPT_STS_BANK
    { s with sram := wrBytes s.sram (0x20000 + 0x200 * bank) b }.onTests fun t =>
      { t with report := some s.now, rptFlags := s.rptFlags, lastSec := some sec }

/-! ### Commits to HEALTH (R478, R480 to R482) -/

def healthCheck (s : State) (o : Nat) (m v : Word) : Nat :=
  if 0x400 ≤ o ∧ o < 0x580 ∧ o % 0x10 = 0 then (if inRanges m v [(0, 4, 0, 9)] then 0 else cRange)
  else if o = 0x704 then
    let c := v &&& m
    let k := bitsOf c.toNat 28 3
    firstCause [((wbit c 31 || tch m 28 3) && decide (k = 0 ∨ 3 < k), cRange), (bitsOf c.toNat 24 2 == 3, cRange),
      (wbit c 31 && s.tests.req.isSome, cState)]
  else 0

def healthApply (s : State) (o : Nat) (_m _old _new cmd : Word) : State :=
  if o = 0x600 then
    s.forAll (upto 32) fun i s => s.when (wbit cmd i) fun s => (s.setN (HEALTH.CNT_LO i) 0).setN (HEALTH.CNT_HI i) 0
  else if o = 0x604 then
    s.flushTally.forAll (upto 24) fun i s =>
      s.when (wbit cmd i) fun s => (s.setN (HEALTH.LCNT_LO (i / 8) (i % 8)) 0).setN (HEALTH.LCNT_HI (i / 8) (i % 8)) 0
  else if o = 0x608 then
    s.forAll (upto 32) fun i s =>
      s.when (wbit cmd i) fun s =>
        s.hwPush 50 (leBytes 4 (shortOf s.now) ++ leBytes 1 i ++ leBytes 3 0 ++ leBytes 6 (s.cnt48 (HEALTH.CNT_LO i)))
  else if o = 0x704 then
    s.when (wbit cmd 31) fun s =>
      let s := s.onTests fun t => { t with req := some (bitsOf cmd.toNat 28 3, bitsOf cmd.toNat 24 2), demand := [] }
      (s.setFlag HEALTH.ST_STS_QUEUED true).setFlag HEALTH.ST_STS_DEFERRED s.anyOut
  else s

end Sys2Proof.Machine
end

