-- ==== Sys2Proof/Machine/Gallery.lean ====
section
/-! DEFINITION. GALLERY and RINGS: characteristics (R144, R145), the rows of relief (R146 to R153), DOUBT_LEFT (R141), the commits to
GALLERY, and rings under commits (R54 to R60). -/

namespace Sys2Proof.Machine

/-! ### Lane states -/

/-- A field of three lane bits with one lane's bit set or cleared. -/
def State.laneBit (s : State) (f : Fld) (l : Nat) (b : Bool) : State := s.setFld f (setBits (s.fld f) l 1 (b2n b))

/-- VOTE_STS.VOTE. -/
def State.voteShow (s : State) : State :=
  let n := s.voters.length
  s.setFld GALLERY.VOTE_STS_VOTE (if n = 3 then 0 else if n = 2 then 1 else 2)

/-- A lane is no longer judged by its characteristics (R144). -/
def State.charOff (s : State) (l : Nat) : State :=
  let s := ((s.laneBit GALLERY.CHAR_STS_SILENT l false).laneBit GALLERY.CHAR_STS_WIRE_LOST l false).laneBit GALLERY.CHAR_STS_GAL_LOST l false
  s.onGal fun g =>
    { g with silent := setBits g.silent l 1 0, chars := mput zeroNat (mput zeroNat g.chars (2 * l) 0) (2 * l + 1) 0 }

/-- A lane is removed (R141, R142). -/
def State.laneRemove (s : State) (l cause : Nat) : State :=
  let s := (s.setLaneState l 3).setFld (GALLERY.LANE_STS_DOUBT_LEFT l) 0
  let s := (s.laneCause l cause).charOff l
  let s := s.onLane l fun x => { x with run := false }
  if s.recipient = some l then s.reliefIdle else s

/-- A DOUBTFUL lane whose DOUBT_LEFT is 0 returns to VOTING (R141). -/
def State.doubtExpire (s : State) (l : Nat) : State :=
  if s.laneState l = 1 ∧ s.fld (GALLERY.LANE_STS_DOUBT_LEFT l) = 0 then s.setLaneState l 0 else s

def execDoubtExpiry (l : Lane) (s : State) : Host.Outcome State Fault Refusal := done (s.doubtExpire l)

/-! ### Characteristics (R144, R145) -/

/-- Whether a lane is judged. -/
def State.judged (s : State) (l : Nat) : Bool := let st := s.laneState l; decide (st ≤ 2 ∨ st = 7)

/-- The path fault bits: path 0 through the gallery, path 1 the lane ring wire. -/
def pathFld (path : Nat) : Fld := if path = 0 then GALLERY.CHAR_STS_GAL_LOST else GALLERY.CHAR_STS_WIRE_LOST

/-- The sixteenth characteristic in a row clears a path fault. -/
def State.pathClear (s : State) (l path : Nat) : State :=
  if 16 ≤ mget zeroNat s.gal.chars (2 * l + path) then s.laneBit (pathFld path) l false else s

/-- A characteristic is received on a path by both other lanes; a SILENT lane then has a path fault on both paths until they clear. -/
def State.charHeard (s : State) (l path : Nat) : State :=
  let n := mget zeroNat s.gal.chars (2 * l + path)
  let s := s.onGal fun g =>
    { g with chars := mput zeroNat g.chars (2 * l + path) (min 16 (n + 1)), heard := mput zeroNat g.heard (2 * l + path) s.now }
  let s := if bitB (s.fld GALLERY.CHAR_STS_SILENT) l then
      ((s.laneBit GALLERY.CHAR_STS_SILENT l false).laneBit GALLERY.CHAR_STS_GAL_LOST l true).laneBit GALLERY.CHAR_STS_WIRE_LOST l true
    else s
  s.pathClear l path

/-- A characteristic that is not received on a path ends the run of consecutive ones (R145). -/
def State.charMissed (s : State) (l path : Nat) : State :=
  s.onGal fun g => { g with chars := mput zeroNat g.chars (2 * l + path) 0 }

/-- A lane's characteristic, and the paths on which it is received. -/
def execCharacteristic (l : Lane) (gal wire : Bool) (t : Nat) (s : State) : Host.Outcome State Fault Refusal :=
  done (
    let s := s.atTime t
    if !s.judged l then s
    else
      -- a lane that its rail holds in reset sends none (R516)
      let up := !(s.lane l).railHeld
      let s := if gal && up then s.charHeard l 0 else s.charMissed l 0
      if wire && up then s.charHeard l 1 else s.charMissed l 1)

/-- A lane has not been heard on a path for 40 µs. It is SILENT when it has not been heard on the other path for 40 µs either: the model takes a
loss to end with the next characteristic on that path, while the path fault stays until the sixteenth (assumption 22). -/
def execCharacteristicTimeout (l : Lane) (path : Fin 2) (t : Nat) (s : State) : Host.Outcome State Fault Refusal :=
  done (
    let s := s.atTime t
    if !s.judged l || bitB (s.fld GALLERY.CHAR_STS_SILENT) l || decide (s.now < mget zeroNat s.gal.heard (2 * l + path) + 40000) then s
    else
      let s := s.charMissed l path
      if mget zeroNat s.gal.heard (2 * l + (1 - path)) + 40000 ≤ s.now then
        let s := (s.laneBit (pathFld 0) l false).laneBit (pathFld 1) l false
        (s.laneBit GALLERY.CHAR_STS_SILENT l true).onGal fun g => { g with silent := setBits g.silent l 1 1 }
      else if bitB (s.fld (pathFld path)) l then s
      else (s.laneBit (pathFld path) l true).logHw 0xA l)

def execPathFaultClear (l : Lane) (path : Fin 2) (s : State) : Host.Outcome State Fault Refusal := done (s.pathClear l path)

/-! ### Relief (R146 to R153) -/

def State.onRelief (s : State) (f : ReliefSt → ReliefSt) : State := s.onGal fun g => { g with relief := f g.relief }

/-- The keys from `a` to `b - 1` of the registers are copied to keys higher by `d - a`; `z` gives the reset values. -/
def copyRegs (z : Nat → Word) (m : List (Nat × Word)) (a b d : Nat) : List (Nat × Word) :=
  (mrange m a b).foldl (fun m p => mput z m (p.1 - a + d) p.2) (merase m d (d + (b - a)))

/-- The control engine of a lane is cleared (R146). -/
def State.engClear (s : State) (l : Nat) : State :=
  let k := keyOf l 0x40090000
  ({ s with regs := merase s.regs k (k + 0x10000) }).onLane l fun x => { x with eng := [] }

/-- The core of the recipient has been reset and loaded; `ok` tells whether its IRAM reads back right (R146). A lane whose rail is out
stays in RESET (R516), and a bad running bank ends the relief (R477). -/
def execReliefResetDone (ok : Bool) (t : Nat) (s : State) : Host.Outcome State Fault Refusal :=
  done (
    let s := s.atTime t
    match s.recipient with
    | none => s
    | some l =>
      if s.laneState l ≠ 4 ∨ (s.lane l).railLost then s
      else if s.flag HEALTH.ST_STS_IMG_BAD || !s.img.valid then s.reliefStop l
      else if !ok then s.reliefFail l 8
      else
        let s := (s.laneLoad s.img.bank l false).engClear l
        let s := s.onLane l fun x => { x with clkLost := false, railHeld := false }
        s.setLaneState l 5)

/-- The self-test of the recipient ends (R146, R153). -/
def execReliefSelftestDone (ok : Bool) (t : Nat) (s : State) : Host.Outcome State Fault Refusal :=
  done (
    let s := s.atTime t
    match s.recipient with
    | none => s
    | some l =>
      if s.laneState l ≠ 5 then s
      else if ok then (s.setLaneState l 6).onRelief fun _ => ReliefSt.idle
      else s.reliefFail l 7)

/-- The copy aborts because of its donor: the recipient stays REMOVED (R147). -/
def State.donorFail (s : State) (l : Nat) : State := s.reliefStop l

/-- The donor's copy port has met an uncorrectable error: the copy aborts, and the device enters DARK at the next boundary (R131, R147). -/
def State.donorEcc (s : State) (l : Nat) : State := (s.donorFail l).onSys fun x => { x with darks := x.darks ++ [5] }

/-- The bulk pass has sent its 5152 lines. Of the lines that the donor wrote meanwhile those are dirty that had been sent before the
write (R148); the manual gives neither the order of the lines nor the instant of a store, so which they are is free (assumption 2). -/
def State.bulkDone (s : State) : State :=
  let f := s.free
  (f.2.onLane (s.fld GALLERY.RELIEF_STS_DONOR) fun x =>
    { x with dirty := (x.dirty.zipIdx.filter fun p => bitB f.1 (2 * p.2)).map (·.1)
             engDirty := (x.engDirty.zipIdx.filter fun p => bitB f.1 (2 * p.2 + 1)).map (·.1) }).onRelief fun r => { r with phase := 2 }

/-- The bulk pass is complete; `donorOk` tells whether the donor's port met no uncorrectable error (R147, R149). -/
def execBulkPassComplete (donorOk : Bool) (t : Nat) (s : State) : Host.Outcome State Fault Refusal :=
  done (
    let s := s.atTime t
    match s.recipient with
    | none => s
    | some l =>
      if s.laneState l ≠ 6 ∨ s.gal.relief.phase ≠ 1 then s
      else if !donorOk then s.donorEcc l
      else if s.now < s.gal.relief.at' + 164864 then s
      else s.bulkDone)

/-- No deadline pass within 16 tides after the bulk pass: the copy aborts (R149). -/
def State.copyAbort (s : State) : State :=
  if s.gal.relief.phase = 2 ∧ 16 ≤ s.gal.relief.tides then
    (s.setN GALLERY.RELIEF_STS (setBits (s.regN GALLERY.RELIEF_STS) 4 4 0)).onRelief fun r => { r with phase := 4, at' := s.now }
  else s

def execCopyAbort (t : Nat) (s : State) : Host.Outcome State Fault Refusal := done ((s.atTime t).copyAbort)

/-- 1 s after an abort, relief returns to COPY (R149). -/
def execReliefRetry (t : Nat) (s : State) : Host.Outcome State Fault Refusal :=
  done (
    let s := s.atTime t
    let r := s.gal.relief
    if r.phase = 4 ∧ r.at' + 1000000000 ≤ s.now then (s.setFld GALLERY.RELIEF_STS_DONOR 3).onRelief fun _ => ReliefSt.idle else s)

/-- The final pass: the recipient takes the donor's lane state (R148, R149). -/
def State.copyLane (s : State) (d l : Nat) : State :=
  let r := copyRegs s.rst s.regs (keyOf d 0x40090000) (keyOf d 0x40090000 + 0x10000) (keyOf l 0x40090000)
  let r := copyRegs s.rst r (keyOf d 0x400C0020) (keyOf d 0x400C00C0) (keyOf l 0x400C0020)
  let s := { s with regs := r }
  let s := s.forAll (upto 8) fun j s =>
    (s.setReg (HEALTH.LCNT_LO l j) (s.reg (HEALTH.LCNT_LO d j))).setReg (HEALTH.LCNT_HI l j) (s.reg (HEALTH.LCNT_HI d j))
  let y := s.lane d
  s.onLane l fun x => { x with dram := y.dram, eng := y.eng, tally := y.tally }

/-- A lane's tide starts: registers, status and record begin anew with the presented events (R63, R85, R120). -/
def State.tideStart (s : State) (l : Nat) (set : List (Nat × Pres)) : State :=
  s.onLane l fun x =>
    let x := { x with g := [], acc := [], sw := 0, tp := 0, tv := 0, pc := s.img.entry, wait := none, stage := Stage.empty, pres := [],
                      last := 0, lost := 0, run := true }
    (x.elem 1 0 (s.regN GALLERY.TIDE_NUM_LO) (s.regN GALLERY.TIDE_NUM_HI) 0).addPres set

/-- The copy commits at B + 4 µs (`res` 0), fails at the recipient (1), or meets an uncorrectable error at the donor's port (2) (R147,
R149, R151, R153). -/
def execCopyCommit (res : Fin 3) (t : Nat) (s : State) : Host.Outcome State Fault Refusal :=
  done (
    let s := s.atTime t
    match s.recipient with
    | none => s
    | some l =>
      if s.laneState l ≠ 6 ∨ s.gal.relief.phase ≠ 5 then s
      else if res.val = 2 then s.donorEcc l
      else if res.val = 1 then s.reliefFail l 5
      else if s.now < s.gal.edge.last + 4000 then s
      else
        let s := ((s.setLaneState l 7).setFld (GALLERY.LANE_STS_SHADOW_CNT l) 0).charOn l
        if s.gal.started then s.tideStart l s.gal.tidePres else s)

/-- After 64 matching shadow tides the lane returns to VOTING (R146, R152). -/
def State.shadowReturn (s : State) (l : Nat) : State :=
  if s.laneState l = 7 ∧ 64 ≤ s.fld (GALLERY.LANE_STS_SHADOW_CNT l) then (s.setLaneState l 0).reliefIdle.voteShow.fieldSettle else s

def execShadowReturn (l : Lane) (s : State) : Host.Outcome State Fault Refusal := done (s.shadowReturn l)

/-! ### Commits to GALLERY -/

def galleryCheck (s : State) (o : Nat) (m v : Word) : Nat :=
  if o = 0 then
    firstCause
      [(!inRanges m v [(16, 7, 10, 100), (0, 12, 250, 4000)], cRange),
       (s.img.valid && decide (bitsOf v.toNat 0 12 * 1000 < s.img.wcet + (bitsOf v.toNat 16 7 + 5) * 1000), cBudget)]
  else if o = 0x140 then
    let c := v &&& m
    if [0, 1, 2].any fun l => wbit c (4 + l) && s.laneState l != 3 && s.laneState l != 8 then cState else 0
  else 0

def galleryApply (s : State) (o : Nat) (_m _old _new cmd : Word) : State :=
  if o = 8 then
    (s.when (wbit cmd 4) fun s => s.setFlag GALLERY.TIDE_STS_BELL_OVR false).when (wbit cmd 3) fun s =>
      s.setFlag GALLERY.TIDE_STS_SNAP_MIS false
  else if o = 0x140 then
    s.forAll [0, 1, 2] fun l s =>
      s.when (wbit cmd (4 + l)) fun s =>
        if s.recipient.isNone && !s.flag HEALTH.ST_STS_IMG_BAD then s.reliefStart l
        else s.onGal fun g => { g with relPend := setBits g.relPend l 1 1 }
  else s

/-! ### Rings under commits -/

def ringsCheck (s : State) (o : Nat) (m v : Word) : Nat :=
  if o % 32 = 4 then
    firstCause
      [(!inRanges m v [(14, 2, 0, 2), (8, 2, 0, 2), (4, 3, 3, 7), (0, 4, 4, 12)], cRange),
       (bitsOf v.toNat 8 2 == 2 && !s.flag (RINGS.RING_CFG_CANWAIT (o / 32)), cRing)]
  else 0

/-- What a group leaves of the rings (R59, alignment of BASE, WMARK). -/
def ringsGroup (s0 s : State) : Nat :=
  (upto 64).foldl (fun c n =>
    if c ≠ 0 then c
    else
      let moved := fun (k : Nat) => s0.reg k != s.reg k
      if !moved (RINGS.RING_BASE n) && !moved (RINGS.RING_CFG n) && !moved (RINGS.RING_WMARK n) then 0
      else
        let geo := moved (RINGS.RING_BASE n) || decide (s0.fld ⟨RINGS.RING_CFG n, 0, 7⟩ ≠ s.fld ⟨RINGS.RING_CFG n, 0, 7⟩)
        if (geo && s0.flag (RINGS.RING_CFG_EN n) && s.flag (RINGS.RING_CFG_EN n)) ||
            s.fld (RINGS.RING_BASE_BASE n) % (s.ringSize n * s.ringEnt n) != 0 then cRing
        else if s.ringSize n < s.fld (RINGS.RING_WMARK_WMARK n) then cRange
        else 0) 0

def ringsApply (s : State) (o : Nat) (_m old new cmd : Word) : State :=
  let n := o / 32
  if o % 32 = 4 then
    if wbit new 31 && !wbit old 31 then
      let s := { s with ringWait := mput (fun _ => []) s.ringWait n [], ringOff := s.ringOff.filter fun p => p.1 != n }
      (s.ringSet n 0 0).setFlag (RINGS.RING_STS_WAITING n) false
    else
      let s := if wbit old 31 && !wbit new 31 then { s with ringOff := mput zeroNat s.ringOff n s.now } else s
      s.ringSet n (s.ringHead n) (s.ringTail n)
  else if o % 32 = 0x1C then
    (s.when (wbit cmd 1) fun s => s.setN (RINGS.RING_DROPS n) 0).when (wbit cmd 0) fun s => s.setFlag (RINGS.RING_STS_OVF n) false
  else s

/-- Why a push is refused (R56). -/
def State.pushRefused (s : State) (n : Nat) (dropOld : Bool) : Nat :=
  if !s.flag (RINGS.RING_CFG_EN n) || (!dropOld && decide (s.ringSize n ≤ s.ringCnt n)) then cRing else 0

/-- A push is applied; the tail advance of DROP_OLD is made only if the ring is still full (R56, R57). -/
def State.pushApply (s : State) (n : Nat) (e : List Byte) : State :=
  let h := s.ringHead n
  if s.ringSize n ≤ s.ringCnt n then ((s.ringOverflow n).putEntry n h e).ringSet n (h + 1) (s.ringTail n + 1)
  else (s.putEntry n h e).ringSet n (h + 1) (s.ringTail n)

/-- A pop is applied; a waiting producer goes on (R56, R57). -/
def State.popApply (s : State) (n : Nat) : State :=
  let s := s.ringSet n (s.ringHead n) (s.ringTail n + 1)
  if s.flag (RINGS.RING_STS_WAITING n) then s.ringResume n else s

/-- A BLOCK producer that waits writes its entry (R57). -/
def execRingProducerResume (r : Fin 64) (t : Nat) (s : State) : Host.Outcome State Fault Refusal :=
  done (
    let s := s.atTime t
    let n := r.val
    if s.flag (RINGS.RING_STS_WAITING n) && decide (s.ringCnt n < s.ringSize n) then s.ringResume n else s)

end Sys2Proof.Machine
end

