-- ==== Sys2Proof/Machine/MotionCommit.lean ====
section
/-! DEFINITION. Commits to MOTION: what is refused (R203, R205, R207 to R213, R216 to R220, R225, R226, R231, R232) and what is
done. -/

namespace Sys2Proof.Machine

/-- The window of an axis as an entry. -/
def State.window (s : State) (a : Nat) : MoveReq :=
  ⟨s.fld (MOTION.MQ_FLAGS_MODE a), s.pos48 (MOTION.MQ_TGT_LO a), s.regN (MOTION.MQ_V a), s.regN (MOTION.MQ_A a),
   s.regN (MOTION.MQ_D a), s.regN (MOTION.MQ_J a), s.fld (MOTION.MQ_FLAGS_TAG a), s.flag (MOTION.MQ_FLAGS_BLEND a),
   s.fld (MOTION.MQ_FLAGS_LANDING a)⟩

/-- The direction of an entry from the target before it: 1, -1 or 0. -/
def State.entryDir (s : State) (a : Nat) (r : MoveReq) (before : Int) : Int :=
  if r.mode = 2 then (if sgn 32 r.v < 0 then -1 else 1) else (s.rawTarget a r before - before).sign

/-- How many ticks from the last one to that at which an item of this instant takes effect (R134, R202). -/
def State.tickSpan (s : State) : Nat :=
  match s.tickAt with
  | none => 1
  | some k => if k = s.now then 1 else ((s.now + 31249) / 31250 * 31250 - k) / 31250

/-- Axis `a` as the planner projects it for the tick at which an item of this instant takes effect, before the waiting items (R212). -/
def State.axAhead (s : State) (a : Nat) : State :=
  let x := s.ax a
  let u := s.onAx a fun y => { y with acts := [], faultPend := none, revPend := false }
  let u := (upto (min 8 (s.tickSpan - 1))).foldl (fun (u : State) _ =>
    let seg := (u.ax a).prof.seg
    ((u.axAdvance a).axQueue a seg).axRest a) u
  ((u.axAdvance a).axShow a).onAx a fun y => { y with acts := x.acts }

/-- Whether the axis executes a move at the tick of the waiting items. -/
def State.axMoves (s : State) (a : Nat) : Bool := s.axState a == 2 && (s.ax a).exec.isSome && s.axSoon a == 2

/-- The queue that the waiting items leave. -/
def State.queueSoon (s : State) (a : Nat) : List MoveReq :=
  (s.ax a).acts.foldl (fun q x =>
    match x with
    | .push r => q ++ [r]
    | .replace r => if s.axMoves a then q else r :: q
    | .flush => []
    | .stop => []
    | .qstop => []
    | .disable => []
    | _ => q) (s.ax a).queue

/-- The last entry before a push: whether it runs on (BLEND or VEL), its direction and its target (R213). -/
def State.lastEntry (s : State) (a : Nat) : Bool × Int × Int :=
  let y := s.ax a
  let here := um ((s.sp a).1 / 65536)
  let first : Bool × Int × Int := match y.exec with
    | some x =>
      if s.axState a = 2 then
        let d := if x.req.mode = 2 then s.entryDir a x.req here else (x.tgt - here).sign
        (x.req.blend || x.req.mode == 2, d, if x.req.mode = 2 then s.pos48 (MOTION.STOP_POS_LO a) else x.tgt)
      else (false, 0, here)
    | none => (false, 0, here)
  (s.queueSoon a).foldl (fun (p : Bool × Int × Int) r =>
    (r.blend || r.mode == 2, s.entryDir a r p.2.2, if r.mode = 2 then p.2.2 else s.rawTarget a r p.2.2)) first

/-- Why a PUSH or REPLACE of the window is refused; 0 when it is not. Position, motion and STOP_POS are those that the planner projects for the
apply tick (R212). -/
def State.pushCheck (s : State) (a : Nat) (replace : Bool) : Nat :=
  let r := s.window a
  let st := s.axSoon a
  let u := s.axAhead a
  let y := u.ax a
  let land := decide (r.mode = 3 ∨ r.mode = 4)
  let e := (s.effOf a r).1
  let moving := u.axMoves a && y.prof.segs != []
  let last := u.lastEntry a
  let here := u.pos48 (MOTION.SP_POS_LO a)
  -- a replacement follows the executing move, a push the last entry (assumption 35)
  let before := if replace && moving then y.prevTgt.getD here else last.2.2
  let tgt := clampInt (s.softLo a) (s.softHi a) (s.rawTarget a r before)
  let stop := u.pos48 (MOTION.STOP_POS_LO a)
  let up := match y.exec with
    | some x => decide (here ≤ x.tgt)
    | none => true
  let reverse := !(replace && moving) && last.1 && decide (last.2.1 * s.entryDir a r last.2.2 < 0)
  let short := replace && moving && (if up then decide (tgt < stop) else decide (stop < tgt))
  firstCause
    [(land && a != 0, cMode), (a == 0 && s.mode == 11, cMode), (a == 0 && r.mode == 4 && s.mode == 5, cMode),
     (land && decide (s.fld SYS.CAPS_MAX_LANDING < r.landing), cVariant), (land && !s.flag POS.MAP_STS_VALID, cState),
     (decide (st = 0 ∨ st = 4 ∨ st = 5), cState), (!(replace && moving) && decide (16 ≤ (s.queueSoon a).length), cState),
     (decide (e.v = 0 ∨ e.a = 0 ∨ e.d = 0 ∨ e.j = 0), cRange),
     (decide (r.mode = 4) && (decide (st ≠ 1) || decide (s.fld MOTION.RELEV_CFG_MAXD * 1000 < (tgt - here).natAbs) ||
        r.landing != s.fld POS.ZONE_STS_LANDING), cState),
     (a == 0 && reverse, cState), (a == 0 && short, cState)]

/-- Why HOME is refused (R216, R220). -/
def State.homeCheck (s : State) (a : Nat) : Nat :=
  let m := s.fld (MOTION.HOME_CFG_METHOD a)
  let v1 := s.fld (MOTION.HOME_V_V1 a) * 1000
  let v2 := s.fld (MOTION.HOME_V_V2 a) * 1000
  let vm := s.regN (MOTION.AX_VMAX a)
  firstCause
    [(a == 0 && s.mode == 11, cMode), (decide (s.axSoon a ≠ 1), cState),
     (if a = 0 then m != 4 else decide (3 < m), cRange),
     (decide (v1 = 0 ∨ v2 = 0 ∨ vm < v1 ∨ vm < v2), cRange),
     (decide (1 ≤ m ∧ m ≤ 3 ∧ s.regN (MOTION.HOME_MAXD a) = 0), cRange)]

/-- The check of a register item in MOTION. -/
def motionCheck (s : State) (o : Nat) (m v : Word) : Nat :=
  if o < 0x400 then
    let a := o / 0x100
    let r := o % 0x100
    if r = 0 then
      let fb := bitsOf v.toNat 24 4
      firstCause
        [(tch m 24 4 && decide (8 < fb ∨ (fb = 7 ∧ a = 0) ∨ (fb = 8 ∧ a ≠ 0)), cRange),
         (tch m 30 1 && wbit v 30 && a != 0, cRange),
         (tch m 31 1 && wbit v 31 && decide (s.mode ≤ 3), cMode)]
    else if r = 0x58 then (if inRanges m v [(0, 3, 0, 4)] then 0 else cRange)
    else if r = 0x5C then
      let c := v &&& m
      firstCause
        [(wbit c 7 && !(s.axState a == 7 && (s.ax a).prof.segs == []), cState),
         (wbit c 5 && s.homeCheck a != 0, s.homeCheck a),
         (wbit c 1 && s.pushCheck a true != 0, s.pushCheck a true),
         (wbit c 0 && s.pushCheck a false != 0, s.pushCheck a false)]
    else if r = 0x90 then (if inRanges m v [(28, 3, 0, 4), (16, 6, 0, 47), (8, 6, 0, 47)] then 0 else cRange)
    else if r = 0xC0 then
      let zero := s.pos48 (MOTION.REV_TGT_LO a) == 0 || s.regN (MOTION.REV_V a) == 0 || s.regN (MOTION.REV_D a) == 0
      if a = 0 ∨ (wbit (v &&& m) 31 ∧ zero) then cRange else 0
    else 0
  else if o = 0x900 then
    let e := tch m 31 1 && wbit v 31
    firstCause
      [(!inRanges m v [(24, 4, 0, 5)], cRange),
       (e && (decide (s.axSoon 3 ≠ 1) || decide ((s.enc (bitsOf v.toNat 24 4)).quiet < 8)), cState)]
  else if o = 0x908 ∨ o = 0x90C then (if inRanges m v [(0, 16, 1, 65535)] then 0 else cRange)
  else 0

/-- What a group leaves in MOTION (R203, R209, R223, R225, R226). -/
def motionGroup (s0 s : State) : Nat :=
  let moved := fun (a : Nat) => s0.reg a != s.reg a
  let en := (upto 4).any fun a =>
    (s.ax a).acts.countP (· == .enable) != (s0.ax a).acts.countP (· == .enable) &&
      ([MOTION.AX_VMAX a, MOTION.AX_AMAX a, MOTION.AX_JMAX a, MOTION.AX_QS_D a, MOTION.AX_QS_J a].any fun k => s.regN k == 0)
  let soft := (upto 4).any fun a =>
    (moved (MOTION.AX_SWLN_LO a) || moved (MOTION.AX_SWLN_HI a) || moved (MOTION.AX_SWLP_LO a) || moved (MOTION.AX_SWLP_HI a)) &&
      decide (s.softHi a < s.softLo a)
  let mode := s.fld MOTION.HREF_CFG_MODE
  let href := (moved MOTION.HREF_CFG || moved MOTION.HREF_MAC_LO || moved MOTION.HREF_MAC_HI || moved MOTION.DAC_CFG ||
      moved MOTION.STEP_CFG || moved (MOTION.AX_VMAX 0)) &&
    ((mode == 1 && s.regN MOTION.HREF_MAC_LO == 0 && s.regN MOTION.HREF_MAC_HI == 0) ||
     (mode == 2 && s.fld MOTION.DAC_CFG_FS == 0) ||
     (mode == 3 && decide (2000000 * s.regN MOTION.STEP_CFG < s.regN (MOTION.AX_VMAX 0) * 65536)))
  if en || soft || href then cRange else 0

/-- The effect of a register item in MOTION: what it commands waits for the tick (R134, R202). -/
def motionApply (s : State) (o : Nat) (m old new cmd : Word) : State :=
  let hi := fun (k : Nat) (s : State) => s.setI k (sgn 16 new.toNat)
  if o < 0x400 then
    let a := o / 0x100
    let r := o % 0x100
    if r = 0 then
      if wbit new 31 && tch m 31 1 then s.axPost a .enable
      else if wbit old 31 && !wbit new 31 then s.axPost a .disable
      else s
    else if r = 0x34 ∨ r = 0x3C ∨ r = 0x44 ∨ r = 0xA0 ∨ r = 0xB4 then hi (0x40080000 + o) s
    else if r = 0x5C then
      let post := fun (b : Nat) (x : AxAct) (s : State) => s.when (wbit cmd b) fun s => s.axPost a x
      let s := post 7 .clearFault s
      let s := s.when (wbit cmd 6) fun s => s.setFld ⟨MOTION.AX_FLAGS a, 0, 7⟩ 0
      let w := s.window a
      ((((((post 2 .flush s) |> post 3 .stop) |> post 4 .qstop) |> post 5 .home) |> post 1 (.replace w)) |> post 0 (.push w))
    else if r = 0xC0 then s.when (tch m 31 1) fun s => s.axPost a (.arm (wbit new 31))
    else s
  else if o = 0x914 then hi MOTION.GEAR_AT_HI s
  else if o = 0x900 then
    if wbit new 31 && tch m 31 1 then s.axPost 3 .gearOn
    else if wbit old 31 && !wbit new 31 then s.axPost 3 .gearOff
    else s
  else if o = 0x918 then s.when (wbit cmd 0) fun s => s.axPost 3 .gearArm
  else s

end Sys2Proof.Machine
end

