-- ==== Sys2Proof/Machine/Commit.lean ====
section
/-! DEFINITION. Write sets (R113 to R118, R126, R133, R135, R358): items, groups, what they refuse, and what follows a write set. -/

namespace Sys2Proof.Machine

/-- The register blocks by index (R46): 0 SYS, 1 GALLERY, 2 TIME, 3 NETA, 4 NETB, 5 LLP, 6 RINGS, 7 POS, 8 MOTION, 9 CTRL, 10 DOOR,
11 DISPATCH, 12 SAFE, 13 FIELD, 14 LEDGER, 15 RANGE, 16 HEALTH, 17 LINK, 18 HOSTIF, 19 KEEPER. -/
def blockOf (a : Nat) : Nat := (a - 0x40000000) / 65536

/-- CTRL and SAFE are lane-private (R47). -/
def privateBlock (b : Nat) : Bool := b == 9 || b == 12

/-- The check of a register item in its block: `o` the offset, `v` the merged word, `m` the mask; 0 is no refusal (R116). -/
def State.itemCheck (s : State) (b l o : Nat) (m v : Word) : Nat :=
  match b with
  | 0 => sysCheck s o m v
  | 1 => galleryCheck s o m v
  | 2 => timeCheck s o m v
  | 3 => netCheck s 0 o m v
  | 4 => netCheck s 1 o m v
  | 5 => llpCheck s o m v
  | 6 => ringsCheck s o m v
  | 7 => posCheck s o m v
  | 8 => motionCheck s o m v
  | 9 => ctrlCheck s l o m v
  | 10 => doorCheck s o m v
  | 11 => dspCheck s o m v
  | 12 => safeCheck s l o m v
  | 13 => fieldCheck s o m v
  | 14 => ledgerCheck s o m v
  | 15 => rangeCheck s o m v
  | 16 => healthCheck s o m v
  | 17 => linkCheck s o m v
  | 19 => keeperCheck s o m v
  | _ => 0

/-- What an applied register item does in its block. -/
def State.itemApply (s : State) (b l o : Nat) (m old new cmd : Word) : State :=
  match b with
  | 0 => sysApply s o m old new cmd
  | 1 => galleryApply s o m old new cmd
  | 2 => timeApply s o m old new cmd
  | 3 => netApply s 0 o m old new cmd
  | 4 => netApply s 1 o m old new cmd
  | 5 => llpApply s o m old new cmd
  | 6 => ringsApply s o m old new cmd
  | 7 => posApply s o m old new cmd
  | 8 => motionApply s o m old new cmd
  | 9 => ctrlApply s l o m old new cmd
  | 10 => doorApply s o m old new cmd
  | 11 => dspApply s o m old new cmd
  | 12 => safeApply s l o m old new cmd
  | 13 => fieldApply s o m old new cmd
  | 14 => ledgerApply s o m old new cmd
  | 15 => rangeApply s o m old new cmd
  | 16 => healthApply s o m old new cmd
  | 17 => linkApply s o m old new cmd
  | 18 => hostifApply s o m old new cmd
  | 19 => fogAct (keeperApply s o m old new cmd)
  | _ => s

/-- The condition that a block judges on what a whole group leaves, `s0` being the state before the group (R116). -/
def State.blockGroup (s0 s : State) (items : List Item) (b l : Nat) : Nat :=
  match b with
  | 3 => netGroup s0 s 0
  | 4 => netGroup s0 s 1
  | 5 => llpGroup s0 s
  | 6 => ringsGroup s0 s
  | 7 => posGroup s0 s
  | 8 => motionGroup s0 s
  | 9 => ctrlGroup s0 s l
  | 10 => doorGroup s0 s items
  | 11 => dspGroup s0 s
  | 12 => fieldGroup s0 s
  | 13 => fieldGroup s0 s
  | 14 => fieldGroup s0 s
  | 17 => linkGroup s0 s
  | _ => 0

/-- The word in effect at lane `l`'s view of an address, command bits as 0, and that word with the masked bits of a write (R81, R116). -/
def State.wordMerge (s : State) (l a : Nat) (row : RegRow) (v m : Word) : Word × Word :=
  let old := s.reg (keyOf l a) &&& ~~~BitVec.ofNat 32 row.cmd
  (old, (old &&& ~~~m) ||| (v &&& m))

/-- Why the owner of a word refuses a masked write, 0 for not at all (R116). -/
def State.wordCheck (s : State) (l a : Nat) (v m : Word) : Nat :=
  match rowAt a with
  | none => 0
  | some row => s.itemCheck (blockOf a) l (a % 65536) m (s.wordMerge l a row v m).2

/-- An accepted masked write: the stored bits of the row take their values, and the owner acts on the command bits (R81). -/
def State.wordApply (s : State) (l a : Nat) (v m : Word) : State :=
  match rowAt a with
  | none => s
  | some row =>
    let p := s.wordMerge l a row v m
    let st := BitVec.ofNat 32 row.st
    let new := (p.1 &&& ~~~st) ||| (p.2 &&& st)
    (s.setReg (keyOf l a) new).itemApply (blockOf a) l (a % 65536) m p.1 new (p.2 &&& m &&& BitVec.ofNat 32 row.cmd)

/-- A masked write of a word of shared SRAM. -/
def State.sramApply (s : State) (a : Nat) (v m : Word) : State :=
  let o := a - 0x20000000
  { s with sram := wrLE s.sram o 4 (((BitVec.ofNat 32 (rdLE s.sram o 4) &&& ~~~m) ||| (v &&& m)).toNat) }

/-- The trial of a group: the state that its items so far would leave, the first refusal (cause, SEQ, place) and the shadow lanes that
leave its lane-private items out (R116, R151). -/
abbrev Run := State × Option (Nat × Nat × Nat) × List Nat

/-- The trial of a lane-private item at one lane. -/
def Run.lane (r : Run) (q a : Nat) (v m : Word) (shadow : Bool) (l : Nat) : Run :=
  if r.2.1.isSome || r.2.2.contains l then r
  else
    let c := r.1.wordCheck l a v m
    if c = 0 then (r.1.wordApply l a v m, r.2)
    else if shadow then (r.1, r.2.1, l :: r.2.2)
    else (r.1, some (c, q, a), r.2.2)

/-- The trial of one item of a group (R113, R116); `s0` is the state before the group, on which the conditions of R488 are judged. The lanes that
only check SAFE items judge them too (R358). -/
def Run.item (s0 : State) (x : Roles) (r : Run) (i : Item) : Run :=
  if r.2.1.isSome then r
  else
    let s := r.1
    match i with
    | .word q a v m =>
      if a < 0x40000000 then (s.sramApply a v m, r.2)
      else if privateBlock (blockOf a) then
        let safe := blockOf a == 12
        let r := x.own.foldl (fun r l => r.lane q a v m false l) r
        let r := (if safe then x.check else []).foldl (fun r l => r.lane q a v m false l) r
        x.shadow.foldl (fun r l => r.lane q a v m true l) r
      else
        let c := if a = SYS.MODE && tch m 0 4 then s0.modeFrom s (bitsOf ((s.reg a &&& ~~~m) ||| (v &&& m)).toNat 0 4) else s.wordCheck 0 a v m
        if c = 0 then (s.wordApply 0 a v m, r.2) else (s, some (c, q, a), r.2.2)
    | .push q n e d =>
      let c := s.pushRefused n d
      if c = 0 then (s.pushApply n e, r.2) else (s, some (c, q, n), r.2.2)
    | .pop q n => if s.ringCnt n = 0 then (s, some (cRing, q, n), r.2.2) else (s.popApply n, r.2)
    | .idle _ _ => r

/-- The block that an item belongs to. -/
def Item.block : Item → Nat
  | .word _ a _ _ => if a < 0x40000000 then 20 else blockOf a
  | _ => 20

/-- The conditions on the whole group, in the order of the blocks' first items; the refusal names that item (R116, R117). -/
def Run.finish (x : Roles) (s0 : State) (r : Run) (items : List Item) : Run :=
  items.foldl (fun r i =>
    if r.2.1.isSome then r
    else
      let b := i.block
      if b = 9 then
        let r := x.own.foldl (fun (r : Run) l =>
          if r.2.1.isSome then r
          else
            let c := s0.blockGroup r.1 items 9 l
            if c = 0 then r else (r.1, some (c, i.seq, i.place), r.2.2)) r
        x.shadow.foldl (fun (r : Run) l => if s0.blockGroup r.1 items 9 l = 0 then r else (r.1, r.2.1, l :: r.2.2)) r
      else
        let c := s0.blockGroup r.1 items b 0
        if c = 0 then r else (r.1, some (c, i.seq, i.place), r.2.2)) r

/-- The checks of a group: its first refusal, and the shadow lanes that leave it (R116, R151). -/
def State.groupCheck (s0 : State) (x : Roles) (items : List Item) : Option (Nat × Nat × Nat) × List Nat :=
  let r : Run := items.foldl (fun r i => r.item s0 x i) (s0, none, [])
  (r.finish x s0 items).2

/-- A committed word of a lane's CTRL or SAFE is written to its line (R148); a cell's line is written at the tick that preloads it (R260). -/
def State.dirtyWord (s : State) (l a : Nat) : State :=
  let o := a % 65536
  if blockOf a = 9 then (if o < 0xC00 then s.dirtyLine l (o / 0x100) (65 + o % 0x100 / 64) else s) else s.dirtyLine l 12 (o / 64)

/-- One item of an accepted group takes effect (R113, R126, R133, R151). -/
def State.itemDo (x : Roles) (leave : List Nat) (s : State) (i : Item) : State :=
  match i with
  | .word _ a v m =>
    if a < 0x40000000 then s.sramApply a v m
    else if privateBlock (blockOf a) then
      let s := (x.own ++ x.shadow.filter fun l => !leave.contains l).foldl (fun s l => (s.wordApply l a v m).dirtyWord l a) s
      if blockOf a == 12 && !x.own.isEmpty then safeNotify s (a % 65536) (v &&& m) else s
    else s.wordApply 0 a v m
  | .push _ n e _ => s.pushApply n e
  | .pop _ n => s.popApply n
  | .idle _ _ => s

/-- An accepted group takes effect. -/
def State.groupApply (s : State) (x : Roles) (p : Plan) : State := p.items.foldl (State.itemDo x p.leave) s

/-- What a refusal adds to what the write set shows (R117): `g` is the index of the group in the order of TBEGIN; the lowest refused one
shows its cause. -/
def Refused.note (f : Refused) (g : Nat) (r : Nat × Nat × Nat) : Refused :=
  if f.mask = 0 ∨ g < f.group then ⟨f.mask + 2 ^ g, r.1, r.2.1, r.2.2, g⟩ else { f with mask := f.mask + 2 ^ g }

/-- The groups of a write set in order, each judged on the state that the accepted earlier ones leave: that state, the accepted groups,
and what was refused (R116, R117). A reset that a group brings about ends the write set. -/
def State.groupsRun (s : State) (x : Roles) (gs : List (Nat × List Item)) : State × List Plan × Refused :=
  let up := s.sys.phase == 2
  gs.foldl (fun (p : State × List Plan × Refused) g =>
    if up && p.1.sys.phase != 2 then p
    else
      let q := p.1.groupCheck x g.2
      match q.1 with
      | none => (p.1.groupApply x ⟨g.1, g.2, q.2⟩, p.2.1 ++ [⟨g.1, g.2, q.2⟩], p.2.2)
      | some r => (p.1, p.2.1, p.2.2.note g.1 r)) (s, [], Refused.none)

/-- What refuses a group at its boundary, after its checks: HANDOVER applies as P_READY falls (R473). -/
def State.lateRefusal (s : State) (p : Plan) : Option (Nat × Nat × Nat) :=
  if s.flag RANGE.STS_P_READY then none
  else p.items.findSome? fun i =>
    match i with
    | .word q a v m => if a = RANGE.CTL ∧ wbit (v &&& m) 30 then some (cState, q, a) else none
    | _ => none

/-- The groups that the checks have accepted take effect at the boundary, with what is refused after all; a reset that one brings about ends
the write set (R125). -/
def State.planApply (s : State) (x : Roles) (ps : List Plan) (f : Refused) : State × Refused :=
  let up := s.sys.phase == 2
  ps.foldl (fun r p =>
    if up && r.1.sys.phase != 2 then r
    else
      match r.1.lateRefusal p with
      | none => (r.1.groupApply x p, r.2)
      | some c => (r.1, r.2.note p.grp c)) (s, f)

/-- An RS flag that a happening of the present instant has set stays set when a commit of that instant clears it; `s0` is the state
before the commit (R137). -/
def State.stickyKeep (s0 s : State) : State :=
  let keep := fun (s : State) (k : Nat) (set : Word) =>
    match rowAt (keyAddr k) with
    | none => s
    | some row => s.setReg k (s.reg k ||| (set &&& BitVec.ofNat 32 row.rs))
  let s := s0.regs.foldl (fun s p =>
    let was := mget s0.rst s0.regs0 p.1
    if was = p.2 then s else keep s p.1 (p.2 &&& ~~~was)) s
  s0.again.foldl (fun s p => keep s p.1 p.2) s

/-- What blocks do once a write set has applied. -/
def State.settle (s s0 : State) : State := ((posSettle s0 s).fieldSettle).readyShow.hirqShow

/-- COMMIT_STS, REFUSE and REFUSE_ADDR of a write set (R117, R118). -/
def State.refusedShow (s : State) (r : Refused) : State :=
  let s := s.setFld GALLERY.COMMIT_STS_REFUSED r.mask
  let s := s.setN GALLERY.REFUSE (r.group * 2 ^ 28 + r.cause * 65536 + r.item % 1024)
  s.setN GALLERY.REFUSE_ADDR r.place

/-- What follows the items of a write set; a reset that they brought about is all (R31, R117). -/
def State.writeEnd (s s1 : State) (r : Refused) : State :=
  if s.sys.phase = 2 ∧ s1.sys.phase ≠ 2 then s1 else ((s.stickyKeep s1).settle s).refusedShow r

/-- A write set that the lanes `x` agree on is checked and applied (R31, R116, R126). -/
def State.writeSet (s : State) (x : Roles) (gs : List (Nat × List Item)) : State :=
  let p := s.groupsRun x gs
  s.writeEnd p.1 p.2.2

/-- The commit of one group of register words by all voting lanes: what the commit rows of the opcode table stand for (assumption 4). -/
def State.commit (s : State) (ws : List (Nat × Word × Word)) : State :=
  let items := (ws.zipIdx).map fun p => Item.word p.2 p.1.1 p.1.2.1 p.1.2.2
  s.writeSet ⟨s.voters, [], []⟩ [(0, items)]

/-- The commit of one field; a lane-private register is named by its key for lane A. -/
def State.commitFld (s : State) (f : Fld) (v : Nat) : State :=
  s.commit [(keyAddr f.addr, BitVec.ofNat 32 (v % 2 ^ f.width * 2 ^ f.lo), BitVec.ofNat 32 ((2 ^ f.width - 1) * 2 ^ f.lo))]

/-- The commit of a command or of an enable bit. -/
def State.commitBit (s : State) (f : Fld) (b : Bool) : State := s.commitFld f (b2n b)

/-- The commit of a whole word. -/
def State.commitWord (s : State) (a : Nat) (v : Word) : State := s.commit [(keyAddr a, v, 0xFFFFFFFF#32)]

end Sys2Proof.Machine
end

