-- ==== Sys2Proof/Machine/CommitRows.lean ====
section
/-! DEFINITION. The commit rows: each is the commit of one group that writes the row's field or window (assumption 4). -/

namespace Sys2Proof.Machine

/-! ### GALLERY and RINGS (R38, R40, R57, R59, R146, R153) -/

/-- TIDE_CLR.SNAP_MIS (R38). -/
def execSnapMis (s : State) : Host.Outcome State Fault Refusal :=
  done (s.commitBit GALLERY.TIDE_CLR_SNAP_MIS true)

/-- RELIEF_CFG.REQ of a lane (R146, R153). -/
def execReliefReq (l : Lane) (s : State) : Host.Outcome State Fault Refusal :=
  done (s.commitBit ⟨GALLERY.RELIEF_CFG, 4 + l.val, 1⟩ true)

/-- Enables of 32 sources (R40). -/
def execEvtEn (k : Fin 8) (v m : Word) (s : State) : Host.Outcome State Fault Refusal :=
  done (s.commit [(GALLERY.EVT_EN k, v, m)])

/-- CFG.EN of a ring (R59). -/
def execRingEn (r : Fin 64) (en : Bool) (s : State) : Host.Outcome State Fault Refusal :=
  done (s.commitBit (RINGS.RING_CFG_EN r) en)

/-- CLR.DROPS of a ring. -/
def execRingClrDrops (r : Fin 64) (s : State) : Host.Outcome State Fault Refusal :=
  done (s.commitBit (RINGS.RING_CLR_DROPS r) true)

/-- CLR.OVF of a ring. -/
def execRingClrOvf (r : Fin 64) (s : State) : Host.Outcome State Fault Refusal :=
  done (s.commitBit (RINGS.RING_CLR_OVF r) true)


/-! ### POS (chapter 04) -/

/-- ENC_CLR.ZARM of an input. -/
def execZarm (n : Fin 6) (s : State) : Host.Outcome State Fault Refusal :=
  done (s.commitBit (POS.ENC_CLR_ZARM n) true)

/-- ENC_CLR.ERRCNT of an input. -/
def execEncClrErrcnt (n : Fin 6) (s : State) : Host.Outcome State Fault Refusal :=
  done (s.commitBit (POS.ENC_CLR_ERRCNT n) true)

/-- ENC_CLR.IDX_ERR of an input. -/
def execEncClrIdxErr (n : Fin 6) (s : State) : Host.Outcome State Fault Refusal :=
  done (s.commitBit (POS.ENC_CLR_IDX_ERR n) true)

/-- ENC_CLR.LOSS of an input. -/
def execEncClrLoss (n : Fin 6) (s : State) : Host.Outcome State Fault Refusal :=
  done (s.commitBit (POS.ENC_CLR_LOSS n) true)

/-- ENC_CLR.ILLEGAL of an input. -/
def execEncClrIllegal (n : Fin 6) (s : State) : Host.Outcome State Fault Refusal :=
  done (s.commitBit (POS.ENC_CLR_ILLEGAL n) true)

/-- ENC_CFG.EN of an input. -/
def execEncEn (n : Fin 6) (en : Bool) (s : State) : Host.Outcome State Fault Refusal :=
  done (s.commitBit (POS.ENC_CFG_EN n) en)

/-- SSI_CFG.EN of an input (R170). -/
def execSsiEn (i : Fin 2) (en : Bool) (s : State) : Host.Outcome State Fault Refusal :=
  done (s.commitBit (POS.SSI_CFG_EN i) en)

/-- SSI_CLR.ERRCNT of an input. -/
def execSsiClrErrcnt (i : Fin 2) (s : State) : Host.Outcome State Fault Refusal :=
  done (s.commitBit (POS.SSI_CLR_ERRCNT i) true)

/-- SSI_CLR.FLAGS of an input. -/
def execSsiClrFlags (i : Fin 2) (s : State) : Host.Outcome State Fault Refusal :=
  done (s.commitBit (POS.SSI_CLR_FLAGS i) true)

/-- The four source slots of fusion in one group (R173, R183, R184). -/
def execFusSrcConfig (w0 w1 w2 w3 : Word) (s : State) : Host.Outcome State Fault Refusal :=
  done (s.commit [(POS.FUS_SRC 0, w0, 0xFFFFFFFF#32), (POS.FUS_SRC 1, w1, 0xFFFFFFFF#32), (POS.FUS_SRC 2, w2, 0xFFFFFFFF#32),
    (POS.FUS_SRC 3, w3, 0xFFFFFFFF#32)])

/-- FUS_CTL.CKPT. -/
def execCkpt (s : State) : Host.Outcome State Fault Refusal :=
  done (s.commitBit POS.FUS_CTL_CKPT true)

/-- FUS_CTL.CLR_HEALTH. -/
def execClrHealth (slots : BitVec 4) (s : State) : Host.Outcome State Fault Refusal :=
  done (s.commitFld POS.FUS_CTL_CLR_HEALTH slots.toNat)

/-- FUS_CTL.CLR_MIS. -/
def execClrMis (s : State) : Host.Outcome State Fault Refusal :=
  done (s.commitBit POS.FUS_CTL_CLR_MIS true)

/-- FUS_CTL.CLR_SLIP. -/
def execClrSlip (s : State) : Host.Outcome State Fault Refusal :=
  done (s.commitBit POS.FUS_CTL_CLR_SLIP true)

/-- FUS_CTL.REREF. -/
def execReref (s : State) : Host.Outcome State Fault Refusal :=
  done (s.commitBit POS.FUS_CTL_REREF true)

/-- A word of the map window (R190). -/
def execMapWin (w : Fin 16) (v m : Word) (s : State) : Host.Outcome State Fault Refusal :=
  done (s.commit [(POS.MAP_WIN w, v, m)])

/-- MAP_CTL.SAVE (R191). -/
def execSave (s : State) : Host.Outcome State Fault Refusal :=
  done (s.commitBit POS.MAP_CTL_SAVE true)

/-- MAP_CTL.REVERT. -/
def execRevert (s : State) : Host.Outcome State Fault Refusal :=
  done (s.commitBit POS.MAP_CTL_REVERT true)

/-- MAP_CTL.SETN with N. -/
def execSetn (n : Byte) (s : State) : Host.Outcome State Fault Refusal :=
  done (s.commit [(POS.MAP_CTL, BitVec.ofNat 32 (256 + n.toNat), 0x1FF#32)])

/-- LEARN_CTL.START_UP (R192, R193). -/
def execStartUp (s : State) : Host.Outcome State Fault Refusal :=
  done (s.commitBit POS.LEARN_CTL_START_UP true)

/-- LEARN_CTL.START_DN (R192, R193). -/
def execStartDn (s : State) : Host.Outcome State Fault Refusal :=
  done (s.commitBit POS.LEARN_CTL_START_DN true)

/-- LEARN_CTL.STOP (R192, R193). -/
def execLearnStop (s : State) : Host.Outcome State Fault Refusal :=
  done (s.commitBit POS.LEARN_CTL_STOP true)

/-- LEARN_CTL.BUILD (R192, R193). -/
def execBuild (s : State) : Host.Outcome State Fault Refusal :=
  done (s.commitBit POS.LEARN_CTL_BUILD true)

/-- LEARN_CTL.CANCEL (R192, R193). -/
def execCancel (s : State) : Host.Outcome State Fault Refusal :=
  done (s.commitBit POS.LEARN_CTL_CANCEL true)

/-- Arms a compare channel: by EN, or by a new position (R195). -/
def execCmpArm (c : Fin 16) (viaEn : Bool) (lo hi : Word) (s : State) : Host.Outcome State Fault Refusal :=
  done (if viaEn then s.commitBit (POS.CMP_CFG_EN c) true
    else s.commit [(POS.CMP_POS_LO c, lo, 0xFFFFFFFF#32), (POS.CMP_POS_HI c, hi, 0xFFFFFFFF#32)])

/-- CMP_CFG.CLR. -/
def execCmpClr (c : Fin 16) (s : State) : Host.Outcome State Fault Refusal :=
  done (s.commitBit (POS.CMP_CFG_CLR c) true)


/-! ### MOTION (chapter 05) -/

/-- AX_CFG.EN of an axis. -/
def execAxEn (a : Fin 4) (en : Bool) (s : State) : Host.Outcome State Fault Refusal :=
  done (s.commitBit (MOTION.AX_CFG_EN a) en)

/-- MQ_CMD.PUSH of an axis. -/
def execPush (a : Fin 4) (s : State) : Host.Outcome State Fault Refusal :=
  done (s.commitBit (MOTION.MQ_CMD_PUSH a) true)

/-- MQ_CMD.REPLACE of an axis. -/
def execReplace (a : Fin 4) (s : State) : Host.Outcome State Fault Refusal :=
  done (s.commitBit (MOTION.MQ_CMD_REPLACE a) true)

/-- MQ_CMD.FLUSH of an axis. -/
def execFlush (a : Fin 4) (s : State) : Host.Outcome State Fault Refusal :=
  done (s.commitBit (MOTION.MQ_CMD_FLUSH a) true)

/-- MQ_CMD.STOP of an axis. -/
def execStop (a : Fin 4) (s : State) : Host.Outcome State Fault Refusal :=
  done (s.commitBit (MOTION.MQ_CMD_STOP a) true)

/-- MQ_CMD.QSTOP of an axis. -/
def execQstop (a : Fin 4) (s : State) : Host.Outcome State Fault Refusal :=
  done (s.commitBit (MOTION.MQ_CMD_QSTOP a) true)

/-- MQ_CMD.HOME of an axis. -/
def execHome (a : Fin 4) (s : State) : Host.Outcome State Fault Refusal :=
  done (s.commitBit (MOTION.MQ_CMD_HOME a) true)

/-- MQ_CMD.CLR_FLAGS of an axis. -/
def execMqClrFlags (a : Fin 4) (s : State) : Host.Outcome State Fault Refusal :=
  done (s.commitBit (MOTION.MQ_CMD_CLR_FLAGS a) true)

/-- MQ_CMD.CLR_FAULT of an axis. -/
def execMqClrFault (a : Fin 4) (s : State) : Host.Outcome State Fault Refusal :=
  done (s.commitBit (MOTION.MQ_CMD_CLR_FAULT a) true)

/-- REV_CFG.ARM of an axis. -/
def execRevArm (a : Fin 4) (arm : Bool) (s : State) : Host.Outcome State Fault Refusal :=
  done (s.commitBit (MOTION.REV_CFG_ARM a) arm)

/-- GEAR_CFG.EN. -/
def execGearEn (en : Bool) (s : State) : Host.Outcome State Fault Refusal :=
  done (s.commitBit MOTION.GEAR_CFG_EN en)

/-- GEAR_SW.ARM. -/
def execGearSwArm (arm : Bool) (s : State) : Host.Outcome State Fault Refusal :=
  done (s.commitBit MOTION.GEAR_SW_ARM arm)


/-! ### CTRL, at every lane that applies the set (chapter 06) -/

/-- SL_CFG.EN of a slot. -/
def execSlEn (n : Fin 12) (en : Bool) (s : State) : Host.Outcome State Fault Refusal :=
  done (s.commitBit (CTRL.SL_CFG_EN 0 n) en)

/-- SL_CMD.CLR_I of a slot. -/
def execClrI (n : Fin 12) (s : State) : Host.Outcome State Fault Refusal :=
  done (s.commitBit (CTRL.SL_CMD_CLR_I 0 n) true)

/-- SL_CMD.CLR_CELLS of a slot. -/
def execClrCells (n : Fin 12) (s : State) : Host.Outcome State Fault Refusal :=
  done (s.commitBit (CTRL.SL_CMD_CLR_CELLS 0 n) true)

/-- SL_CMD.CLR_FLAGS of a slot. -/
def execSlClrFlags (n : Fin 12) (s : State) : Host.Outcome State Fault Refusal :=
  done (s.commitBit (CTRL.SL_CMD_CLR_FLAGS 0 n) true)

/-- SL_CMD.RESTART of a slot. -/
def execRestart (n : Fin 12) (s : State) : Host.Outcome State Fault Refusal :=
  done (s.commitBit (CTRL.SL_CMD_RESTART 0 n) true)

/-- SL_CMD.CLR_FAULT of a slot. -/
def execSlClrFault (n : Fin 12) (s : State) : Host.Outcome State Fault Refusal :=
  done (s.commitBit (CTRL.SL_CMD_CLR_FAULT 0 n) true)

/-- A cell of a slot. -/
def execCellPreload (n : Fin 12) (i : Fin 1024) (v : Word) (s : State) : Host.Outcome State Fault Refusal :=
  done (s.commitWord (CTRL.CELL 0 n i) v)


/-! ### DOOR (chapter 07) -/

/-- DRV_CFG.EN of a door. -/
def execDrvEn (d : Fin 2) (en : Bool) (s : State) : Host.Outcome State Fault Refusal :=
  done (s.commitBit (DOOR.DRV_CFG_EN d) en)

/-- DOOR_CMD.TBL_SWAP of a door. -/
def execTblSwap (d : Fin 2) (s : State) : Host.Outcome State Fault Refusal :=
  done (s.commitBit (DOOR.DOOR_CMD_TBL_SWAP d) true)

/-- DOOR_CMD.FR_CLR of a door. -/
def execFrClr (d : Fin 2) (s : State) : Host.Outcome State Fault Refusal :=
  done (s.commitBit (DOOR.DOOR_CMD_FR_CLR d) true)

/-- DOOR_CMD.CLR_FLAGS of a door. -/
def execDoorClrFlags (d : Fin 2) (s : State) : Host.Outcome State Fault Refusal :=
  done (s.commitBit (DOOR.DOOR_CMD_CLR_FLAGS d) true)

/-- DOOR_CMD.CLR_OBS of a door. -/
def execClrObs (d : Fin 2) (s : State) : Host.Outcome State Fault Refusal :=
  done (s.commitBit (DOOR.DOOR_CMD_CLR_OBS d) true)

/-- DOOR_CMD.CLR_TRIP of a door. -/
def execClrTrip (d : Fin 2) (s : State) : Host.Outcome State Fault Refusal :=
  done (s.commitBit (DOOR.DOOR_CMD_CLR_TRIP d) true)

/-- A friction bin of a door. -/
def execFricPreload (d r : Fin 2) (i : Fin 256) (v : Word) (s : State) : Host.Outcome State Fault Refusal :=
  done (s.commitWord (DOOR.FRIC d r i) v)

/-- ADC_CLR.SAT. -/
def execAdcClrSat (s : State) : Host.Outcome State Fault Refusal :=
  done (s.commitBit DOOR.ADC_CLR_SAT true)

/-- PROF_CTL.GO with OP SAVE (R301, R302). -/
def execProfileSave (kind : Fin 4) (tgt : Fin 16) (rec' : Fin 32) (s : State) : Host.Outcome State Fault Refusal :=
  done (s.commitWord DOOR.PROF_CTL (BitVec.ofNat 32 (0x80000000 + kind.val * 2 ^ 28 + tgt.val * 2 ^ 24 + rec'.val)))

/-- PROF_CTL.GO with OP LOAD (R301, R302). -/
def execProfileLoad (kind : Fin 4) (tgt : Fin 16) (rec' : Fin 32) (s : State) : Host.Outcome State Fault Refusal :=
  done (s.commitWord DOOR.PROF_CTL (BitVec.ofNat 32 (0x80000000 + 0x40000000 + kind.val * 2 ^ 28 + tgt.val * 2 ^ 24 + rec'.val)))


/-! ### DISPATCH (chapter 08) -/

/-- The commit of a call command: the window with operation `op`, the record number and GO (R309). -/
def State.callCommit (s : State) (op : Nat) (w : Word) (rec' : BitVec 10) : State :=
  s.commit [(DISPATCH.CALL_WIN, BitVec.ofNat 32 (setBits w.toNat 28 4 op), 0xFFFFFFFF#32),
    (DISPATCH.CALL_REC, rec'.setWidth 32, 0xFFFFFFFF#32), (DISPATCH.CALL_CMD, 1#32, 1#32)]

/-- CALL_CMD.GO with OP HALL_OPEN. -/
def execHallOpen (w : Word) (rec' : BitVec 10) (s : State) : Host.Outcome State Fault Refusal :=
  done (s.callCommit 1 w rec')

/-- CALL_CMD.GO with OP HALL_CLOSE. -/
def execHallClose (w : Word) (rec' : BitVec 10) (s : State) : Host.Outcome State Fault Refusal :=
  done (s.callCommit 2 w rec')

/-- CALL_CMD.GO with OP DEST_OPEN. -/
def execDestOpen (w : Word) (rec' : BitVec 10) (s : State) : Host.Outcome State Fault Refusal :=
  done (s.callCommit 3 w rec')

/-- CALL_CMD.GO with OP DEST_CLOSE. -/
def execDestClose (w : Word) (rec' : BitVec 10) (s : State) : Host.Outcome State Fault Refusal :=
  done (s.callCommit 4 w rec')

/-- CALL_CMD.GO with OP DEST_PICKED. -/
def execDestPicked (w : Word) (rec' : BitVec 10) (s : State) : Host.Outcome State Fault Refusal :=
  done (s.callCommit 5 w rec')

/-- CALL_CMD.GO with OP CAR_ADD. -/
def execCarAdd (w : Word) (rec' : BitVec 10) (s : State) : Host.Outcome State Fault Refusal :=
  done (s.callCommit 6 w rec')

/-- CALL_CMD.GO with OP CAR_REMOVE. -/
def execCarRemove (w : Word) (rec' : BitVec 10) (s : State) : Host.Outcome State Fault Refusal :=
  done (s.callCommit 7 w rec')

/-- CALL_CMD.GO with OP CAR_CLEAR. -/
def execCarClear (w : Word) (rec' : BitVec 10) (s : State) : Host.Outcome State Fault Refusal :=
  done (s.callCommit 8 w rec')

/-- DSP_CFG.EN. -/
def execDspEn (en : Bool) (s : State) : Host.Outcome State Fault Refusal :=
  done (s.commitBit DISPATCH.DSP_CFG_EN en)

/-- DSP_CLR.MISS. -/
def execDspClrMiss (s : State) : Host.Outcome State Fault Refusal :=
  done (s.commitBit DISPATCH.DSP_CLR_MISS true)

/-- DSP_CLR.ERR. -/
def execDspClrErr (s : State) : Host.Outcome State Fault Refusal :=
  done (s.commitBit DISPATCH.DSP_CLR_ERR true)

/-- DSP_CLR.DIVERGE. -/
def execDspClrDiverge (s : State) : Host.Outcome State Fault Refusal :=
  done (s.commitBit DISPATCH.DSP_CLR_DIVERGE true)


/-! ### SAFE and LLP (chapter 09) -/

/-- SAFE.CTL.ARM at every voting lane (R356 to R360). -/
def execArm (s : State) : Host.Outcome State Fault Refusal :=
  done (s.commitBit (SAFE.CTL_ARM 0) true)

/-- SAFE.CTL.LOCK at every voting lane (R356 to R360). -/
def execLock (s : State) : Host.Outcome State Fault Refusal :=
  done (s.commitBit (SAFE.CTL_LOCK 0) true)

/-- SAFE.CTL.RELEASE at every voting lane (R356 to R360). -/
def execRelease (s : State) : Host.Outcome State Fault Refusal :=
  done (s.commitBit (SAFE.CTL_RELEASE 0) true)

/-- SAFE.CTL.RESET at every voting lane (R356 to R360). -/
def execReset (s : State) : Host.Outcome State Fault Refusal :=
  done (s.commitBit (SAFE.CTL_RESET 0) true)

/-- LLP.CLR.ERR. -/
def execLlpClr (s : State) : Host.Outcome State Fault Refusal :=
  done (s.commitBit LLP.CLR_ERR true)


/-! ### FIELD and LEDGER (chapter 10) -/

/-- CH_OUT.ON of an output channel. -/
def execChOut (n : Fin 32) (on : Bool) (s : State) : Host.Outcome State Fault Refusal :=
  done (s.commitBit (FIELD.CH_OUT_ON n) on)

/-- CH_CLR.REQ of an output channel. -/
def execReq (n : Fin 32) (s : State) : Host.Outcome State Fault Refusal :=
  done (s.commitBit (FIELD.CH_CLR_REQ n) true)

/-- CH_CLR.FAULT of an output channel. -/
def execChClrFault (n : Fin 32) (s : State) : Host.Outcome State Fault Refusal :=
  done (s.commitBit (FIELD.CH_CLR_FAULT n) true)

/-- CH_CLR.CNT of a channel. -/
def execChClrCnt (n : Fin 48) (s : State) : Host.Outcome State Fault Refusal :=
  done (s.commitBit (FIELD.CH_CLR_CNT n) true)

/-- CH_CLR.FLAGS of a channel. -/
def execChClrFlags (n : Fin 48) (s : State) : Host.Outcome State Fault Refusal :=
  done (s.commitBit (FIELD.CH_CLR_FLAGS n) true)

/-- DIE_CTL.RESTART of a die. -/
def execDieRestart (k : Fin 2) (s : State) : Host.Outcome State Fault Refusal :=
  done (s.commitBit (FIELD.DIE_CTL_RESTART k) true)

/-- LEDGER.CLR.CNT. -/
def execLedgerClrCnt (s : State) : Host.Outcome State Fault Refusal :=
  done (s.commitBit LEDGER.CLR_CNT true)


/-! ### TIME, the networks and LINK (chapter 11) -/

/-- TIME.CTL.RESTEP (R423). -/
def execRestep (s : State) : Host.Outcome State Fault Refusal :=
  done (s.commitBit TIME.CTL_RESTEP true)

/-- TIME.CTL.CLR_CNT. -/
def execTimeClrCnt (s : State) : Host.Outcome State Fault Refusal :=
  done (s.commitBit TIME.CTL_CLR_CNT true)

/-- TIME.RATE_INIT (R417). -/
def execRateInit (v : Word) (s : State) : Host.Outcome State Fault Refusal :=
  done (s.commitWord TIME.RATE_INIT v)

/-- PORT_CFG.EN of a port. -/
def execPortEn (k p : Fin 2) (en : Bool) (s : State) : Host.Outcome State Fault Refusal :=
  done (s.commitBit (NET.PORT_CFG_EN k p) en)

/-- MDIO_CMD.GO. -/
def execMdioGo (k : Fin 2) (write : Bool) (phy r : Fin 32) (data : BitVec 16) (s : State) : Host.Outcome State Fault Refusal :=
  done (s.commitWord (NET.MDIO_CMD k)
    (BitVec.ofNat 32 (0x80000000 + b2n write * 2 ^ 30 + phy.val * 2 ^ 21 + r.val * 65536 + data.toNat)))

/-- NET_CLR.CNT. -/
def execNetClrCnt (k : Fin 2) (s : State) : Host.Outcome State Fault Refusal :=
  done (s.commitBit (NET.NET_CLR_CNT k) true)

/-- NET_CLR.ERR. -/
def execNetClrErr (k : Fin 2) (s : State) : Host.Outcome State Fault Refusal :=
  done (s.commitBit (NET.NET_CLR_ERR k) true)

/-- CAN_CFG.EN of a controller. -/
def execCanEn (c : Fin 2) (en : Bool) (s : State) : Host.Outcome State Fault Refusal :=
  done (s.commitBit (LINK.CAN_CFG_EN c) en)

/-- CAN_CLR.REC. -/
def execCanClrRec (c : Fin 2) (s : State) : Host.Outcome State Fault Refusal :=
  done (s.commitBit (LINK.CAN_CLR_REC c) true)

/-- CAN_CLR.ERR. -/
def execCanClrErr (c : Fin 2) (s : State) : Host.Outcome State Fault Refusal :=
  done (s.commitBit (LINK.CAN_CLR_ERR c) true)

/-- UART_CFG.EN of a UART. -/
def execUartEn (u : Fin 4) (en : Bool) (s : State) : Host.Outcome State Fault Refusal :=
  done (s.commitBit (LINK.UART_CFG_EN u) en)

/-- UART_CLR.ERR. -/
def execUartClr (u : Fin 4) (s : State) : Host.Outcome State Fault Refusal :=
  done (s.commitBit (LINK.UART_CLR_ERR u) true)

/-- SPI_CMD.GO (R445). -/
def execSpiGo (cs : Fin 4) (len : Fin 16) (s : State) : Host.Outcome State Fault Refusal :=
  done (s.commitWord LINK.SPI_CMD (BitVec.ofNat 32 (0x80000000 + cs.val * 2 ^ 24 + len.val)))


/-! ### HOSTIF, RANGE and HEALTH (chapters 11 and 12) -/

/-- HCLR.ERR. -/
def execHclr (s : State) : Host.Outcome State Fault Refusal :=
  done (s.commitBit HOSTIF.HCLR_ERR true)

/-- RANGE.CTL.TAKE (R458). -/
def execTake (s : State) : Host.Outcome State Fault Refusal :=
  done (s.commitBit RANGE.CTL_TAKE true)

/-- RANGE.CTL.HANDOVER (R467). -/
def execHandover (s : State) : Host.Outcome State Fault Refusal :=
  done (s.commitBit RANGE.CTL_HANDOVER true)

/-- RANGE.CTL.CLR. -/
def execRangeClr (s : State) : Host.Outcome State Fault Refusal :=
  done (s.commitBit RANGE.CTL_CLR true)

/-- ST_REQ.GO (R478). -/
def execStReq (kind : BitVec 3) (l : BitVec 2) (s : State) : Host.Outcome State Fault Refusal :=
  done (s.commitWord HEALTH.ST_REQ (BitVec.ofNat 32 (0x80000000 + kind.toNat * 2 ^ 28 + l.toNat * 2 ^ 24)))

/-- CNT_CLR of the named shared counters (R480). -/
def execCntClr (m : Word) (s : State) : Host.Outcome State Fault Refusal :=
  done (s.commitWord HEALTH.CNT_CLR m)

/-- LCNT_CLR of the named lane counters (R481). -/
def execLcntClr (m : Word) (s : State) : Host.Outcome State Fault Refusal :=
  done (s.commitWord HEALTH.LCNT_CLR m)

/-- CNT_SNAP of the named shared counters (R482). -/
def execCntSnap (m : Word) (s : State) : Host.Outcome State Fault Refusal :=
  done (s.commitWord HEALTH.CNT_SNAP m)


/-! ### SYS and KEEPER (chapter 13) -/

/-- SYS.MODE (R487). -/
def execMode (v : BitVec 4) (s : State) : Host.Outcome State Fault Refusal :=
  done (s.commitFld SYS.MODE_MODE v.toNat)

/-- RTC_SET with its seconds (R504). -/
def execRtcSet (sec : BitVec 48) (s : State) : Host.Outcome State Fault Refusal :=
  done (s.commit [(KEEPER.RTC_SET_LO, sec.setWidth 32, 0xFFFFFFFF#32),
    (KEEPER.RTC_SET_HI, BitVec.ofNat 32 (sec.toNat / 2 ^ 32), 0xFFFFFFFF#32), (KEEPER.CTL, 1#32, 1#32)])

/-- KEEPER.CTL.CLR. -/
def execKeeperClr (s : State) : Host.Outcome State Fault Refusal :=
  done (s.commitBit KEEPER.CTL_CLR true)

/-- LOG_PROG (R505). -/
def execLogProg (v : Word) (s : State) : Host.Outcome State Fault Refusal :=
  done (s.commitWord KEEPER.LOG_PROG v)

/-- FOG_CFG (R506). -/
def execFogCfg (v : Word) (s : State) : Host.Outcome State Fault Refusal :=
  done (s.commitWord KEEPER.FOG_CFG v)

/-- FOG_FEED (R506). -/
def execFogFeed (key : BitVec 16) (s : State) : Host.Outcome State Fault Refusal :=
  done (s.commit [(KEEPER.FOG_FEED, key.setWidth 32, 0xFFFF#32)])

/-- IMG_CTL.GO with OP WRITE (R508). -/
def execImgWrite (off : BitVec 22) (src : BitVec 21) (s : State) : Host.Outcome State Fault Refusal :=
  done (s.commit [(SYS.IMG_SRC, src.setWidth 32, 0xFFFFFFFF#32), (SYS.IMG_CTL, BitVec.ofNat 32 (0x90000000 + off.toNat), 0xFFFFFFFF#32)])

/-- IMG_CTL.GO with OP CHECK (R508). -/
def execImgCheck (s : State) : Host.Outcome State Fault Refusal :=
  done (s.commitWord SYS.IMG_CTL 0xA0000000#32)

/-- IMG_CTL.GO with OP ACTIVATE (R508). -/
def execImgActivate (s : State) : Host.Outcome State Fault Refusal :=
  done (s.commitWord SYS.IMG_CTL 0xB0000000#32)

end Sys2Proof.Machine
end

