-- ==== Sys2Proof/Machine/LoadStore.lean ====
section
/-! DEFINITION. Loads, live reads and stores of the lanes (R74 to R77, R92), branches and jumps (R78). -/

namespace Sys2Proof.Machine

def execLw (l : Lane) (gd gb : GReg) (imm : BitVec 16) (ecc : Ecc) (s : State) : Host.Outcome State Fault Refusal :=
  done (s.load l gd gb imm 4 (fun v => BitVec.ofNat 32 v) ecc)

def execLh (l : Lane) (gd gb : GReg) (imm : BitVec 16) (ecc : Ecc) (s : State) : Host.Outcome State Fault Refusal :=
  done (s.load l gd gb imm 2 (fun v => wordOfInt (sgn 16 v)) ecc)

def execLhu (l : Lane) (gd gb : GReg) (imm : BitVec 16) (ecc : Ecc) (s : State) : Host.Outcome State Fault Refusal :=
  done (s.load l gd gb imm 2 (fun v => BitVec.ofNat 32 v) ecc)

def execLb (l : Lane) (gd gb : GReg) (imm : BitVec 16) (ecc : Ecc) (s : State) : Host.Outcome State Fault Refusal :=
  done (s.load l gd gb imm 1 (fun v => wordOfInt (sgn 8 v)) ecc)

def execLbu (l : Lane) (gd gb : GReg) (imm : BitVec 16) (ecc : Ecc) (s : State) : Host.Outcome State Fault Refusal :=
  done (s.load l gd gb imm 1 (fun v => BitVec.ofNat 32 v) ecc)

/-- The greatest wait, in ns, of a live read by the owner of the address (R92). -/
def liveWait (a : Nat) : Nat :=
  if regionOf a ≠ .regs then 0
  else if (0x40090000 ≤ a ∧ a < 0x400A0000) ∨ (0x400C0000 ≤ a ∧ a < 0x400D0000) then 0
  else if 0x400D0000 ≤ a ∧ a < 0x400F0000 then 400
  else 20

/-- The registers that run with time show the present instant: lane counters, the keeper's clock, what is left of the fog signal's T and
of the over period. (TIME.NOW is snapshot time and does not run.) -/
def State.liveShow (s : State) : State :=
  let s := s.flushTally.fogShow.rtcShow
  (s.ledgerShow 0).ledgerShow 1

/-- The present value of a register word, at the instant at which the request reaches the owner; the handshake takes at most the owner's
bound (R37, R92). -/
def execLive (l : Lane) (gd gb : GReg) (imm : BitVec 16) (w : Request) (s : State) : Host.Outcome State Fault Refusal :=
  done (s.runLane l fun x s =>
    let s := s.atTime w.t
    let a := x.effAddr gb imm
    let most := liveWait a
    if a % 4 ≠ 0 then s.setLane l (x.trap s.img.trapvec tcAlign (BitVec.ofNat 32 a) 4 most)
    else if regionOf a ≠ .regs ∨ unmapped a then s.setLane l (x.trap s.img.trapvec tcMap (BitVec.ofNat 32 a) 4 most)
    else
      let s := s.liveShow
      s.onLane l fun y => { (y.wg gd.val (s.reg (keyOf l a))).charge 4 (min w.waitNs most) with pc := y.pc + 4 })

def execSw (l : Lane) (gs gb : GReg) (imm : BitVec 16) (s : State) : Host.Outcome State Fault Refusal :=
  done (s.store l gs gb imm 4)

def execSh (l : Lane) (gs gb : GReg) (imm : BitVec 16) (s : State) : Host.Outcome State Fault Refusal :=
  done (s.store l gs gb imm 2)

def execSb (l : Lane) (gs gb : GReg) (imm : BitVec 16) (s : State) : Host.Outcome State Fault Refusal :=
  done (s.store l gs gb imm 1)

def execBeq (l : Lane) (gs gt : GReg) (off : BitVec 16) (s : State) : Host.Outcome State Fault Refusal :=
  done (s.branch l gs gt off fun a b => a == b)

def execBne (l : Lane) (gs gt : GReg) (off : BitVec 16) (s : State) : Host.Outcome State Fault Refusal :=
  done (s.branch l gs gt off fun a b => a != b)

def execBlt (l : Lane) (gs gt : GReg) (off : BitVec 16) (s : State) : Host.Outcome State Fault Refusal :=
  done (s.branch l gs gt off fun a b => decide (a.toInt < b.toInt))

def execBge (l : Lane) (gs gt : GReg) (off : BitVec 16) (s : State) : Host.Outcome State Fault Refusal :=
  done (s.branch l gs gt off fun a b => decide (b.toInt ≤ a.toInt))

def execBltu (l : Lane) (gs gt : GReg) (off : BitVec 16) (s : State) : Host.Outcome State Fault Refusal :=
  done (s.branch l gs gt off fun a b => decide (a.toNat < b.toNat))

def execBgeu (l : Lane) (gs gt : GReg) (off : BitVec 16) (s : State) : Host.Outcome State Fault Refusal :=
  done (s.branch l gs gt off fun a b => decide (b.toNat ≤ a.toNat))

def execJ (l : Lane) (off : BitVec 26) (s : State) : Host.Outcome State Fault Refusal :=
  done (s.runLane l fun x s => s.goTo l x (x.jTarget off))

/-- g31 := address + 4, then the jump (R78). A jump that traps writes no register (assumption 6). -/
def execJal (l : Lane) (off : BitVec 26) (s : State) : Host.Outcome State Fault Refusal :=
  done (s.runLane l fun x s =>
    let t := x.jTarget off
    s.goTo l (if t % 4 = 0 ∧ t < 0x40000 then x.wg 31 (BitVec.ofNat 32 (x.pc + 4)) else x) t)

/-- gd := address + 4, then pc := gb + sext(imm); the target uses gb as it was (R78). -/
def execJalr (l : Lane) (gd gb : GReg) (imm : BitVec 16) (s : State) : Host.Outcome State Fault Refusal :=
  done (s.runLane l fun x s =>
    let t := x.effAddr gb imm
    s.goTo l (if t % 4 = 0 ∧ t < 0x40000 then x.wg gd.val (BitVec.ofNat 32 (x.pc + 4)) else x) t)

end Sys2Proof.Machine
end

