-- ==== Sys2Proof/Machine/MulAcc.lean ====
section
/-! DEFINITION. Multiply, divide and accumulator instructions of the lanes (R71 to R73, R65, R66). -/

namespace Sys2Proof.Machine

/-- The results of the undefined division cases (R72): a divisor of 0 gives the limit of the dividend's sign, 0x8000_0000 by -1
saturates; each sets V. -/
def divW (a b : Word) : Word × Bool :=
  if b = 0 then (if a = 0 then 0 else if a.msb then 0x80000000#32 else 0x7FFFFFFF#32, true)
  else if a = 0x80000000#32 ∧ b = 0xFFFFFFFF#32 then (0x7FFFFFFF#32, true)
  else (wordOfInt (a.toInt.tdiv b.toInt), false)

def divuW (a b : Word) : Word × Bool := if b = 0 then (0xFFFFFFFF#32, true) else (BitVec.ofNat 32 (a.toNat / b.toNat), false)

def remW (a b : Word) : Word × Bool :=
  if b = 0 then (a, true)
  else if a = 0x80000000#32 ∧ b = 0xFFFFFFFF#32 then (0, true)
  else (wordOfInt (a.toInt.tmod b.toInt), false)

def remuW (a b : Word) : Word × Bool := if b = 0 then (a, true) else (BitVec.ofNat 32 (a.toNat % b.toNat), false)

/-- A division: flags Z, N and V, 34 cycles (R71). -/
def State.division (s : State) (l : Nat) (gd gs gt : GReg) (f : Word → Word → Word × Bool) : State :=
  s.runPure l fun x =>
    let r := f (x.rg gs.val) (x.rg gt.val)
    ((x.wg gd.val r.1).flagsZNV r.1 r.2).next 34

def execMul (l : Lane) (gd gs gt : GReg) (s : State) : Host.Outcome State Fault Refusal :=
  done (s.alu3 l gd gs gt 2 (· * ·))

def execMulh (l : Lane) (gd gs gt : GReg) (s : State) : Host.Outcome State Fault Refusal :=
  done (s.alu3 l gd gs gt 2 fun a b => wordOfInt (asr (a.toInt * b.toInt) 32))

def execMulhu (l : Lane) (gd gs gt : GReg) (s : State) : Host.Outcome State Fault Refusal :=
  done (s.alu3 l gd gs gt 2 fun a b => BitVec.ofNat 32 (a.toNat * b.toNat / 2 ^ 32))

/-- The Q31 product rounded half up (R71). -/
def execMulq31 (l : Lane) (gd gs gt : GReg) (s : State) : Host.Outcome State Fault Refusal :=
  done (s.alu3Sat l gd gs gt 2 fun a b => asrRound (a.toInt * b.toInt) 31)

def execDiv (l : Lane) (gd gs gt : GReg) (s : State) : Host.Outcome State Fault Refusal :=
  done (s.division l gd gs gt divW)

def execDivu (l : Lane) (gd gs gt : GReg) (s : State) : Host.Outcome State Fault Refusal :=
  done (s.division l gd gs gt divuW)

def execRem (l : Lane) (gd gs gt : GReg) (s : State) : Host.Outcome State Fault Refusal :=
  done (s.division l gd gs gt remW)

def execRemu (l : Lane) (gd gs gt : GReg) (s : State) : Host.Outcome State Fault Refusal :=
  done (s.division l gd gs gt remuW)

/-- Writes an accumulator result limited to 64 bits, with the sticky SAT (R66). -/
def LaneSt.putAcc (x : LaneSt) (ad : AReg) (r : Int) (c : Nat) : LaneSt :=
  ((x.wa ad.val (sat64 r).1).flagsSat (sat64 r).2).next c

/-- A multiply-accumulate: the accumulator plus a product of two registers (R73). -/
def State.macOp (s : State) (l : Nat) (ad : AReg) (gs gt : GReg) (f : Word → Word → Int) : State :=
  s.runPure l fun x => x.putAcc ad ((x.ra ad.val).toInt + f (x.rg gs.val) (x.rg gt.val)) 2

/-- The product of the low halves as signed Q15 values (R65). -/
def q15Product (a b : Word) : Int := (a.setWidth 16).toInt * (b.setWidth 16).toInt

def execMac (l : Lane) (ad : AReg) (gs gt : GReg) (s : State) : Host.Outcome State Fault Refusal :=
  done (s.macOp l ad gs gt fun a b => a.toInt * b.toInt)

def execMsu (l : Lane) (ad : AReg) (gs gt : GReg) (s : State) : Host.Outcome State Fault Refusal :=
  done (s.macOp l ad gs gt fun a b => -(a.toInt * b.toInt))

def execMacq15 (l : Lane) (ad : AReg) (gs gt : GReg) (s : State) : Host.Outcome State Fault Refusal :=
  done (s.macOp l ad gs gt fun a b => q15Product a b * 131072)

def execMsuq15 (l : Lane) (ad : AReg) (gs gt : GReg) (s : State) : Host.Outcome State Fault Refusal :=
  done (s.macOp l ad gs gt fun a b => -(q15Product a b * 131072))

def execMacq31 (l : Lane) (ad : AReg) (gs gt : GReg) (s : State) : Host.Outcome State Fault Refusal :=
  done (s.macOp l ad gs gt fun a b => asr (a.toInt * b.toInt) 15)

def execMsuq31 (l : Lane) (ad : AReg) (gs gt : GReg) (s : State) : Host.Outcome State Fault Refusal :=
  done (s.macOp l ad gs gt fun a b => -(asr (a.toInt * b.toInt) 15))

/-- A move to an accumulator: no flags, 1 cycle (R73). -/
def State.moveTo (s : State) (l : Nat) (ad : AReg) (gs : GReg) (f : BitVec 64 → Word → BitVec 64) : State :=
  s.runPure l fun x => (x.wa ad.val (f (x.ra ad.val) (x.rg gs.val))).next 1

def execMta (l : Lane) (ad : AReg) (gs : GReg) (s : State) : Host.Outcome State Fault Refusal :=
  done (s.moveTo l ad gs fun _ a => a.signExtend 64 <<< 16)

def execMtai (l : Lane) (ad : AReg) (gs : GReg) (s : State) : Host.Outcome State Fault Refusal :=
  done (s.moveTo l ad gs fun _ a => a.signExtend 64)

def execMtah (l : Lane) (ad : AReg) (gs : GReg) (s : State) : Host.Outcome State Fault Refusal :=
  done (s.moveTo l ad gs fun d a => (a.setWidth 64 <<< 32) ||| (d &&& 0xFFFFFFFF#64))

def execMtal (l : Lane) (ad : AReg) (gs : GReg) (s : State) : Host.Outcome State Fault Refusal :=
  done (s.moveTo l ad gs fun d a => (d &&& 0xFFFFFFFF00000000#64) ||| a.setWidth 64)

def execMfa (l : Lane) (gd : GReg) (ad : AReg) (s : State) : Host.Outcome State Fault Refusal :=
  done (s.runPure l fun x => x.putSat gd (asrRound (x.ra ad.val).toInt 16) 2)

def execMfai (l : Lane) (gd : GReg) (ad : AReg) (s : State) : Host.Outcome State Fault Refusal :=
  done (s.runPure l fun x => x.putSat gd (x.ra ad.val).toInt 2)

def execMfah (l : Lane) (gd : GReg) (ad : AReg) (s : State) : Host.Outcome State Fault Refusal :=
  done (s.runPure l fun x => x.putZN gd ((x.ra ad.val >>> 32).setWidth 32) 1)

def execMfal (l : Lane) (gd : GReg) (ad : AReg) (s : State) : Host.Outcome State Fault Refusal :=
  done (s.runPure l fun x => x.putZN gd ((x.ra ad.val).setWidth 32) 1)

def execClra (l : Lane) (ad : AReg) (s : State) : Host.Outcome State Fault Refusal :=
  done (s.runPure l fun x => (x.wa ad.val 0).next 1)

def execAdda (l : Lane) (ad ar : AReg) (s : State) : Host.Outcome State Fault Refusal :=
  done (s.runPure l fun x => x.putAcc ad ((x.ra ad.val).toInt + (x.ra ar.val).toInt) 1)

def execSuba (l : Lane) (ad ar : AReg) (s : State) : Host.Outcome State Fault Refusal :=
  done (s.runPure l fun x => x.putAcc ad ((x.ra ad.val).toInt - (x.ra ar.val).toInt) 1)

def execShra (l : Lane) (ad : AReg) (n : BitVec 5) (s : State) : Host.Outcome State Fault Refusal :=
  done (s.runPure l fun x => (x.wa ad.val ((x.ra ad.val).sshiftRight n.toNat)).next 1)

def execShla (l : Lane) (ad : AReg) (n : BitVec 5) (s : State) : Host.Outcome State Fault Refusal :=
  done (s.runPure l fun x => x.putAcc ad ((x.ra ad.val).toInt * (2 ^ n.toNat : Nat)) 1)

/-- Bounds an accumulator by two Q31 registers; CL is set when it changes (R73, R63). -/
def execClampa (l : Lane) (ad : AReg) (gl gh : GReg) (s : State) : Host.Outcome State Fault Refusal :=
  done (s.runPure l fun x =>
    let a := (x.ra ad.val).toInt
    let r := min (max a ((x.rg gl.val).toInt * 65536)) ((x.rg gh.val).toInt * 65536)
    let y := x.wa ad.val (BitVec.ofNat 64 (unsgn 64 r))
    { y with sw := swCl y.sw (r != a) }.next 2)

end Sys2Proof.Machine
end

