-- ==== Sys2Proof/Machine/Tide.lean ====
section
/-! DEFINITION. The tick (R155, R237), the tide deadline with its verdict (R125 to R128, R138, R149), and the tide boundary (R29 to R43,
R129 to R142, R147, R151). -/

namespace Sys2Proof.Machine

/-! ### The tick -/

/-- The hoist reference frame of the tick goes to the transmit side of HREF_CFG.PORT at 3.5 µs, and with DUAL to the port of the same number on
the other network (R223). -/
def State.hrefSend (s : State) : State :=
  if !s.mot.hrefOut then s
  else
    let port := s.fld MOTION.HREF_CFG_PORT
    let f := s.mot.hrefLast
    let send := fun (k : Nat) (s : State) =>
      s.devSend k (port % 2) f (s.now + 3500)
    let s := send (port / 2) s
    s.when (s.flag MOTION.HREF_CFG_DUAL) (send (1 - port / 2))

/-- The samples of POS, MOTION, DOOR, CTRL and DISPATCH at the present instant (R134, R155). -/
def State.tick (s : State) : State :=
  let s := { s with tickAt := some s.now }
  let port := s.fld MOTION.HREF_CFG_PORT
  let src := s.regN (NET.MAC_LO (port / 2) (port % 2)) + 2 ^ 32 * (s.regN (NET.MAC_HI (port / 2) (port % 2)) % 65536)
  let s := ((s.posTick.doorTake).motionTick src).hrefSend
  (s.adcBack (s.adcAhead.doorTick).ctrlTick).dspTick

/-- Whether a tick is due at the present instant and has not run: its nanosecond count is a multiple of 31 250 (R155). -/
def State.tickDue (s : State) : Bool := s.now % 31250 == 0 && s.tickAt != some s.now && s.coreUp

def execTick (t : Nat) (s : State) : Host.Outcome State Fault Refusal :=
  done (
    let s := s.atTime t
    if s.now = t ∧ s.tickDue ∧ !s.edgeWaits then s.tick else s)

/-! ### Records and the vote -/

/-- The 16 bytes of an element (R119). -/
def Elem.bytes (e : Elem) : List Byte :=
  leBytes 1 e.kind ++ leBytes 1 e.grp ++ leBytes 2 e.seq ++ leBytes 4 e.a ++ leBytes 4 e.v ++ leBytes 4 e.m

/-- The digest of a lane's record (R122). -/
def LaneSt.digest (x : LaneSt) : Nat := sha256 (x.stage.elems.flatMap Elem.bytes)

/-- A set of lanes as bits, lane A bit 0. -/
def laneMask (l : List Nat) : Nat := l.foldl (fun n k => n + 2 ^ k) 0

/-- The lanes of a bit mask. -/
def maskLanes (m : Nat) : List Nat := [0, 1, 2].filter fun l => bitB m l

/-- The greatest set of lanes whose records agree, the lowest-lettered first; none when no two agree. -/
def agreeing (l : List (Nat × Nat)) : List Nat :=
  match l.find? (fun p => decide (2 ≤ l.countP fun q => q.2 == p.2)) with
  | none => []
  | some p => (l.filter fun q => q.2 == p.2).map (·.1)

/-- The outcome from the number of voting lanes and of agreeing records (R127, R128): 1 FULL, 2 MAJ, 3 PAIR, 4 NOMAJ, 6 PAIR_MIS. -/
def outcomeOf (voters agree : Nat) : Nat :=
  if voters = 3 then (if agree = 3 then 1 else if agree = 2 then 2 else 4)
  else if voters = 2 then (if agree = 2 then 3 else 6)
  else 4

/-- Whether a tide has a majority: FULL, MAJ or PAIR. -/
def applied (outcome : Nat) : Bool := outcome == 1 || outcome == 2 || outcome == 3

/-- The lanes whose records count: VOTING and DOUBTFUL, and a lane that has presented its record and is in its slot (R475). -/
def State.recorders (s : State) : List Nat := [0, 1, 2].filter fun l => decide (s.laneState l ≤ 2)

/-- The groups of the applied record (R123, R126). -/
def State.votedGroups (s : State) (v : Verdict) : List (Nat × List Item) :=
  match maskLanes v.agree with
  | l :: _ => (s.lane l).stage.closed
  | [] => []

/-- The verdict of the tide (R126 to R128), before the checks; `deliv` tells that a shared block found the two delivered sets to differ. Without a common
snapshot no lane started, and no lane is charged (R38). -/
def State.verdict (s : State) (deliv : Bool) : Verdict :=
  let vs := s.recorders
  let dn := vs.filter fun l => (s.lane l).stage.done
  let miss := vs.filter fun l => !(s.lane l).stage.done
  let ag := if s.gal.started then agreeing (dn.map fun l => (l, (s.lane l).digest)) else []
  let oc := if s.gal.started then outcomeOf vs.length ag.length else 4
  let ag := if applied oc then ag else []
  let diff := dn.filter fun l => !ag.contains l
  let charged :=
    if !s.gal.started then []
    else if oc = 2 then vs.filter fun l => !ag.contains l
    else if oc = 4 ∧ vs.length = 3 then miss
    else []
  let bad := deliv && applied oc
  let d := match ag with
    | l :: _ => (s.lane l).digest
    | [] => 0
  let shadows := if bad || ag.isEmpty then [] else [0, 1, 2].filter fun l => s.laneState l == 7
  let ok := fun l => (s.lane l).stage.done && (s.lane l).digest == d
  { outcome := if bad then 5 else oc
    diff := laneMask diff
    missing := laneMask miss
    agree := if bad then 0 else laneMask ag
    charged := laneMask charged
    shadow := laneMask (shadows.filter ok)
    shadowBad := laneMask (shadows.filter fun l => !ok l)
    started := s.gal.started
    digest := d
    groups := match ag with
      | l :: _ => if bad then 0 else (s.lane l).stage.closed.length
      | [] => 0
    plan := []
    refused := Refused.none }

/-- The lanes that apply lane-private items, those that only check them, and shadow lanes with a matching record (R126, R133, R137,
R151, R358). -/
def State.roles (s : State) (v : Verdict) : Roles :=
  let vs := s.recorders
  ⟨vs.filter fun l => bitB v.agree l, vs.filter fun l => !bitB v.agree l, [0, 1, 2].filter fun l => s.laneState l == 7 && bitB v.shadow l⟩

/-- The blocks run the checks of R116 on the agreed write set, as of the boundary at which it applies, and hold the result (R125). -/
def State.checked (s : State) (v : Verdict) : Verdict :=
  if applied v.outcome then
    let p := { s with now := s.gal.edge.due }.groupsRun (s.roles v) (s.votedGroups v)
    { v with plan := p.2.1, refused := p.2.2 }
  else v

/-- Lines of a donor that are dirty: of DRAM, of its engine, and of its SAFE configuration (R148, R262). -/
def State.dirtyLines (s : State) (d : Nat) : Nat := (s.lane d).dirty.length + (s.lane d).engDirty.length

/-- How many of the 16 lines of a donor's event counters and lane context are dirty: the manual says neither what the context holds nor when a
counter reaches its line, so the number is free once the lane has started the tide (assumption 2). -/
def State.dirtyContext (s : State) : Nat × State :=
  if s.gal.started then
    let f := s.free
    (f.1 % 17, f.2)
  else (0, s)

/-- Relief at a deadline: dirty lines are counted, and a deadline pass or a catch-up pass sends them (R149, R154); `bad` tells that the
donor's port met an uncorrectable error in that pass (R147). -/
def State.reliefDeadline (s : State) (major bad : Bool) : State :=
  match s.recipient with
  | none => s
  | some l =>
    if s.laneState l ≠ 6 ∨ s.gal.relief.phase ≠ 2 then s
    else
      let d := s.fld GALLERY.RELIEF_STS_DONOR
      let c := s.dirtyContext
      let n := s.dirtyLines d + c.1
      let s := c.2.setFld GALLERY.RELIEF_STS_DIRTY n
      let s := s.onRelief fun r => { r with tides := r.tides + 1 }
      if !major then s.copyAbort
      else
        let lim := (s.fld GALLERY.TIDE_CFG_GUARD * 1000 - 5000) / 32
        let s := s.setFld GALLERY.RELIEF_STS_PASS (min 15 (s.fld GALLERY.RELIEF_STS_PASS + 1))
        let s := s.onLane d fun x => { x with dirty := [], engDirty := [] }
        if bad then s.donorEcc l else if n ≤ lim then s.onRelief fun r => { r with phase := 3 } else s.copyAbort

/-- The deadline: running lanes are stopped, the verdict is reached and the blocks check the write set (R125, R138). -/
def State.deadline (s : State) (deliv copyBad : Bool) : State :=
  let v := s.checked (s.verdict deliv)
  let s := s.forAll [0, 1, 2] fun l s => s.onLane l fun x =>
    { x with run := false, wait := none, stage := if x.stage.done then x.stage else Stage.empty }
  (s.onGal fun g => { g with verdict := some v }).reliefDeadline (applied v.outcome) copyBad

/-- A tide runs: the part is up, runs a valid image and has passed its first boundary (R109, R494). -/
def State.tideRuns (s : State) : Bool := s.sys.phase == 2 && s.sys.up && s.img.valid && decide (s.power ≤ 2)

/-- The tide deadline, GUARD before the boundary (R31). -/
def execTideDeadline (t : Nat) (bad : DeadlineErr) (s : State) : Host.Outcome State Fault Refusal :=
  done (
    let s := s.atTime t
    if s.now = t ∧ s.tideRuns && s.gal.verdict.isNone && s.edgeDue s.gal.edge.guard then s.deadline bad.delivMis bad.copyBad else s)

/-! ### The boundary: lane states -/

/-- A lane that is charged with a disagreement (R127, R141). -/
def State.charge (s : State) (l : Nat) (differs : Bool) : State :=
  let s := s.bumpReg (GALLERY.DIS_CNT l) 1
  let lost := (s.lane l).lost
  let c := if differs then 1 else if lost = 0 then 2 else lost
  if s.laneState l = 1 then s.laneRemove l c
  else if s.laneState l ≠ 0 then s
  else ((s.setLaneState l 1).setFld (GALLERY.LANE_STS_DOUBT_LEFT l) 16).laneCause l c

/-- What ended a lane's tide without a record is its LAST_CAUSE, whatever the outcome (R139). -/
def State.lostCauses (s : State) : State :=
  s.forAll [0, 1, 2] fun l s => let c := (s.lane l).lost; if c = 0 then s else s.laneCause l c

/-- Charges and doubt windows at a boundary (R141). -/
def State.doubts (s : State) (v : Option Verdict) : State :=
  let charged := match v with
    | none => 0
    | some v => v.charged
  let diff := match v with
    | none => 0
    | some v => v.diff
  s.forAll [0, 1, 2] fun l s =>
    if bitB charged l then s.charge l (bitB diff l)
    else if s.laneState l = 1 then
      (s.setFld (GALLERY.LANE_STS_DOUBT_LEFT l) (s.fld (GALLERY.LANE_STS_DOUBT_LEFT l) - 1)).doubtExpire l
    else s

/-- Lanes that were SILENT, and lanes with a failed segment, are removed (R142, R477); a shadow lane whose record failed as well ends its
relief as a failure (R151, R153). -/
def State.removals (s : State) (v : Option Verdict) : State :=
  let failed := s.tests.failed
  let silent := s.gal.silent
  let s := (s.onTests fun t => { t with failed := 0 }).onGal fun g => { g with silent := 0 }
  s.forAll [0, 1, 2] fun l s =>
    if bitB failed l && s.laneState l != 3 && s.laneState l != 8 then s.laneRemove l 7
    else if bitB silent l && s.judged l then
      if s.laneState l = 7 ∧ (v.any fun v => bitB v.shadowBad l) then ((s.reliefFail l 6).charOff l) else s.laneRemove l 3
    else s

/-! ### The boundary: the verdict -/

/-- What the gallery records of a verdict (R117, R130); answers the cause of DARK that it gives, 0 for none (R128, R130). -/
def State.verdictShow (s : State) (v : Verdict) : Nat × State :=
  let s := (s.setFld GALLERY.COMMIT_STS_OUTCOME v.outcome).setFld GALLERY.COMMIT_STS_GROUPS v.groups
  let s := ((s.setFld GALLERY.VOTE_STS_DIFF v.diff).setFld GALLERY.VOTE_STS_MISSING v.missing).setFld GALLERY.VOTE_STS_AGREE v.agree
  let s := s.refusedShow Refused.none
  if applied v.outcome then
    let s := s.forAll (upto 8) fun k s => s.setN (GALLERY.DIGEST k) (v.digest / 2 ^ (32 * k))
    let s := (s.setFld GALLERY.VOTE_STS_NOMAJ_RUN 0).onSys fun x => { x with pinHeart := !x.pinHeart }
    (0, s.when (v.outcome == 2) fun s => s.fire 239)
  else if v.outcome = 6 then
    -- a handover that runs already ends in DARK too, once it completes (R128)
    if s.rangeState = 5 then (0, s.onRange fun r => { r with mis := true })
    else if s.rangeState = 4 ∧ s.flag RANGE.STS_P_READY then (0, s.handStart true)
    else (3, s)
  else
    let n := min 2 (s.fld GALLERY.VOTE_STS_NOMAJ_RUN + 1)
    let s := (s.bumpReg GALLERY.NOMAJ_CNT 1).setFld GALLERY.VOTE_STS_NOMAJ_RUN n
    (if n = 2 then 2 else 0, s)

/-- Events presented in a tide whose set was not applied are latched again, with their earliest stamps (R129). -/
def State.relatch (s : State) : State :=
  s.gal.tidePres.foldl (fun s p =>
    let src := p.1
    let k := src / 32
    let b := src % 32
    let again := bitB (s.regN (GALLERY.EVT_PEND k)) b
    let stamp := if again then min p.2.stamp (mget zeroNat s.gal.evtStamp src) else p.2.stamp
    let s := s.setN (GALLERY.EVT_PEND k) (setBits (s.regN (GALLERY.EVT_PEND k)) b 1 1)
    let s := s.setN (GALLERY.EVT_OVR k) (setBits (s.regN (GALLERY.EVT_OVR k)) b 1
      (b2n (again || p.2.ovr || bitB (s.regN (GALLERY.EVT_OVR k)) b)))
    s.onGal fun g => { g with evtStamp := mput zeroNat g.evtStamp src stamp }) s

/-- A plan without its writes of SYS.MODE: a forced entry to DARK at the same boundary wins over them (R509). -/
def Plan.noMode (p : Plan) : Plan :=
  { p with items := p.items.filter fun i =>
      match i with
      | .word _ a _ _ => a != SYS.MODE
      | _ => true }

/-- Whether the donor of a copy fails at this boundary: it no longer votes, or its record of the ended tide differs or is missing (R147). -/
def State.donorOut (s : State) (v : Option Verdict) : Bool :=
  let d := s.fld GALLERY.RELIEF_STS_DONOR
  let copying := (s.recipient.any fun l => s.laneState l == 6) && decide (1 ≤ s.gal.relief.phase ∧ s.gal.relief.phase ≤ 3)
  copying && (!s.votes d || v.any fun v => v.started && (bitB v.diff d || bitB v.missing d))

/-- The causes of DARK that act at this boundary: `c` is that of the verdict, 0 for none, then the end of a handover that PAIR_MIS started, and
one lane alone that votes; `before` is the number of lanes that voted when the last boundary had passed (R131, R467, R489). A failed donor counts too, but for a
handover that PAIR_MIS has started, which stands in for DARK (R128, R147). -/
def State.darkCauses (s : State) (v : Option Verdict) (c before : Nat) : List Nat :=
  let single := decide (1 < before) && decide (s.voters.length ≤ 1)
  (if c ≠ 0 then [c] else []) ++ (if s.handDark && c ≠ 3 then [3] else []) ++ (if single then [4] else []) ++
    (if s.donorOut v && !(s.rangeState == 5 && s.range.mis) then [5] else []) ++ s.sys.darks ++
    (if s.keep.bite then [6] else [])

/-- The accepted groups of a tide take effect, and events of a tide without majority are latched again (R31, R125, R129). -/
def State.verdictApply (s : State) (v : Verdict) (forced : Bool) : State :=
  if applied v.outcome then
    let p := s.planApply (s.roles v) (if forced then v.plan.map Plan.noMode else v.plan) v.refused
    s.writeEnd p.1 p.2
  else s.relatch

/-- The verdict takes effect (R31, R129 to R131, R489): the write set, then entry to DARK. `before` is the number of lanes that voted
when the last boundary had passed. -/
def State.decide' (s : State) (v : Option Verdict) (before : Nat) : State :=
  let p := match v with
    | none => (0, s)
    | some v => s.verdictShow v
  let cs := p.2.darkCauses v p.1 before
  let s := (p.2.onSys fun x => { x with darks := [] }).onKeep fun k => { k with bite := false }
  let s := match v with
    | none => s
    | some v => s.verdictApply v (cs != [])
  if s.sys.phase ≠ 2 then s else cs.foldl State.darkEntry s

/-! ### The boundary: relief -/

/-- A lane whose relief is due: requested, or REMOVED with AUTO (R146). -/
def State.reliefNext (s : State) : Option Nat :=
  if s.flag HEALTH.ST_STS_IMG_BAD then none
  else [0, 1, 2].find? fun l =>
    (s.laneState l == 3 && (s.flag GALLERY.RELIEF_CFG_AUTO || bitB s.gal.relPend l)) || (s.laneState l == 8 && bitB s.gal.relPend l)

/-- COPY at a boundary: the bulk pass starts, the donor is judged (its DARK is one of `darkCauses`), the final pass is sent (R147, R149). -/
def State.copyBoundary (s : State) (v : Option Verdict) (l : Nat) : State :=
  let r := s.gal.relief
  if r.phase = 0 then
    match s.donor with
    | none => s
    | some d =>
      let s := (s.setFld GALLERY.RELIEF_STS_DONOR d).setFld GALLERY.RELIEF_STS_PASS 1
      (s.onLane d fun x => { x with dirty := [], engDirty := [] }).onRelief fun _ => ⟨1, 0, s.now + 5000⟩
  else if r.phase = 1 ∨ r.phase = 2 ∨ r.phase = 3 then
    let d := s.fld GALLERY.RELIEF_STS_DONOR
    let major := match v with
      | none => false
      | some v => applied v.outcome
    if s.donorOut v then s.donorFail l
    else if (s.lane l).railLost || (s.lane l).clkLost then s.reliefFail l 5
    else if r.phase == 3 && major then (s.copyLane d l).onRelief fun r => { r with phase := 5 }
    else s
  else s

/-- Relief at a boundary: the shadow record, the copy, and the start of a relief that is due (R146 to R153). After a copy that its donor's
failure has ended, AUTO = 1 makes the relief due again at this same boundary (R146): the model's choice, where R147 says no more than that the
recipient stays REMOVED (assumption 23). -/
def State.reliefBoundary (s : State) (v : Option Verdict) : State :=
  let s := s.forAll [0, 1, 2] fun l s => s.setFld (GALLERY.LANE_STS_RELIEF_FAIL l) (min 3 (s.failsOf l))
  let s := match s.recipient with
    | none => s
    | some l =>
      if s.laneState l = 6 then s.copyBoundary v l
      else if s.laneState l = 7 then
        match v with
        | none => s
        | some v =>
          if bitB v.shadow l then (s.setFld (GALLERY.LANE_STS_SHADOW_CNT l) (s.fld (GALLERY.LANE_STS_SHADOW_CNT l) + 1)).shadowReturn l
          else if bitB v.shadowBad l then s.reliefFail l 6
          else s
      else s
  match s.recipient, s.reliefNext with
  | none, some l => s.reliefStart l
  | _, _ => s

/-- RANGE at a boundary: the partner's takeover ends a SHADOW (R154, R467). With RELIEF_CFG.AUTO = 1 the lane's relief is due again at the
next boundary (R146): the model's choice, since R154 says no more than that the lane stays REMOVED (assumption 23). -/
def State.rangeTurn (s : State) (good : Bool) : State :=
  let u := s.rangeBoundary good
  match u.recipient with
  | none => u
  | some l => if s.rangeState == 5 && u.rangeState == 2 && u.laneState l == 7 then u.reliefStop l else u

/-! ### The boundary: time, snapshot and tide start -/

/-- The keeper's clock follows device time (R504). -/
def State.rtcSync (s : State) : State :=
  let due := match s.keep.syncAt with
    | none => true
    | some t => decide (60000000000 ≤ s.freeRun - t)
  if s.flag KEEPER.CFG_RTC_SYNC && s.flag TIME.STS_LOCKED && due then (s.rtcSet s.now).onKeep fun k => { k with syncAt := some s.freeRun }
  else s

/-- TIDE_STS of the ended tide (R38). -/
def State.tideSts (s : State) (late : BitVec 3) : State :=
  (s.setFld GALLERY.TIDE_STS_BELLS (min 7 s.gal.bells.length)).setFld GALLERY.TIDE_STS_SNAP_LATE late.toNat

/-- Registers that show the present instant at the boundary; NOW_SEC_HI holds the fraction above the upper seconds (R34, R89). -/
def State.nowShow (s : State) : State :=
  let sec := s.now / 1000000000
  let s := (s.setN TIME.NOW_SEC_LO (sec % 2 ^ 32)).setN TIME.NOW_SEC_HI (fracOf s.osc * 65536 + sec / 2 ^ 32 % 65536)
  ((s.setN TIME.NOW_NS (s.now % 1000000000)).fogShow.rtcShow.faultShow).hirqShow

/-- The exchange of the snapshot digests, after the capture (R38). When no two agree SNAP_MIS stays as it was (assumption 29). -/
def State.snapMis (s : State) (snap : SnapDigests) : State :=
  match snap with
  | .differs _ => s.stick GALLERY.TIDE_STS_SNAP_MIS
  | _ => s

/-- A ring's head and status in the snapshot leave out hardware pushes of the boundary instant (R39). -/
def State.snapRing (s : State) (m : List (Nat × Word)) (p : Nat × (Nat × Nat)) : List (Nat × Word) :=
  if p.2.1 = s.now ∧ p.2.2 ≠ s.ringHead p.1 then
    let n := p.1
    let c := ringDiff p.2.2 (s.ringTail n)
    let sts := setBits (setBits (s.regN (RINGS.RING_STS n)) 0 1 (b2n (c == 0))) 1 1 (b2n (c == s.ringSize n))
    mput s.rst (mput s.rst m (RINGS.RING_HEAD n) (BitVec.ofNat 32 p.2.2)) (RINGS.RING_STS n) (BitVec.ofNat 32 sts)
  else m

/-- The snapshot of the present instant (R34). -/
def State.capture (s : State) : State :=
  { s with snap := ⟨s.ringPre.foldl s.snapRing s.regs, s.now, fracOf s.osc⟩ }

/-- The lanes that start the tide (R140): not those that have lost their clock, or that their rail has held in reset since they were loaded
(R516). -/
def State.starters (s : State) : List Nat :=
  [0, 1, 2].filter fun l => s.judged l && !(s.lane l).clkLost && !(s.lane l).railHeld

/-- The next tide starts (R31, R38, R41), when the power state and the image let it; events are presented with the boundary as cut. -/
def State.nextTide (s : State) (snap : SnapDigests) : State :=
  let s := s.onGal fun g => { g with verdict := none, bells := [], folds := [], tidePres := [], started := false }
  let s := s.forAll [0, 1, 2] fun l s => s.onLane l fun x => { x with run := false, wait := none, stage := Stage.empty, lost := 0 }
  if s.tideRuns && snap != SnapDigests.none then
    let p := s.present s.now
    let s := p.2.onGal fun g => { g with started := true }
    s.forAll s.starters fun l s => s.tideStart l p.1
  else s

/-- A boundary leaves out the host's writes of SYS.LTR at its own instant, which replace the value from their completion on (R39): the state
without them, and what the last one wrote. -/
def State.ltrLess (s : State) : State × Option Nat :=
  match s.host.ltrPre with
  | none => (s, none)
  | some p =>
    if p.1 = s.now then ({ s.setN SYS.LTR p.2.1 with host := { s.host with ltr := p.2.2, ltrPre := none } }, some (s.regN SYS.LTR)) else (s, none)

/-- The host's write of SYS.LTR at the instant of a boundary takes effect after it: from P2 or P3 the device wakes at once (R39, R509). -/
def State.ltrBack (s : State) (v : Option Nat) : State :=
  match v with
  | none => s
  | some v => s.hostLtr v

/-- A wake cause that met the entry to P2 or P3 ends it at once (R509). -/
def State.wakeMet (s : State) (n : Option Nat) : State :=
  match n with
  | none => s
  | some n => s.wakeUp 1 n

/-- The length of the tide that starts, in ns: P2_TIDE in P2, else PERIOD (R29, R493). -/
def State.tideLen (s : State) : Nat :=
  if s.power = 2 then s.fld SYS.PWR_CFG_P2_TIDE * 1000000 else s.fld GALLERY.TIDE_CFG_PERIOD * 1000

/-- The boundary generator counts from this boundary (R30). -/
def State.edgeNext (s : State) : State :=
  s.onGal fun g => { g with edge := ⟨s.now, s.now + s.tideLen, s.tideLen, s.fld GALLERY.TIDE_CFG_GUARD * 1000, false, s.voters.length⟩ }

/-- The first part of a boundary: the ended tide's verdict takes effect. -/
def State.boundaryEnd (s : State) : State :=
  let s := s.flushTally.slotStop
  let s := s.setCnt48 GALLERY.TIDE_NUM_LO ((s.cnt48 GALLERY.TIDE_NUM_LO + 1) % 2 ^ 48)
  let v := s.gal.verdict
  let s := (s.lostCauses.doubts v).removals v
  let s := s.decide' v s.gal.edge.voted
  if s.sys.phase ≠ 2 then s else (s.reliefBoundary v).voteShow

/-- The second part: what blocks do at the boundary. -/
def State.boundaryBlocks (s : State) (good : Bool) : State :=
  let s := match s.net.servo.step with
    | none => s
    | some m => s.timeStep m false
  let s := s.rtcSync.mapBoundary
  let s := if s.tickDue then s.tick else s
  let s := s.dspBoundary.rangeTurn good
  let s := (s.powerSelect.voteShow).fieldSettle
  let s := s.when s.startDue State.startSlots
  (({ s with host := { s.host with ltr := none } }).onSys fun x => { x with up := true }).edgeNext

/-- The third part: status, snapshot and the start of the next tide. The events that the tide start presents are still pending in the
snapshot, which is of the boundary instant (assumption 29). -/
def State.boundaryStart (s : State) (snap : SnapDigests) (late : BitVec 3) : State :=
  let s := (s.tideSts late).slotTurn.healthReport.nowShow
  (s.capture.snapMis snap).nextTide snap

/-- A tide boundary, one tide after the last (R30, R31). None occurs in P3 and P4, or before start-up ends (R494, R495, R497). `late`
names the lanes that received the ended tide's snapshot late, and `frac` the rest of the boundary's instant below the ns (R415). -/
def execBoundary (t frac : Nat) (snap : SnapDigests) (late : BitVec 3) (s : State) : Host.Outcome State Fault Refusal :=
  done (
    let s := s.atTime t
    if s.now ≠ t ∨ s.sys.phase ≠ 2 ∨ 2 < s.power ∨ !s.edgeDue 0 then s
    else
      let p := { s with osc := s.oscAt t frac }.ltrLess
      let s := p.1
      let good := match s.gal.verdict with
        | none => false
        | some v => applied v.outcome
      let s := s.boundaryEnd
      if s.sys.phase ≠ 2 ∨ s.power = 4 then s
      else
        let s := s.boundaryBlocks good
        ((s.boundaryStart snap late).wakeMet s.wakeNow).ltrBack p.2)

end Sys2Proof.Machine
end

