-- ==== Sys2Proof/Machine/Dispatch.lean ====
section
/-! DEFINITION. One arm per command: each calls its meaning. -/

namespace Sys2Proof.Machine

def exec (i : Instr) (s : State) : Host.Outcome State Fault Refusal :=
  match i with
  | .add l gd gs gt => Sys2Proof.Machine.execAdd l gd gs gt s
  | .sub l gd gs gt => Sys2Proof.Machine.execSub l gd gs gt s
  | .adds l gd gs gt => Sys2Proof.Machine.execAdds l gd gs gt s
  | .subs l gd gs gt => Sys2Proof.Machine.execSubs l gd gs gt s
  | .and l gd gs gt => Sys2Proof.Machine.execAnd l gd gs gt s
  | .or l gd gs gt => Sys2Proof.Machine.execOr l gd gs gt s
  | .xor l gd gs gt => Sys2Proof.Machine.execXor l gd gs gt s
  | .slt l gd gs gt => Sys2Proof.Machine.execSlt l gd gs gt s
  | .sltu l gd gs gt => Sys2Proof.Machine.execSltu l gd gs gt s
  | .sll l gd gs gt => Sys2Proof.Machine.execSll l gd gs gt s
  | .srl l gd gs gt => Sys2Proof.Machine.execSrl l gd gs gt s
  | .sra l gd gs gt => Sys2Proof.Machine.execSra l gd gs gt s
  | .slli l gd gs n => Sys2Proof.Machine.execSlli l gd gs n s
  | .srli l gd gs n => Sys2Proof.Machine.execSrli l gd gs n s
  | .srai l gd gs n => Sys2Proof.Machine.execSrai l gd gs n s
  | .min l gd gs gt => Sys2Proof.Machine.execMin l gd gs gt s
  | .max l gd gs gt => Sys2Proof.Machine.execMax l gd gs gt s
  | .minu l gd gs gt => Sys2Proof.Machine.execMinu l gd gs gt s
  | .maxu l gd gs gt => Sys2Proof.Machine.execMaxu l gd gs gt s
  | .abs l gd gs => Sys2Proof.Machine.execAbs l gd gs s
  | .abss l gd gs => Sys2Proof.Machine.execAbss l gd gs s
  | .neg l gd gs => Sys2Proof.Machine.execNeg l gd gs s
  | .negs l gd gs => Sys2Proof.Machine.execNegs l gd gs s
  | .clz l gd gs => Sys2Proof.Machine.execClz l gd gs s
  | .shls l gd gs gt => Sys2Proof.Machine.execShls l gd gs gt s
  | .extu l gd gs lsb lenM1 => Sys2Proof.Machine.execExtu l gd gs lsb lenM1 s
  | .exts l gd gs lsb lenM1 => Sys2Proof.Machine.execExts l gd gs lsb lenM1 s
  | .ins l gd gs lsb lenM1 => Sys2Proof.Machine.execIns l gd gs lsb lenM1 s
  | .clamp l gd gs gl gh => Sys2Proof.Machine.execClamp l gd gs gl gh s
  | .clampu l gd gs gl gh => Sys2Proof.Machine.execClampu l gd gs gl gh s
  | .addi l gd gs imm => Sys2Proof.Machine.execAddi l gd gs imm s
  | .addis l gd gs imm => Sys2Proof.Machine.execAddis l gd gs imm s
  | .slti l gd gs imm => Sys2Proof.Machine.execSlti l gd gs imm s
  | .sltiu l gd gs imm => Sys2Proof.Machine.execSltiu l gd gs imm s
  | .andi l gd gs imm => Sys2Proof.Machine.execAndi l gd gs imm s
  | .ori l gd gs imm => Sys2Proof.Machine.execOri l gd gs imm s
  | .xori l gd gs imm => Sys2Proof.Machine.execXori l gd gs imm s
  | .lui l gd imm => Sys2Proof.Machine.execLui l gd imm s
  | .mul l gd gs gt => Sys2Proof.Machine.execMul l gd gs gt s
  | .mulh l gd gs gt => Sys2Proof.Machine.execMulh l gd gs gt s
  | .mulhu l gd gs gt => Sys2Proof.Machine.execMulhu l gd gs gt s
  | .mulq31 l gd gs gt => Sys2Proof.Machine.execMulq31 l gd gs gt s
  | .div l gd gs gt => Sys2Proof.Machine.execDiv l gd gs gt s
  | .divu l gd gs gt => Sys2Proof.Machine.execDivu l gd gs gt s
  | .rem l gd gs gt => Sys2Proof.Machine.execRem l gd gs gt s
  | .remu l gd gs gt => Sys2Proof.Machine.execRemu l gd gs gt s
  | .mac l ad gs gt => Sys2Proof.Machine.execMac l ad gs gt s
  | .msu l ad gs gt => Sys2Proof.Machine.execMsu l ad gs gt s
  | .macq15 l ad gs gt => Sys2Proof.Machine.execMacq15 l ad gs gt s
  | .msuq15 l ad gs gt => Sys2Proof.Machine.execMsuq15 l ad gs gt s
  | .macq31 l ad gs gt => Sys2Proof.Machine.execMacq31 l ad gs gt s
  | .msuq31 l ad gs gt => Sys2Proof.Machine.execMsuq31 l ad gs gt s
  | .mta l ad gs => Sys2Proof.Machine.execMta l ad gs s
  | .mtai l ad gs => Sys2Proof.Machine.execMtai l ad gs s
  | .mtah l ad gs => Sys2Proof.Machine.execMtah l ad gs s
  | .mtal l ad gs => Sys2Proof.Machine.execMtal l ad gs s
  | .mfa l gd ad => Sys2Proof.Machine.execMfa l gd ad s
  | .mfai l gd ad => Sys2Proof.Machine.execMfai l gd ad s
  | .mfah l gd ad => Sys2Proof.Machine.execMfah l gd ad s
  | .mfal l gd ad => Sys2Proof.Machine.execMfal l gd ad s
  | .clra l ad => Sys2Proof.Machine.execClra l ad s
  | .adda l ad ar => Sys2Proof.Machine.execAdda l ad ar s
  | .suba l ad ar => Sys2Proof.Machine.execSuba l ad ar s
  | .shra l ad n => Sys2Proof.Machine.execShra l ad n s
  | .shla l ad n => Sys2Proof.Machine.execShla l ad n s
  | .clampa l ad gl gh => Sys2Proof.Machine.execClampa l ad gl gh s
  | .lw l gd gb imm ecc => Sys2Proof.Machine.execLw l gd gb imm ecc s
  | .lh l gd gb imm ecc => Sys2Proof.Machine.execLh l gd gb imm ecc s
  | .lhu l gd gb imm ecc => Sys2Proof.Machine.execLhu l gd gb imm ecc s
  | .lb l gd gb imm ecc => Sys2Proof.Machine.execLb l gd gb imm ecc s
  | .lbu l gd gb imm ecc => Sys2Proof.Machine.execLbu l gd gb imm ecc s
  | .live l gd gb imm w => Sys2Proof.Machine.execLive l gd gb imm w s
  | .sw l gs gb imm => Sys2Proof.Machine.execSw l gs gb imm s
  | .sh l gs gb imm => Sys2Proof.Machine.execSh l gs gb imm s
  | .sb l gs gb imm => Sys2Proof.Machine.execSb l gs gb imm s
  | .beq l gs gt off => Sys2Proof.Machine.execBeq l gs gt off s
  | .bne l gs gt off => Sys2Proof.Machine.execBne l gs gt off s
  | .blt l gs gt off => Sys2Proof.Machine.execBlt l gs gt off s
  | .bge l gs gt off => Sys2Proof.Machine.execBge l gs gt off s
  | .bltu l gs gt off => Sys2Proof.Machine.execBltu l gs gt off s
  | .bgeu l gs gt off => Sys2Proof.Machine.execBgeu l gs gt off s
  | .j l off => Sys2Proof.Machine.execJ l off s
  | .jal l off => Sys2Proof.Machine.execJal l off s
  | .jalr l gd gb imm => Sys2Proof.Machine.execJalr l gd gb imm s
  | .tbegin l => Sys2Proof.Machine.execTbegin l s
  | .tcommit l => Sys2Proof.Machine.execTcommit l s
  | .tcommitE l => Sys2Proof.Machine.execTcommitE l s
  | .tabort l => Sys2Proof.Machine.execTabort l s
  | .tabortE l => Sys2Proof.Machine.execTabortE l s
  | .tstage l ga gv gm => Sys2Proof.Machine.execTstage l ga gv gm s
  | .bell l gd t waitNs => Sys2Proof.Machine.execBell l gd t waitNs s
  | .bellSetAgreed k => Sys2Proof.Machine.execBellSetAgreed k s
  | .evnext l gd => Sys2Proof.Machine.execEvnext l gd s
  | .evstamp l gd => Sys2Proof.Machine.execEvstamp l gd s
  | .rpush l gr gp => Sys2Proof.Machine.execRpush l gr gp s
  | .rpop l gr gp ecc => Sys2Proof.Machine.execRpop l gr gp ecc s
  | .rcnt l gd gr => Sys2Proof.Machine.execRcnt l gd gr s
  | .tnow l gd => Sys2Proof.Machine.execTnow l gd s
  | .tnowL l gd t frac waitNs => Sys2Proof.Machine.execTnowL l gd t frac waitNs s
  | .tshort l gd => Sys2Proof.Machine.execTshort l gd s
  | .tshortL l gd t waitNs => Sys2Proof.Machine.execTshortL l gd t waitNs s
  | .text l gd gs => Sys2Proof.Machine.execText l gd gs s
  | .vfold l gd gs w => Sys2Proof.Machine.execVfold l gd gs w s
  | .vfoldValueFixed k => Sys2Proof.Machine.execVfoldValueFixed k s
  | .trap l n => Sys2Proof.Machine.execTrap l n s
  | .rdsw l gd => Sys2Proof.Machine.execRdsw l gd s
  | .wrsw l gs => Sys2Proof.Machine.execWrsw l gs s
  | .rdtp l gd => Sys2Proof.Machine.execRdtp l gd s
  | .rdtv l gd => Sys2Proof.Machine.execRdtv l gd s
  | .illegalWord l w => Sys2Proof.Machine.execIllegalWord l w s
  | .laneClockLoss l => Sys2Proof.Machine.execLaneClockLoss l s
  | .boundary t frac snap late => Sys2Proof.Machine.execBoundary t frac snap late s
  | .tideDeadline t bad => Sys2Proof.Machine.execTideDeadline t bad s
  | .doubtExpiry l => Sys2Proof.Machine.execDoubtExpiry l s
  | .characteristic l gal wire t => Sys2Proof.Machine.execCharacteristic l gal wire t s
  | .characteristicTimeout l path t => Sys2Proof.Machine.execCharacteristicTimeout l path t s
  | .pathFaultClear l path => Sys2Proof.Machine.execPathFaultClear l path s
  | .reliefResetDone ok t => Sys2Proof.Machine.execReliefResetDone ok t s
  | .reliefSelftestDone ok t => Sys2Proof.Machine.execReliefSelftestDone ok t s
  | .bulkPassComplete donorOk t => Sys2Proof.Machine.execBulkPassComplete donorOk t s
  | .copyCommit res t => Sys2Proof.Machine.execCopyCommit res t s
  | .copyAbort t => Sys2Proof.Machine.execCopyAbort t s
  | .reliefRetry t => Sys2Proof.Machine.execReliefRetry t s
  | .shadowReturn l => Sys2Proof.Machine.execShadowReturn l s
  | .snapMis => Sys2Proof.Machine.execSnapMis s
  | .reliefReq l => Sys2Proof.Machine.execReliefReq l s
  | .evtEn k v m => Sys2Proof.Machine.execEvtEn k v m s
  | .ringEn r en => Sys2Proof.Machine.execRingEn r en s
  | .ringClrDrops r => Sys2Proof.Machine.execRingClrDrops r s
  | .ringClrOvf r => Sys2Proof.Machine.execRingClrOvf r s
  | .ringProducerResume r t => Sys2Proof.Machine.execRingProducerResume r t s
  | .tick t => Sys2Proof.Machine.execTick t s
  | .encoderEdge n a b h => Sys2Proof.Machine.execEncoderEdge n a b h s
  | .encoderLoss n t => Sys2Proof.Machine.execEncoderLoss n t s
  | .indexCapture n h => Sys2Proof.Machine.execIndexCapture n h s
  | .ssiFrameStart m t => Sys2Proof.Machine.execSsiFrameStart m t s
  | .ssiFrameComplete m w w2 lineOk t => Sys2Proof.Machine.execSsiFrameComplete m w w2 lineOk t s
  | .anchorFailed m t => Sys2Proof.Machine.execAnchorFailed m t s
  | .daymarkEdge d lvl stamp t => Sys2Proof.Machine.execDaymarkEdge d lvl stamp t s
  | .stillTimeout t => Sys2Proof.Machine.execStillTimeout t s
  | .checkpointWriteComplete t => Sys2Proof.Machine.execCheckpointWriteComplete t s
  | .zarm n => Sys2Proof.Machine.execZarm n s
  | .encClrErrcnt n => Sys2Proof.Machine.execEncClrErrcnt n s
  | .encClrIdxErr n => Sys2Proof.Machine.execEncClrIdxErr n s
  | .encClrLoss n => Sys2Proof.Machine.execEncClrLoss n s
  | .encClrIllegal n => Sys2Proof.Machine.execEncClrIllegal n s
  | .encEn n en => Sys2Proof.Machine.execEncEn n en s
  | .ssiEn idx en => Sys2Proof.Machine.execSsiEn idx en s
  | .ssiClrErrcnt idx => Sys2Proof.Machine.execSsiClrErrcnt idx s
  | .ssiClrFlags idx => Sys2Proof.Machine.execSsiClrFlags idx s
  | .fusSrcConfig w0 w1 w2 w3 => Sys2Proof.Machine.execFusSrcConfig w0 w1 w2 w3 s
  | .ckpt => Sys2Proof.Machine.execCkpt s
  | .clrHealth slots => Sys2Proof.Machine.execClrHealth slots s
  | .clrMis => Sys2Proof.Machine.execClrMis s
  | .clrSlip => Sys2Proof.Machine.execClrSlip s
  | .reref => Sys2Proof.Machine.execReref s
  | .mapWin w v m => Sys2Proof.Machine.execMapWin w v m s
  | .save => Sys2Proof.Machine.execSave s
  | .mapSaveComplete ok t => Sys2Proof.Machine.execMapSaveComplete ok t s
  | .revert => Sys2Proof.Machine.execRevert s
  | .setn n => Sys2Proof.Machine.execSetn n s
  | .startUp => Sys2Proof.Machine.execStartUp s
  | .startDn => Sys2Proof.Machine.execStartDn s
  | .learnStop => Sys2Proof.Machine.execLearnStop s
  | .build => Sys2Proof.Machine.execBuild s
  | .cancel => Sys2Proof.Machine.execCancel s
  | .cmpArm c viaEn lo hi => Sys2Proof.Machine.execCmpArm c viaEn lo hi s
  | .cmpClr c => Sys2Proof.Machine.execCmpClr c s
  | .axEn a en => Sys2Proof.Machine.execAxEn a en s
  | .push a => Sys2Proof.Machine.execPush a s
  | .replace a => Sys2Proof.Machine.execReplace a s
  | .flush a => Sys2Proof.Machine.execFlush a s
  | .stop a => Sys2Proof.Machine.execStop a s
  | .qstop a => Sys2Proof.Machine.execQstop a s
  | .home a => Sys2Proof.Machine.execHome a s
  | .mqClrFlags a => Sys2Proof.Machine.execMqClrFlags a s
  | .mqClrFault a => Sys2Proof.Machine.execMqClrFault a s
  | .ferrFault a t => Sys2Proof.Machine.execFerrFault a t s
  | .homingEdge a c lvl stamp t => Sys2Proof.Machine.execHomingEdge a c lvl stamp t s
  | .relevReq t => Sys2Proof.Machine.execRelevReq t s
  | .revArm a arm => Sys2Proof.Machine.execRevArm a arm s
  | .gearEn en => Sys2Proof.Machine.execGearEn en s
  | .gearSwArm arm => Sys2Proof.Machine.execGearSwArm arm s
  | .outPhase n t => Sys2Proof.Machine.execOutPhase n t s
  | .slEn n en => Sys2Proof.Machine.execSlEn n en s
  | .clrI n => Sys2Proof.Machine.execClrI n s
  | .clrCells n => Sys2Proof.Machine.execClrCells n s
  | .slClrFlags n => Sys2Proof.Machine.execSlClrFlags n s
  | .restart n => Sys2Proof.Machine.execRestart n s
  | .slClrFault n => Sys2Proof.Machine.execSlClrFault n s
  | .cellPreload n idx v => Sys2Proof.Machine.execCellPreload n idx v s
  | .adcGroupSample g c0 c1 c2 c3 t => Sys2Proof.Machine.execAdcGroupSample g c0 c1 c2 c3 t s
  | .adcSaturation n t => Sys2Proof.Machine.execAdcSaturation n t s
  | .updatePoint d peak t => Sys2Proof.Machine.execUpdatePoint d peak t s
  | .tripInput d t => Sys2Proof.Machine.execTripInput d t s
  | .declaration d cause t => Sys2Proof.Machine.execDeclaration d cause t s
  | .stall d t => Sys2Proof.Machine.execStall d t s
  | .drvEn d en => Sys2Proof.Machine.execDrvEn d en s
  | .doorSlotWriteComplete d t => Sys2Proof.Machine.execDoorSlotWriteComplete d t s
  | .tblSwap d => Sys2Proof.Machine.execTblSwap d s
  | .frClr d => Sys2Proof.Machine.execFrClr d s
  | .doorClrFlags d => Sys2Proof.Machine.execDoorClrFlags d s
  | .clrObs d => Sys2Proof.Machine.execClrObs d s
  | .clrTrip d => Sys2Proof.Machine.execClrTrip d s
  | .fricPreload d r idx v => Sys2Proof.Machine.execFricPreload d r idx v s
  | .adcClrSat => Sys2Proof.Machine.execAdcClrSat s
  | .profileSave kind tgt rec' => Sys2Proof.Machine.execProfileSave kind tgt rec' s
  | .profileLoad kind tgt rec' => Sys2Proof.Machine.execProfileLoad kind tgt rec' s
  | .profileComplete ok t => Sys2Proof.Machine.execProfileComplete ok t s
  | .epochStart t => Sys2Proof.Machine.execEpochStart t s
  | .evaluationComplete t => Sys2Proof.Machine.execEvaluationComplete t s
  | .fragmentSend f t => Sys2Proof.Machine.execFragmentSend f t s
  | .fragmentReceive x p t => Sys2Proof.Machine.execFragmentReceive x p t s
  | .resolution t => Sys2Proof.Machine.execResolution t s
  | .resolutionComplete t => Sys2Proof.Machine.execResolutionComplete t s
  | .hallOpen w rec' => Sys2Proof.Machine.execHallOpen w rec' s
  | .hallClose w rec' => Sys2Proof.Machine.execHallClose w rec' s
  | .destOpen w rec' => Sys2Proof.Machine.execDestOpen w rec' s
  | .destClose w rec' => Sys2Proof.Machine.execDestClose w rec' s
  | .destPicked w rec' => Sys2Proof.Machine.execDestPicked w rec' s
  | .carAdd w rec' => Sys2Proof.Machine.execCarAdd w rec' s
  | .carRemove w rec' => Sys2Proof.Machine.execCarRemove w rec' s
  | .carClear w rec' => Sys2Proof.Machine.execCarClear w rec' s
  | .dspEn en => Sys2Proof.Machine.execDspEn en s
  | .dspClrMiss => Sys2Proof.Machine.execDspClrMiss s
  | .dspClrErr => Sys2Proof.Machine.execDspClrErr s
  | .dspClrDiverge => Sys2Proof.Machine.execDspClrDiverge s
  | .monitorCycle l broken lv t => Sys2Proof.Machine.execMonitorCycle l broken lv t s
  | .restTimeout l t => Sys2Proof.Machine.execRestTimeout l t s
  | .arm => Sys2Proof.Machine.execArm s
  | .lock => Sys2Proof.Machine.execLock s
  | .release => Sys2Proof.Machine.execRelease s
  | .reset => Sys2Proof.Machine.execReset s
  | .llpSlot t => Sys2Proof.Machine.execLlpSlot t s
  | .llpCopyReceive x p t => Sys2Proof.Machine.execLlpCopyReceive x p t s
  | .llpHoldExpiry node ty t => Sys2Proof.Machine.execLlpHoldExpiry node ty t s
  | .streamLost node t => Sys2Proof.Machine.execStreamLost node t s
  | .llpClr => Sys2Proof.Machine.execLlpClr s
  | .filteredChange n lvl stamp t => Sys2Proof.Machine.execFilteredChange n lvl stamp t s
  | .counterEdge n lvl stamp t => Sys2Proof.Machine.execCounterEdge n lvl stamp t s
  | .wireBreak n broken h => Sys2Proof.Machine.execWireBreak n broken h s
  | .stg n rb h => Sys2Proof.Machine.execStg n rb h s
  | .thermalShutdown n t => Sys2Proof.Machine.execThermalShutdown n t s
  | .thermalRecovery n t => Sys2Proof.Machine.execThermalRecovery n t s
  | .diagnosisPeriod n rb t => Sys2Proof.Machine.execDiagnosisPeriod n rb t s
  | .testSlot t => Sys2Proof.Machine.execTestSlot t s
  | .testPulseEnd n held crossed t => Sys2Proof.Machine.execTestPulseEnd n held crossed t s
  | .vfieldChange k mv temp since t => Sys2Proof.Machine.execVfieldChange k mv temp since t s
  | .uvl k t => Sys2Proof.Machine.execUvl k t s
  | .vfOk k t => Sys2Proof.Machine.execVfOk k t s
  | .startSlot t => Sys2Proof.Machine.execStartSlot t s
  | .commandFrame l k good t => Sys2Proof.Machine.execCommandFrame l k good t s
  | .linkFault l k t => Sys2Proof.Machine.execLinkFault l k t s
  | .chOut n on => Sys2Proof.Machine.execChOut n on s
  | .req n => Sys2Proof.Machine.execReq n s
  | .chClrFault n => Sys2Proof.Machine.execChClrFault n s
  | .chClrCnt n => Sys2Proof.Machine.execChClrCnt n s
  | .chClrFlags n => Sys2Proof.Machine.execChClrFlags n s
  | .dieRestart k => Sys2Proof.Machine.execDieRestart k s
  | .ledgerClrCnt => Sys2Proof.Machine.execLedgerClrCnt s
  | .syncReceive k p ok domain src seq two t1 corr log t => Sys2Proof.Machine.execSyncReceive k p ok domain src seq two t1 corr log t s
  | .followUpReceive k src seq t1 corr t => Sys2Proof.Machine.execFollowUpReceive k src seq t1 corr t s
  | .delayReqSend k t => Sys2Proof.Machine.execDelayReqSend k t s
  | .delayRespReceive k seq t4 corr t => Sys2Proof.Machine.execDelayRespReceive k seq t4 corr t s
  | .delayReqLost k t => Sys2Proof.Machine.execDelayReqLost k t s
  | .announceReceive k ok domain src gm p1 cls acc p2 var' steps log t => Sys2Proof.Machine.execAnnounceReceive k ok domain src gm p1 cls acc p2 var' steps log t s
  | .pdelayReqReceive k p m t => Sys2Proof.Machine.execPdelayReqReceive k p m t s
  | .syncSend k t => Sys2Proof.Machine.execSyncSend k t s
  | .masterLoss k sync t => Sys2Proof.Machine.execMasterLoss k sync t s
  | .holdMax t => Sys2Proof.Machine.execHoldMax t s
  | .restep => Sys2Proof.Machine.execRestep s
  | .timeClrCnt => Sys2Proof.Machine.execTimeClrCnt s
  | .rateInit v => Sys2Proof.Machine.execRateInit v s
  | .relayFrame k p f fcs sfd t => Sys2Proof.Machine.execRelayFrame k p f fcs sfd t s
  | .txFrame k p t => Sys2Proof.Machine.execTxFrame k p t s
  | .txComplete k p t => Sys2Proof.Machine.execTxComplete k p t s
  | .portEn k p en => Sys2Proof.Machine.execPortEn k p en s
  | .mdioPoll k up0 up1 t => Sys2Proof.Machine.execMdioPoll k up0 up1 t s
  | .mdioGo k write phy r data => Sys2Proof.Machine.execMdioGo k write phy r data s
  | .mdioComplete k data t => Sys2Proof.Machine.execMdioComplete k data t s
  | .netClrCnt k => Sys2Proof.Machine.execNetClrCnt k s
  | .netClrErr k => Sys2Proof.Machine.execNetClrErr k s
  | .canFrameReceive c id ide rtr fdf brs esi dlc data sof t => Sys2Proof.Machine.execCanFrameReceive c id ide rtr fdf brs esi dlc data sof t s
  | .canFrameSend c res lec t => Sys2Proof.Machine.execCanFrameSend c res lec t s
  | .txDone c sof t => Sys2Proof.Machine.execTxDone c sof t s
  | .canStateChange c tec rec' lec t => Sys2Proof.Machine.execCanStateChange c tec rec' lec t s
  | .canEn c en => Sys2Proof.Machine.execCanEn c en s
  | .canClrRec c => Sys2Proof.Machine.execCanClrRec c s
  | .canClrErr c => Sys2Proof.Machine.execCanClrErr c s
  | .uartCharacterReceive u ch parity framing brk stamp t => Sys2Proof.Machine.execUartCharacterReceive u ch parity framing brk stamp t s
  | .uartIdleGap u t => Sys2Proof.Machine.execUartIdleGap u t s
  | .uartSend u fin t => Sys2Proof.Machine.execUartSend u fin t s
  | .uartEn u en => Sys2Proof.Machine.execUartEn u en s
  | .uartClr u => Sys2Proof.Machine.execUartClr u s
  | .spiGo cs len => Sys2Proof.Machine.execSpiGo cs len s
  | .spiComplete rx t => Sys2Proof.Machine.execSpiComplete rx t s
  | .hostRead a n t => Sys2Proof.Machine.execHostRead a n t s
  | .hostWrite a ws part t => Sys2Proof.Machine.execHostWrite a ws part t s
  | .hostQuadRead a n t => Sys2Proof.Machine.execHostQuadRead a n t s
  | .hostQuadWrite a ws part t => Sys2Proof.Machine.execHostQuadWrite a ws part t s
  | .hostStatus t => Sys2Proof.Machine.execHostStatus t s
  | .hostLtrWrite v t => Sys2Proof.Machine.execHostLtrWrite v t s
  | .hostHeadWrite r v t => Sys2Proof.Machine.execHostHeadWrite r v t s
  | .hostTailWrite r v t => Sys2Proof.Machine.execHostTailWrite r v t s
  | .keyWrite sel t => Sys2Proof.Machine.execKeyWrite sel t s
  | .keyRevoke sel t => Sys2Proof.Machine.execKeyRevoke sel t s
  | .bankWrite sel off t => Sys2Proof.Machine.execBankWrite sel off t s
  | .bankCheck sel t => Sys2Proof.Machine.execBankCheck sel t s
  | .setActive sel t => Sys2Proof.Machine.execSetActive sel t s
  | .provisioningComplete ok t => Sys2Proof.Machine.execProvisioningComplete ok t s
  | .hclr => Sys2Proof.Machine.execHclr s
  | .claimRound rival ok t => Sys2Proof.Machine.execClaimRound rival ok t s
  | .holdfastTake rival t => Sys2Proof.Machine.execHoldfastTake rival t s
  | .holdfastPass t => Sys2Proof.Machine.execHoldfastPass t s
  | .holdfastIdle t => Sys2Proof.Machine.execHoldfastIdle t s
  | .rangeHeartbeat t => Sys2Proof.Machine.execRangeHeartbeat t s
  | .streamRecord good tide outcome mode st hand mirror digest mask words t => Sys2Proof.Machine.execStreamRecord good tide outcome mode st hand mirror digest mask words t s
  | .pathLost path t => Sys2Proof.Machine.execPathLost path t s
  | .baseClaimExchange base hash t => Sys2Proof.Machine.execBaseClaimExchange base hash t s
  | .take => Sys2Proof.Machine.execTake s
  | .handover => Sys2Proof.Machine.execHandover s
  | .rangeClr => Sys2Proof.Machine.execRangeClr s
  | .isolated t => Sys2Proof.Machine.execIsolated t s
  | .segmentComplete l area ok t => Sys2Proof.Machine.execSegmentComplete l area ok t s
  | .sramScrub fixed ok t => Sys2Proof.Machine.execSramScrub fixed ok t s
  | .mramHash t => Sys2Proof.Machine.execMramHash t s
  | .selftestLate t => Sys2Proof.Machine.execSelftestLate t s
  | .stReq kind l => Sys2Proof.Machine.execStReq kind l s
  | .cntClr m => Sys2Proof.Machine.execCntClr m s
  | .lcntClr m => Sys2Proof.Machine.execLcntClr m s
  | .cntSnap m => Sys2Proof.Machine.execCntSnap m s
  | .mode v => Sys2Proof.Machine.execMode v s
  | .wakeCause t => Sys2Proof.Machine.execWakeCause t s
  | .wakeBall t => Sys2Proof.Machine.execWakeBall t s
  | .alarm t => Sys2Proof.Machine.execAlarm t s
  | .p3ExitComplete bad t => Sys2Proof.Machine.execP3ExitComplete bad t s
  | .powerOn sel base t => Sys2Proof.Machine.execPowerOn sel base t s
  | .nrstAssert t => Sys2Proof.Machine.execNrstAssert t s
  | .nrstRelease sel base t => Sys2Proof.Machine.execNrstRelease sel base t s
  | .resetStuck t => Sys2Proof.Machine.execResetStuck t s
  | .supplyFall t => Sys2Proof.Machine.execSupplyFall t s
  | .laneRailFall l t => Sys2Proof.Machine.execLaneRailFall l t s
  | .boot cal differs t => Sys2Proof.Machine.execBoot cal differs t s
  | .startupSelftestComplete fails t => Sys2Proof.Machine.execStartupSelftestComplete fails t s
  | .vbatLoss mv io t => Sys2Proof.Machine.execVbatLoss mv io t s
  | .vbatLow mv t => Sys2Proof.Machine.execVbatLow mv t s
  | .rtcSet sec => Sys2Proof.Machine.execRtcSet sec s
  | .keeperClr => Sys2Proof.Machine.execKeeperClr s
  | .logProg v => Sys2Proof.Machine.execLogProg v s
  | .fogCfg v => Sys2Proof.Machine.execFogCfg v s
  | .fogFeed key => Sys2Proof.Machine.execFogFeed key s
  | .fogBite t => Sys2Proof.Machine.execFogBite t s
  | .fogHalfT t => Sys2Proof.Machine.execFogHalfT t s
  | .imgWrite off src => Sys2Proof.Machine.execImgWrite off src s
  | .imgCheck => Sys2Proof.Machine.execImgCheck s
  | .imgActivate => Sys2Proof.Machine.execImgActivate s
  | .imgComplete ok t => Sys2Proof.Machine.execImgComplete ok t s
  | .encoderLossEnd n t => Sys2Proof.Machine.execEncoderLossEnd n t s
  | .tripInputRelease d t => Sys2Proof.Machine.execTripInputRelease d t s
  | .thermalCycleClear n t => Sys2Proof.Machine.execThermalCycleClear n t s
  | .announceSend k t => Sys2Proof.Machine.execAnnounceSend k t s
  | .delayReqReceive k p domain id corr t => Sys2Proof.Machine.execDelayReqReceive k p domain id corr t s
  | .pdelayReqSend k p t => Sys2Proof.Machine.execPdelayReqSend k p t s
  | .pdelayRespReceive k p seq turn t => Sys2Proof.Machine.execPdelayRespReceive k p seq turn t s
  | .linkHeartbeatReceive good ready t => Sys2Proof.Machine.execLinkHeartbeatReceive good ready t s
  | .holdPatternPulse t => Sys2Proof.Machine.execHoldPatternPulse t s
  | .vbatReturn mv t => Sys2Proof.Machine.execVbatReturn mv t s
  | .laneRailReturn l t => Sys2Proof.Machine.execLaneRailReturn l t s

end Sys2Proof.Machine
end

