-- ==== Sys2Proof/Safety.lean ====
section
/-! DEFINITION. The terms in which the claims are stated: the canonical form of every sparse store, the MRAM that nothing may
write, what a lane instruction leaves, and what a command changes of the registers. -/

namespace Sys2Proof.Machine

/-! ### Invariants -/

/-- The canonical form of a memory. -/
abbrev Memory.wf (m : List Host.Cell) : Prop := mwf zeroByte m = true

/-- The canonical form of a lane's stores. -/
structure LaneSt.Canon (x : LaneSt) : Prop where
  iram : Memory.wf x.iram
  dram : Memory.wf x.dram

/-- The canonical form of every memory and register file that the state holds as a list of addresses and values: equal contents are equal
data. -/
structure State.Canon (s : State) : Prop where
  regs  : mwf s.rst s.regs = true
  regs0 : mwf s.rst s.regs0 = true
  snap  : mwf s.rst s.snap.regs = true
  sram  : Memory.wf s.sram
  mram  : Memory.wf s.mram
  laneA : s.laneA.Canon
  laneB : s.laneB.Canon
  laneC : s.laneC.Canon
  ckpt  : Memory.wf s.pos.ckpt
  buf   : Memory.wf s.host.buf

/-- The MRAM offsets that only Vangeonel's final test writes, or nobody: the calibration area and the reserved areas (R48, R52,
R527). -/
def mramFixed (a : Nat) : Prop := (0x10000 ≤ a ∧ a < 0x100000) ∨ 0xB00000 ≤ a

/-! ### Lane instructions -/

/-- The lane executes: it is in its tide, waits for nothing and fetches from IRAM. -/
abbrev State.runs (s : State) (l : Lane) : Prop :=
  (s.lane l).run = true ∧ (s.lane l).wait = none ∧ (s.lane l).pc < 0x40000

/-- The value of a general register of a lane. -/
def State.gv (s : State) (l : Lane) (r : GReg) : Word := (s.lane l).rg r.val

/-- The value of an accumulator of a lane, as a 64-bit integer. -/
def State.av (s : State) (l : Lane) (r : AReg) : Int := ((s.lane l).ra r.val).toInt

/-- Every flag bit of `sw` named in the list has the value beside it, and every other bit of `sw` is as before. -/
def SwIs (x y : LaneSt) (fs : List (Nat × Bool)) : Prop :=
  ∀ i, i < 32 → y.sw.getLsbD i = ((fs.lookup i).getD (x.sw.getLsbD i))

/-- One general register is written (none when it is g0, which reads 0 and discards writes) and every other keeps its value. -/
def GWrote (x y : LaneSt) (gd : Nat) (v : Word) : Prop :=
  ∀ r, y.rg r = if r = gd ∧ r ≠ 0 then v else x.rg r

/-- One accumulator is written and the others keep their values. -/
def AWrote (x y : LaneSt) (ad : Nat) (v : BitVec 64) : Prop := ∀ r, y.ra r = if r = ad then v else x.ra r

/-- What an instruction of `c` cycles and `w` ns leaves of its lane beside registers, accumulators and `sw`: the pc is past it, the
counters of R481 have counted it, and nothing else has changed. -/
def Went (x y : LaneSt) (c w : Nat) : Prop :=
  y = { x with
    g := y.g, acc := y.acc, sw := y.sw, pc := x.pc + 4
    tally := { x.tally with cycles := x.tally.cycles + c, insts := x.tally.insts + 1, waitNs := x.tally.waitNs + w } }

/-- The command completes, and all it changes of the state is lane `l`, which becomes `y`: the other lanes, every memory and every
register stand as they were. -/
def State.toLane (s : State) (o : Host.Outcome State Fault Refusal) (l : Lane) (y : LaneSt) : Prop := o = .next (s.setLane l y)

/-- An instruction completes with one general register and the named flags written. -/
def State.putsG (s : State) (o : Host.Outcome State Fault Refusal) (l : Lane) (gd : GReg) (v : Word) (fs : List (Nat × Bool))
    (c : Nat) : Prop :=
  ∃ y, s.toLane o l y ∧ Went (s.lane l) y c 0 ∧ GWrote (s.lane l) y gd.val v ∧ SwIs (s.lane l) y fs ∧ y.acc = (s.lane l).acc

/-- An instruction completes with one accumulator and the named flags written. -/
def State.putsA (s : State) (o : Host.Outcome State Fault Refusal) (l : Lane) (ad : AReg) (v : BitVec 64) (fs : List (Nat × Bool))
    (c : Nat) : Prop :=
  ∃ y, s.toLane o l y ∧ Went (s.lane l) y c 0 ∧ AWrote (s.lane l) y ad.val v ∧ SwIs (s.lane l) y fs ∧ y.g = (s.lane l).g

/-- An instruction traps (R96 to R98), the lane having no trap before in its tide: TC, tp and tv are set, the open group is
discarded with its ABORT element, and the lane goes on at TRAPVEC; registers, accumulators, DRAM and the closed groups stay. -/
def State.traps (s : State) (o : Host.Outcome State Fault Refusal) (l : Lane) (tc : Nat) (tv : Word) : Prop :=
  ∃ y, s.toLane o l y ∧ y.pc = s.img.trapvec ∧ y.tp = (s.lane l).pc ∧ y.tv = tv ∧ y.tc = tc ∧ y.stage.opened = none ∧
    y.stage.closed = (s.lane l).stage.closed ∧ y.g = (s.lane l).g ∧ y.acc = (s.lane l).acc ∧ y.dram = (s.lane l).dram ∧
    y.run = true ∧ y.pres = (s.lane l).pres

/-- A presented set is held in rising order of the source numbers. -/
abbrev Rising (m : List (Nat × Pres)) : Prop := m.Pairwise fun a b => a.1 < b.1

/-- The entry of a source in a presented set. -/
def presOf (m : List (Nat × Pres)) (n : Nat) : Option Pres := (m.find? fun q => q.1 == n).map (·.2)

/-- A lane goes on from a bell point with a set (R84, R85): `rd` receives the number of its sources, and the lane's presented set takes each of
them: one that is there already keeps the later stamp and gets OVR. Nothing else of the lane changes but its pc. -/
def TookSet (x y : LaneSt) (rd : Nat) (set : List (Nat × Pres)) : Prop :=
  GWrote x y rd (BitVec.ofNat 32 set.length) ∧ y = { x with g := y.g, pres := y.pres, wait := none, pc := x.pc + 4 } ∧
  (Rising x.pres → Rising set → Rising y.pres ∧ ∀ n, presOf y.pres n =
    match presOf set n, presOf x.pres n with
    | none, q => q
    | some p, none => some p
    | some p, some q => some ⟨max q.stamp p.stamp, true⟩)

/-- A lane goes on from a fold with its value (R93, R121): `rd` receives it, the record gets its FOLD element, and nothing else of the lane
changes but its pc. -/
def TookFold (x y : LaneSt) (rd : Nat) (v : Word) : Prop :=
  GWrote x y rd v ∧ y = { x with
    g := y.g, wait := none, pc := x.pc + 4
    stage := { x.stage with
      folds := x.stage.folds + 1
      elems := x.stage.elems ++ [⟨8, if x.stage.opened.isSome then x.stage.groups - 1 else 255, 0, x.stage.folds + 1, v.toNat, 0⟩] } }

/-- The bit of a source in one of the words of EVT_PEND, EVT_EN or EVT_OVR. -/
def State.evtBit (s : State) (w : Nat → Nat) (n : Nat) : Bool := bitB (s.regN (w (n / 32))) (n % 32)

/-- Z and N of a result. -/
def zn (v : Word) : List (Nat × Bool) := [(0, v == 0#32), (1, v.msb)]

/-- A result that overflows the signed range of 32 bits. -/
def over32 (r : Int) : Bool := decide (r < -2147483648 ∨ 2147483647 < r)

/-- A result limited to the signed range of 32 bits (R66). -/
def lim32 (r : Int) : Word := BitVec.ofInt 32 (max (-2147483648) (min 2147483647 r))

/-- A result that overflows the signed range of 64 bits. -/
def over64 (r : Int) : Bool := decide (r < -9223372036854775808 ∨ 9223372036854775807 < r)

/-- A result limited to the signed range of 64 bits (R66). -/
def lim64 (r : Int) : BitVec 64 := BitVec.ofInt 64 (max (-9223372036854775808) (min 9223372036854775807 r))

/-- Z, N and the sticky SAT of a limited result. -/
def znSat (x : LaneSt) (r : Int) : List (Nat × Bool) :=
  [(0, lim32 r == 0#32), (1, (lim32 r).msb), (4, x.sw.getLsbD 4 || over32 r)]

/-- The sticky SAT of a limited accumulator result. -/
def satOf (x : LaneSt) (r : Int) : List (Nat × Bool) := [(4, x.sw.getLsbD 4 || over64 r)]

/-- The bytes that a load reads at an address, least significant first, in the regions of R45: registers give the snapshot (R35), and the
reserved part of shared SRAM 0 (R49). -/
def State.readsAs (s : State) (l : Lane) (a n : Nat) : Nat :=
  if a < 0x40000 then leNat (rdBytes (s.lane l).iram a n)
  else if a < 0x20000000 then leNat (rdBytes (s.lane l).dram (a - 0x10000000) n)
  else if a < 0x30000000 then if reservedSram (a - 0x20000000) then 0 else leNat (rdBytes s.sram (a - 0x20000000) n)
  else if a < 0x40000000 then leNat (rdBytes s.mram (a - 0x30000000) n)
  else (s.snapReg (keyOf l a)).toNat

/-- The lane that executes a command, when it is an instruction of a lane. -/
def laneOf : Instr → Option Lane
  | .add l _ _ _ => some l
  | .sub l _ _ _ => some l
  | .adds l _ _ _ => some l
  | .subs l _ _ _ => some l
  | .and l _ _ _ => some l
  | .or l _ _ _ => some l
  | .xor l _ _ _ => some l
  | .slt l _ _ _ => some l
  | .sltu l _ _ _ => some l
  | .sll l _ _ _ => some l
  | .srl l _ _ _ => some l
  | .sra l _ _ _ => some l
  | .slli l _ _ _ => some l
  | .srli l _ _ _ => some l
  | .srai l _ _ _ => some l
  | .min l _ _ _ => some l
  | .max l _ _ _ => some l
  | .minu l _ _ _ => some l
  | .maxu l _ _ _ => some l
  | .abs l _ _ => some l
  | .abss l _ _ => some l
  | .neg l _ _ => some l
  | .negs l _ _ => some l
  | .clz l _ _ => some l
  | .shls l _ _ _ => some l
  | .extu l _ _ _ _ => some l
  | .exts l _ _ _ _ => some l
  | .ins l _ _ _ _ => some l
  | .clamp l _ _ _ _ => some l
  | .clampu l _ _ _ _ => some l
  | .addi l _ _ _ => some l
  | .addis l _ _ _ => some l
  | .slti l _ _ _ => some l
  | .sltiu l _ _ _ => some l
  | .andi l _ _ _ => some l
  | .ori l _ _ _ => some l
  | .xori l _ _ _ => some l
  | .lui l _ _ => some l
  | .mul l _ _ _ => some l
  | .mulh l _ _ _ => some l
  | .mulhu l _ _ _ => some l
  | .mulq31 l _ _ _ => some l
  | .div l _ _ _ => some l
  | .divu l _ _ _ => some l
  | .rem l _ _ _ => some l
  | .remu l _ _ _ => some l
  | .mac l _ _ _ => some l
  | .msu l _ _ _ => some l
  | .macq15 l _ _ _ => some l
  | .msuq15 l _ _ _ => some l
  | .macq31 l _ _ _ => some l
  | .msuq31 l _ _ _ => some l
  | .mta l _ _ => some l
  | .mtai l _ _ => some l
  | .mtah l _ _ => some l
  | .mtal l _ _ => some l
  | .mfa l _ _ => some l
  | .mfai l _ _ => some l
  | .mfah l _ _ => some l
  | .mfal l _ _ => some l
  | .clra l _ => some l
  | .adda l _ _ => some l
  | .suba l _ _ => some l
  | .shra l _ _ => some l
  | .shla l _ _ => some l
  | .clampa l _ _ _ => some l
  | .lw l _ _ _ _ => some l
  | .lh l _ _ _ _ => some l
  | .lhu l _ _ _ _ => some l
  | .lb l _ _ _ _ => some l
  | .lbu l _ _ _ _ => some l
  | .live l _ _ _ _ => some l
  | .sw l _ _ _ => some l
  | .sh l _ _ _ => some l
  | .sb l _ _ _ => some l
  | .beq l _ _ _ => some l
  | .bne l _ _ _ => some l
  | .blt l _ _ _ => some l
  | .bge l _ _ _ => some l
  | .bltu l _ _ _ => some l
  | .bgeu l _ _ _ => some l
  | .j l _ => some l
  | .jal l _ => some l
  | .jalr l _ _ _ => some l
  | .tbegin l => some l
  | .tcommit l => some l
  | .tcommitE l => some l
  | .tabort l => some l
  | .tabortE l => some l
  | .tstage l _ _ _ => some l
  | .bell l _ _ _ => some l
  | .evnext l _ => some l
  | .evstamp l _ => some l
  | .rpush l _ _ => some l
  | .rpop l _ _ _ => some l
  | .rcnt l _ _ => some l
  | .tnow l _ => some l
  | .tnowL l _ _ _ _ => some l
  | .tshort l _ => some l
  | .tshortL l _ _ _ => some l
  | .text l _ _ => some l
  | .vfold l _ _ _ => some l
  | .trap l _ => some l
  | .rdsw l _ => some l
  | .wrsw l _ => some l
  | .rdtp l _ => some l
  | .rdtv l _ => some l
  | .illegalWord l _ => some l
  | _ => none

/-! ### Commands on registers -/

/-- The command completes, and what holds of the state it leaves. -/
def Ends (o : Host.Outcome State Fault Refusal) (p : State → Prop) : Prop := ∃ t, o = .next t ∧ p t

/-- The registers not named by their keys keep their values. -/
def RegsBut (ks : List Nat) (s t : State) : Prop := ∀ k, k ∉ ks → t.reg k = s.reg k

/-- The memories, the lanes, the running image and the straps are as before. -/
def SameMem (s t : State) : Prop :=
  t.sram = s.sram ∧ t.mram = s.mram ∧ t.laneA = s.laneA ∧ t.laneB = s.laneB ∧ t.laneC = s.laneC ∧ t.img = s.img ∧ t.straps = s.straps

/-- What follows a write set that left `s1` and refused nothing: flags set at this instant stay set, the blocks settle, and COMMIT_STS, REFUSE
and REFUSE_ADDR show it. -/
def State.settled (s s1 : State) : State := ((s.stickyKeep s1).settle s).refusedShow Refused.none

/-- A commit row completes: its group is refused nothing, it leaves a state of which `p` holds, and the blocks settle after it. -/
def State.commits (s : State) (o : Host.Outcome State Fault Refusal) (p : State → Prop) : Prop :=
  ∃ s1, o = .next (s.settled s1) ∧ p s1

/-- A commit row is refused: the state is as before but for the settling of the blocks, and COMMIT_STS, REFUSE and REFUSE_ADDR name the
group, the cause and the item. -/
def State.refuses (s : State) (o : Host.Outcome State Fault Refusal) (cause place : Nat) : Prop :=
  o = .next (((s.stickyKeep s).settle s).refusedShow ⟨1, cause, 0, place, 0⟩)

end Sys2Proof.Machine
end

