-- ==== Sys2Proof/Certificates/Slice0/Obligations.lean ====
section
/-! DEFINITION. The statements for the provers. -/

open Sys2Proof Sys2Proof.Machine

/-- The queue of the block (assumption 1, the model's choice): step takes the command at the front and runs it on the state with the rest of the
queue; on an empty queue the block idles. -/
def Obligations.StepRunsFront : Prop :=
  ∀ (c : Instr) (s : State) (rest : List Instr),
    step { s with pending := c :: rest } = exec c { s with pending := rest } ∧
    step { s with pending := [] } = .next { s with pending := [] }

/-- No command of the part stops the model: each answers a next state, in every state and with every operand. -/
def Obligations.EveryCommandCompletes : Prop := ∀ (c : Instr) (s : State), ∃ t, exec c s = .next t

/-- R14, R54, R61, R414: the machine right after reset holds every store in its canonical form, every register at its reset value, device time
0, no lane in a tide, every ring empty and the first 53 rings enabled.
A register whose reset value the manual does not give is 0 (assumption 7), and so is a byte that nothing has written (assumption 3): the
model's choices. -/
def Obligations.ResetState : Prop :=
  let s := State.reset
  s.Canon ∧ s.pending = [] ∧ s.now = 0 ∧ (∀ k, s.reg k = resetWord k) ∧ s.regN SYS.ID = 0x4C480C03 ∧
    s.regN GALLERY.TIDE_CFG = 0x001403E8 ∧ (∀ l : Lane, (s.lane l).run = false ∧ ∀ r, (s.lane l).rg r = 0) ∧
    (∀ n : Fin 64, s.ringCnt n = 0 ∧ s.flag (RINGS.RING_CFG_EN n) = decide (n.val < 53)) ∧
    (∀ a, rdByte s.sram a = 0 ∧ rdByte s.mram a = 0)

/-- R33, R42, R93: a lane that is not in its tide, or that waits at a bell or a fold, executes nothing: its instructions change nothing.
A command of such a lane is one that the lanes do not execute (assumption 11, the model's choice). -/
def Obligations.IdleLaneExecutesNothing : Prop :=
  ∀ (i : Instr) (s : State) (l : Lane), laneOf i = some l → (s.lane l).run = false ∨ (s.lane l).wait ≠ none → exec i s = .next s

/-- The invariant of the model, with R48, R52, R527: every step keeps the canonical form of every store, takes one command off the queue, and
changes neither the variant of the part nor the calibration area and the reserved areas of MRAM, whatever the command. -/
def Obligations.EveryStepKeepsTheForm : Prop :=
  ∀ s t : State, s.Canon → step s = .next t → t.Canon ∧ t.pending = s.pending.tail ∧ t.straps.variantC = s.straps.variantC ∧
    ∀ a, mramFixed a → rdByte t.mram a = rdByte s.mram a

/-- R70: the three-register operations with the flags Z and N. Each completes, writes its destination (nothing when it is g0), Z and N, and
changes nothing else.
R70: the operations on one register and a number with the flags Z and N. -/
def Obligations.LogicAndImmediateResults : Prop :=
  (
  ∀ (s : State) (l : Lane) (gd gs gt : GReg), s.runs l →
    let a := s.gv l gs
    let b := s.gv l gt
    let put := fun (i : Instr) (v : Word) => s.putsG (exec i s) l gd v (zn v) 1
    put (.and l gd gs gt) (a &&& b) ∧ put (.or l gd gs gt) (a ||| b) ∧ put (.xor l gd gs gt) (a ^^^ b) ∧
    put (.slt l gd gs gt) (if a.slt b then 1 else 0) ∧ put (.sltu l gd gs gt) (if a.ult b then 1 else 0) ∧
    put (.sll l gd gs gt) (a <<< (b.toNat % 32)) ∧ put (.srl l gd gs gt) (a >>> (b.toNat % 32)) ∧
    put (.sra l gd gs gt) (a.sshiftRight (b.toNat % 32)) ∧
    put (.min l gd gs gt) (if b.slt a then b else a) ∧ put (.max l gd gs gt) (if a.slt b then b else a) ∧
    put (.minu l gd gs gt) (if b.ult a then b else a) ∧ put (.maxu l gd gs gt) (if a.ult b then b else a)
  ) ∧
  (
  ∀ (s : State) (l : Lane) (gd gs : GReg) (n : BitVec 5) (imm : BitVec 16), s.runs l →
    let a := s.gv l gs
    let put := fun (i : Instr) (v : Word) => s.putsG (exec i s) l gd v (zn v) 1
    put (.slli l gd gs n) (a <<< n.toNat) ∧ put (.srli l gd gs n) (a >>> n.toNat) ∧ put (.srai l gd gs n) (a.sshiftRight n.toNat) ∧
    put (.slti l gd gs imm) (if a.slt (imm.signExtend 32) then 1 else 0) ∧
    put (.sltiu l gd gs imm) (if a.ult (imm.signExtend 32) then 1 else 0) ∧
    put (.andi l gd gs imm) (a &&& imm.setWidth 32) ∧ put (.ori l gd gs imm) (a ||| imm.setWidth 32) ∧
    put (.xori l gd gs imm) (a ^^^ imm.setWidth 32) ∧ put (.lui l gd imm) (BitVec.ofNat 32 (imm.toNat * 65536))
  )

/-- R70: addition, subtraction and negation modulo 2^32 with their carry and overflow.
R66, R70, R71: the results that are limited to 0x8000_0000 to 0x7FFF_FFFF; SAT is set when the limit acts, and stays set. -/
def Obligations.AddAndLimitedResults : Prop :=
  (
  ∀ (s : State) (l : Lane) (gd gs gt : GReg) (imm : BitVec 16), s.runs l →
    let a := s.gv l gs
    let b := s.gv l gt
    let put := fun (i : Instr) (v : Word) (fs : List (Nat × Bool)) => s.putsG (exec i s) l gd v (zn v ++ fs) 1
    let abs := if a.msb then -a else a
    put (.add l gd gs gt) (a + b) [(2, decide (2 ^ 32 ≤ a.toNat + b.toNat)), (3, over32 (a.toInt + b.toInt))] ∧
    put (.sub l gd gs gt) (a - b) [(2, decide (b.toNat ≤ a.toNat)), (3, over32 (a.toInt - b.toInt))] ∧
    put (.addi l gd gs imm) (a + imm.signExtend 32)
      [(2, decide (2 ^ 32 ≤ a.toNat + (imm.signExtend 32).toNat)), (3, over32 (a.toInt + imm.toInt))] ∧
    put (.abs l gd gs) abs [(3, a == 0x80000000#32)] ∧ put (.neg l gd gs) (-a) [(3, a == 0x80000000#32)]
  ) ∧
  (
  ∀ (s : State) (l : Lane) (gd gs gt : GReg) (ad : AReg) (imm : BitVec 16), s.runs l →
    let x := s.lane l
    let a := (s.gv l gs).toInt
    let b := (s.gv l gt).toInt
    let put := fun (i : Instr) (r : Int) (c : Nat) => s.putsG (exec i s) l gd (lim32 r) (znSat x r) c
    put (.adds l gd gs gt) (a + b) 1 ∧ put (.subs l gd gs gt) (a - b) 1 ∧ put (.addis l gd gs imm) (a + imm.toInt) 1 ∧
    put (.abss l gd gs) (if a < 0 then -a else a) 1 ∧ put (.negs l gd gs) (-a) 1 ∧
    put (.shls l gd gs gt) (a * 2 ^ ((s.gv l gt).toNat % 32)) 1 ∧
    put (.mulq31 l gd gs gt) ((a * b + 2 ^ 30) / 2 ^ 31) 2 ∧
    put (.mfa l gd ad) ((s.av l ad + 2 ^ 15) / 2 ^ 16) 2 ∧ put (.mfai l gd ad) (s.av l ad) 2
  )

/-- R70: CLZ counts leading zero bits and writes Z alone; a bit field that fits is moved, zero-extended, sign-extended or inserted.
R70, R69: a bit field that does not fit in 32 bits makes the word illegal: the lane traps with ILLEGAL.
R70, R73: the clamps; the upper bound wins, and CL is set when the operand changes and stays set. -/
def Obligations.BitFieldAndClampResults : Prop :=
  (
  ∀ (s : State) (l : Lane) (gd gs : GReg) (lsb lenM1 : BitVec 5), s.runs l →
    let a := s.gv l gs
    let d := s.gv l gd
    let len := lenM1.toNat + 1
    let p := lsb.toNat
    let put := fun (i : Instr) (v : Word) => s.putsG (exec i s) l gd v (zn v) 1
    (∃ n : Nat, (n = 32 ∧ a = 0 ∨ n < 32 ∧ 2 ^ (31 - n) ≤ a.toNat ∧ a.toNat < 2 ^ (32 - n)) ∧
      s.putsG (exec (.clz l gd gs) s) l gd (BitVec.ofNat 32 n) [(0, n == 0)] 1) ∧
    (p + len ≤ 32 →
      put (.extu l gd gs lsb lenM1) ((a <<< (32 - p - len)) >>> (32 - len)) ∧
      put (.exts l gd gs lsb lenM1) ((a <<< (32 - p - len)).sshiftRight (32 - len)) ∧
      put (.ins l gd gs lsb lenM1)
        ((d &&& ~~~(BitVec.allOnes 32 >>> (32 - len) <<< p)) ||| ((a <<< p) &&& (BitVec.allOnes 32 >>> (32 - len) <<< p))))
  ) ∧
  (
  ∀ (s : State) (l : Lane) (gd gs : GReg) (lsb lenM1 : BitVec 5), s.runs l → (s.lane l).tc = 0 →
    32 < lsb.toNat + lenM1.toNat + 1 →
    (∃ w, s.traps (exec (.extu l gd gs lsb lenM1) s) l 1 w) ∧ (∃ w, s.traps (exec (.exts l gd gs lsb lenM1) s) l 1 w) ∧
    (∃ w, s.traps (exec (.ins l gd gs lsb lenM1) s) l 1 w)
  ) ∧
  (
  ∀ (s : State) (l : Lane) (gd gs gl gh : GReg) (ad : AReg), s.runs l →
    let x := s.lane l
    let a := s.gv l gs
    let lo := s.gv l gl
    let hi := s.gv l gh
    let v := if hi.slt (if a.slt lo then lo else a) then hi else (if a.slt lo then lo else a)
    let u := if hi.ult (if a.ult lo then lo else a) then hi else (if a.ult lo then lo else a)
    let r := min (max (s.av l ad) (lo.toInt * 65536)) (hi.toInt * 65536)
    s.putsG (exec (.clamp l gd gs gl gh) s) l gd v (zn v ++ [(5, x.sw.getLsbD 5 || v != a)]) 1 ∧
    s.putsG (exec (.clampu l gd gs gl gh) s) l gd u (zn u ++ [(5, x.sw.getLsbD 5 || u != a)]) 1 ∧
    s.putsA (exec (.clampa l ad gl gh) s) l ad (BitVec.ofInt 64 r) [(5, x.sw.getLsbD 5 || r != s.av l ad)] 2
  )

/-- R71: the products and the quotients and remainders of the defined cases. -/
def Obligations.MultiplyDivideResults : Prop :=
  ∀ (s : State) (l : Lane) (gd gs gt : GReg), s.runs l →
    let a := s.gv l gs
    let b := s.gv l gt
    let put := fun (i : Instr) (v : Word) => s.putsG (exec i s) l gd v (zn v) 2
    let quo := fun (i : Instr) (v : Word) => s.putsG (exec i s) l gd v (zn v ++ [(3, false)]) 34
    put (.mul l gd gs gt) (a * b) ∧ put (.mulh l gd gs gt) (BitVec.ofInt 32 (a.toInt * b.toInt / 2 ^ 32)) ∧
    put (.mulhu l gd gs gt) (BitVec.ofNat 32 (a.toNat * b.toNat / 2 ^ 32)) ∧
    (b ≠ 0 → quo (.divu l gd gs gt) (a / b) ∧ quo (.remu l gd gs gt) (a % b) ∧
      (¬(a = 0x80000000#32 ∧ b = 0xFFFFFFFF#32) → quo (.div l gd gs gt) (a.sdiv b) ∧ quo (.rem l gd gs gt) (a.srem b)))

/-- R72, whole: division never traps, and each undefined case gives the table's result and sets V. -/
def Obligations.UndefinedDivisions : Prop :=
  ∀ (s : State) (l : Lane) (gd gs gt : GReg), s.runs l →
    let a := s.gv l gs
    let b := s.gv l gt
    let gives := fun (i : Instr) (v : Word) => s.putsG (exec i s) l gd v (zn v ++ [(3, true)]) 34
    (b = 0 →
      (0 < a.toInt → gives (.div l gd gs gt) 0x7FFFFFFF#32) ∧ (a = 0 → gives (.div l gd gs gt) 0) ∧
      (a.toInt < 0 → gives (.div l gd gs gt) 0x80000000#32) ∧ gives (.divu l gd gs gt) 0xFFFFFFFF#32 ∧
      gives (.rem l gd gs gt) a ∧ gives (.remu l gd gs gt) a) ∧
    (a = 0x80000000#32 → b = 0xFFFFFFFF#32 → gives (.div l gd gs gt) 0x7FFFFFFF#32 ∧ gives (.rem l gd gs gt) 0) ∧
    ∃ v1 f1 v2 f2 v3 f3 v4 f4, s.putsG (exec (.div l gd gs gt) s) l gd v1 f1 34 ∧ s.putsG (exec (.divu l gd gs gt) s) l gd v2 f2 34 ∧
      s.putsG (exec (.rem l gd gs gt) s) l gd v3 f3 34 ∧ s.putsG (exec (.remu l gd gs gt) s) l gd v4 f4 34

/-- R66, R73: the accumulator results that are limited to 64 bits; SAT is set when the limit acts, and stays set.
R73: the moves to and from an accumulator, its clear and its right shift. -/
def Obligations.AccumulatorResults : Prop :=
  (
  ∀ (s : State) (l : Lane) (ad ar : AReg) (gs gt : GReg) (n : BitVec 5), s.runs l →
    let x := s.lane l
    let a := (s.gv l gs).toInt
    let b := (s.gv l gt).toInt
    let q := ((s.gv l gs).setWidth 16).toInt * ((s.gv l gt).setWidth 16).toInt
    let d := s.av l ad
    let put := fun (i : Instr) (r : Int) (c : Nat) => s.putsA (exec i s) l ad (lim64 r) (satOf x r) c
    put (.mac l ad gs gt) (d + a * b) 2 ∧ put (.msu l ad gs gt) (d - a * b) 2 ∧
    put (.macq15 l ad gs gt) (d + q * 2 ^ 17) 2 ∧ put (.msuq15 l ad gs gt) (d - q * 2 ^ 17) 2 ∧
    put (.macq31 l ad gs gt) (d + a * b / 2 ^ 15) 2 ∧ put (.msuq31 l ad gs gt) (d - a * b / 2 ^ 15) 2 ∧
    put (.adda l ad ar) (d + s.av l ar) 1 ∧ put (.suba l ad ar) (d - s.av l ar) 1 ∧ put (.shla l ad n) (d * 2 ^ n.toNat) 1
  ) ∧
  (
  ∀ (s : State) (l : Lane) (ad : AReg) (gd gs : GReg) (n : BitVec 5), s.runs l →
    let w := s.gv l gs
    let d := (s.lane l).ra ad.val
    let put := fun (i : Instr) (v : BitVec 64) => s.putsA (exec i s) l ad v [] 1
    let get := fun (i : Instr) (v : Word) => s.putsG (exec i s) l gd v (zn v) 1
    put (.mta l ad gs) (BitVec.ofInt 64 (w.toInt * 65536)) ∧ put (.mtai l ad gs) (BitVec.ofInt 64 w.toInt) ∧
    put (.mtah l ad gs) (w ++ d.extractLsb' 0 32) ∧ put (.mtal l ad gs) (d.extractLsb' 32 32 ++ w) ∧
    put (.clra l ad) 0 ∧ put (.shra l ad n) (d.sshiftRight n.toNat) ∧
    get (.mfah l gd ad) (d.extractLsb' 32 32) ∧ get (.mfal l gd ad) (d.extractLsb' 0 32)
  )

/-- R74, R75: a load from a defined place, aligned to its width, of bytes that read well, completes with the bytes' value, sign- or zero-
extended; a register is read as a word, as the snapshot holds it (R35). -/
def Obligations.LoadResults : Prop :=
  ∀ (s : State) (l : Lane) (gd gb : GReg) (imm : BitVec 16), s.runs l →
    let a := (s.gv l gb + imm.signExtend 32).toNat
    let c := loadCycles (regionOf a)
    let v := fun n => s.readsAs l a n
    let put := fun (i : Instr) (w : Word) => s.putsG (exec i s) l gd w [] c
    unmapped a = false →
    (a % 4 = 0 → put (.lw l gd gb imm .clean) (BitVec.ofNat 32 (v 4))) ∧
    (regionOf a ≠ .regs →
      (a % 2 = 0 → put (.lh l gd gb imm .clean) ((BitVec.ofNat 16 (v 2)).signExtend 32) ∧
        put (.lhu l gd gb imm .clean) (BitVec.ofNat 32 (v 2))) ∧
      put (.lb l gd gb imm .clean) ((BitVec.ofNat 8 (v 1)).signExtend 32) ∧ put (.lbu l gd gb imm .clean) (BitVec.ofNat 32 (v 1)))

/-- R96: a load of a misaligned address, or of less than a word from register space, traps with ALIGN; of an undefined place, with MAP, whatever
its width.
R75, R81, R96: the traps of a store and of TSTAGE, in their order: ALIGN; MAP in IRAM, in the MRAM window (R48), in shared SRAM outside the
program area or in the storage of an enabled ring, and where nothing is defined; outside a group STORE, or GROUP of TSTAGE; and STAGE_FULL
at the 1025th item (R82). The order of TSTAGE's causes is the model's choice (assumption 25). -/
def Obligations.AccessTraps : Prop :=
  (
  ∀ (s : State) (l : Lane) (gd gb : GReg) (imm : BitVec 16) (e : Ecc), s.runs l → (s.lane l).tc = 0 →
    let w := s.gv l gb + imm.signExtend 32
    let a := w.toNat
    (a % 4 ≠ 0 → s.traps (exec (.lw l gd gb imm e) s) l 2 w) ∧
    (a % 2 ≠ 0 ∨ regionOf a = .regs → s.traps (exec (.lh l gd gb imm e) s) l 2 w ∧ s.traps (exec (.lhu l gd gb imm e) s) l 2 w) ∧
    (regionOf a = .regs → s.traps (exec (.lb l gd gb imm e) s) l 2 w ∧ s.traps (exec (.lbu l gd gb imm e) s) l 2 w) ∧
    (a % 4 = 0 → unmapped a = true → s.traps (exec (.lw l gd gb imm e) s) l 3 w) ∧
    (regionOf a ≠ .regs → unmapped a = true →
      (a % 2 = 0 → s.traps (exec (.lh l gd gb imm e) s) l 3 w ∧ s.traps (exec (.lhu l gd gb imm e) s) l 3 w) ∧
      s.traps (exec (.lb l gd gb imm e) s) l 3 w ∧ s.traps (exec (.lbu l gd gb imm e) s) l 3 w)
  ) ∧
  (
  ∀ (s : State) (l : Lane) (gs gb ga gv gm : GReg) (imm : BitVec 16), s.runs l → (s.lane l).tc = 0 →
    let w := s.gv l gb + imm.signExtend 32
    let a := w.toNat
    let p := s.gv l ga
    let x := s.lane l
    let sw := exec (.sw l gs gb imm) s
    let sh := exec (.sh l gs gb imm) s
    let sb := exec (.sb l gs gb imm) s
    let ts := exec (.tstage l ga gv gm) s
    let bad := fun (a : Nat) => a < 0x40000 ∨ (0x20000000 ≤ a ∧ a < 0x20100000) ∨ (0x30000000 ≤ a ∧ a < 0x31000000) ∨
      unmapped a = true ∨ (0x20100000 ≤ a ∧ a < 0x20200000 ∧ s.inRing (a - 0x20000000) = true)
    (a % 4 ≠ 0 → s.traps sw l 2 w) ∧
    (a % 4 = 0 → bad a → s.traps sw l 3 w) ∧
    (a % 4 = 0 → s.stageable a = true → x.stage.opened = none → s.traps sw l 4 w) ∧
    (a % 4 = 0 → s.stageable a = true → x.stage.opened ≠ none → 1024 ≤ x.stage.items → s.traps sw l 6 0) ∧
    (a % 2 ≠ 0 ∨ regionOf a = .regs → s.traps sh l 2 w) ∧ (regionOf a = .regs → s.traps sb l 2 w) ∧
    (regionOf a ≠ .regs → bad a → (a % 2 = 0 → s.traps sh l 3 w) ∧ s.traps sb l 3 w) ∧
    (regionOf a = .sram → s.stageable a = true → x.stage.opened = none → (a % 2 = 0 → s.traps sh l 4 w) ∧ s.traps sb l 4 w) ∧
    (p.toNat % 4 ≠ 0 → s.traps ts l 2 p) ∧
    (p.toNat % 4 = 0 → bad p.toNat ∨ regionOf p.toNat = .dram → s.traps ts l 3 p) ∧
    (p.toNat % 4 = 0 → s.stageable p.toNat = true → x.stage.opened ≠ none → 1024 ≤ x.stage.items → s.traps ts l 6 0)
  )

/-- R27, R51: a double-bit error in a read from IRAM, DRAM or shared SRAM ends the lane's tide without a record: the lane stops, and nothing but
its counters and the cause has changed. -/
def Obligations.DoubleBitErrorEndsTide : Prop :=
  ∀ (s : State) (l : Lane) (gd gb : GReg) (imm : BitVec 16), s.runs l →
    let a := (s.gv l gb + imm.signExtend 32).toNat
    let ends := fun (i : Instr) => ∃ y, s.toLane (exec i s) l y ∧
      y = { s.lane l with run := false, wait := none, lost := y.lost, tally := y.tally }
    regionOf a = .iram ∨ regionOf a = .dram ∨ regionOf a = .sram →
    (a % 4 = 0 → ends (.lw l gd gb imm .double)) ∧
    (a % 2 = 0 → ends (.lh l gd gb imm .double) ∧ ends (.lhu l gd gb imm .double)) ∧
    ends (.lb l gd gb imm .double) ∧ ends (.lbu l gd gb imm .double)

/-- R37, R92: LIVE answers the present value of a register word, as it stands at the instant of the request once the registers that run with
time show that instant; of the lane only the destination, the pc and the counters change. A misaligned address traps with ALIGN, one outside
register space or undefined there with MAP.
An event row happens at the instant it carries, and device time does not go back (assumption 5, the model's choice). -/
def Obligations.LiveResult : Prop :=
  ∀ (s : State) (l : Lane) (gd gb : GReg) (imm : BitVec 16) (t waitNs : Nat), s.runs l →
    let u := (s.atTime t).liveShow
    let x := u.lane l
    let a := (s.gv l gb + imm.signExtend 32).toNat
    let run := exec (.live l gd gb imm ⟨t, waitNs⟩) s
    (a % 4 = 0 → regionOf a = .regs → unmapped a = false →
      ∃ y, run = .next (u.setLane l y) ∧ GWrote x y gd.val (u.reg (keyOf l a)) ∧
        Went x y 4 (min waitNs (liveWait a)) ∧ y.sw = x.sw ∧ y.acc = x.acc ∧ liveWait a ≤ 400) ∧
    ((s.lane l).tc = 0 →
      (a % 4 ≠ 0 → (s.atTime t).traps run l 2 (BitVec.ofNat 32 a)) ∧
      (a % 4 = 0 → regionOf a ≠ .regs ∨ unmapped a = true → (s.atTime t).traps run l 3 (BitVec.ofNat 32 a)))

/-- R74, R75, R77: a store to DRAM takes effect at once, inside or outside a group: its bytes hold the register's low bytes, least significant
first; every other byte of DRAM, and all else of the state but the pc and the counters, is as before.
R75, R81: inside a group a word store to a defined register, and a store of any width to a stageable word of shared SRAM, is staged: the
open group gets one item whose mask covers the bytes written, less the bits of reserved fields (R13), and the record its STORE element
(R121); memory and registers do not change. -/
def Obligations.StoreResults : Prop :=
  (
  ∀ (s : State) (l : Lane) (gs gb : GReg) (imm : BitVec 16), s.runs l →
    let x := s.lane l
    let v := s.gv l gs
    let a := (s.gv l gb + imm.signExtend 32).toNat
    let o := a - 0x10000000
    let stored := fun (i : Instr) (n : Nat) => ∃ y, s.toLane (exec i s) l y ∧
      (∀ k, k < n → rdByte y.dram (o + k) = v.extractLsb' (8 * k) 8) ∧
      (∀ b, b < o ∨ o + n ≤ b → rdByte y.dram b = rdByte x.dram b) ∧
      y = { x with
        dram := y.dram, dirty := y.dirty, pc := x.pc + 4
        tally := { x.tally with cycles := x.tally.cycles + 1, insts := x.tally.insts + 1 } }
    0x10000000 ≤ a → a < 0x10040000 →
    (a % 4 = 0 → stored (.sw l gs gb imm) 4) ∧ (a % 2 = 0 → stored (.sh l gs gb imm) 2) ∧ stored (.sb l gs gb imm) 1
  ) ∧
  (
  ∀ (s : State) (l : Lane) (gs gb ga gv gm : GReg) (imm : BitVec 16) (items : List Item), s.runs l →
    let x := s.lane l
    let v := s.gv l gs
    let a := (s.gv l gb + imm.signExtend 32).toNat
    let p := (s.gv l ga).toNat
    let q := x.stage.items
    -- the item and its STORE element, the bits of reserved fields left out of both (R13)
    let staged := fun (i : Instr) (w : Nat) (d m : Word) =>
      let b := storeBits w
      s.toLane (exec i s) l { x with
        pc := x.pc + 4
        stage := { x.stage with
          opened := some (items ++ [.word q w (d &&& b) (m &&& b)]), items := q + 1
          elems := x.stage.elems ++ [⟨2, x.stage.groups - 1, q, w, (d &&& b).toNat, (m &&& b).toNat⟩] }
        tally := { x.tally with cycles := x.tally.cycles + 2, insts := x.tally.insts + 1, items := x.tally.items + 1 } }
    x.stage.opened = some items → q < 1024 →
    (s.stageable a = true →
      (a % 4 = 0 → staged (.sw l gs gb imm) a v 0xFFFFFFFF#32) ∧
      (regionOf a = .sram →
        (a % 2 = 0 → staged (.sh l gs gb imm) (a / 4 * 4) ((v &&& 0xFFFF#32) <<< (a % 4 * 8)) (0xFFFF#32 <<< (a % 4 * 8))) ∧
        staged (.sb l gs gb imm) (a / 4 * 4) ((v &&& 0xFF#32) <<< (a % 4 * 8)) (0xFF#32 <<< (a % 4 * 8)))) ∧
    (s.stageable p = true → p % 4 = 0 → staged (.tstage l ga gv gm) p (s.gv l gv) (s.gv l gm))
  )

/-- R78: a branch whose condition holds goes to its own address plus 4 × sext(off16) in 3 cycles; one whose condition fails goes on in 1.
Nothing else changes. A taken one whose target is outside IRAM traps with MAP. The target is taken modulo 2^32, and a trapping transfer
writes nothing (assumption 6, the model's choice).
R78: the jumps; JAL and JALR write the address of the next instruction, and JALR takes its base before that. A target that is not a multiple
of 4 traps with ALIGN, one outside IRAM with MAP; tp is the jump's address. -/
def Obligations.BranchAndJumpResults : Prop :=
  (
  ∀ (s : State) (l : Lane) (gs gt : GReg) (off : BitVec 16), s.runs l →
    let x := s.lane l
    let a := s.gv l gs
    let b := s.gv l gt
    let t := (BitVec.ofNat 32 x.pc + 4 * off.signExtend 32).toNat
    let goes := fun (i : Instr) (pc c : Nat) => s.toLane (exec i s) l
      { x with pc := pc, tally := { x.tally with cycles := x.tally.cycles + c, insts := x.tally.insts + 1 } }
    let branch := fun (i : Instr) (c : Bool) => (c = false → goes i (x.pc + 4) 1) ∧ (c = true → goes i t 3)
    let out := fun (i : Instr) (c : Bool) => c = true → s.traps (exec i s) l 3 (BitVec.ofNat 32 t)
    t % 4 = 0 →
    (t < 0x40000 →
      branch (.beq l gs gt off) (a == b) ∧ branch (.bne l gs gt off) (a != b) ∧ branch (.blt l gs gt off) (a.slt b) ∧
      branch (.bge l gs gt off) (!a.slt b) ∧ branch (.bltu l gs gt off) (a.ult b) ∧ branch (.bgeu l gs gt off) (!a.ult b)) ∧
    (0x40000 ≤ t → x.tc = 0 →
      out (.beq l gs gt off) (a == b) ∧ out (.bne l gs gt off) (a != b) ∧ out (.blt l gs gt off) (a.slt b) ∧
      out (.bge l gs gt off) (!a.slt b) ∧ out (.bltu l gs gt off) (a.ult b) ∧ out (.bgeu l gs gt off) (!a.ult b))
  ) ∧
  (
  ∀ (s : State) (l : Lane) (gd gb : GReg) (imm : BitVec 16) (far : BitVec 26), s.runs l →
    let x := s.lane l
    let w := BitVec.ofNat 32 x.pc + 4 * far.signExtend 32
    let r := s.gv l gb + imm.signExtend 32
    let link := BitVec.ofNat 32 (x.pc + 4)
    let went := fun (i : Instr) (t gd : Nat) => ∃ y, s.toLane (exec i s) l y ∧ GWrote x y gd link ∧
      y = { x with
        g := y.g, pc := t
        tally := { x.tally with cycles := x.tally.cycles + 3, insts := x.tally.insts + 1 } }
    (w.toNat % 4 = 0 → w.toNat < 0x40000 → went (.j l far) w.toNat 0 ∧ went (.jal l far) w.toNat 31) ∧
    (r.toNat % 4 = 0 → r.toNat < 0x40000 → went (.jalr l gd gb imm) r.toNat gd.val) ∧
    (x.tc = 0 →
      (r.toNat % 4 ≠ 0 → s.traps (exec (.jalr l gd gb imm) s) l 2 r) ∧
      (r.toNat % 4 = 0 → 0x40000 ≤ r.toNat → s.traps (exec (.jalr l gd gb imm) s) l 3 r) ∧
      (w.toNat % 4 = 0 → 0x40000 ≤ w.toNat → s.traps (exec (.j l far) s) l 3 w ∧ s.traps (exec (.jal l far) s) l 3 w))
  )

/-- R79, R82, R121: TBEGIN opens an empty group with the next index and sets GRP; TCOMMIT closes the open group into the record, in order and
under its index, with its CLOSE element, GRP 0 and GRPN one more; TABORT drops it with its ABORT element and GRP 0. Each completes, and
registers, accumulators, memories and the other bits of sw stay.
R80, R82, R86, R88: the traps of the group and ring instructions: GROUP, STAGE_FULL at the 17th group, RING for an absent or disabled ring
and for a push or a pop that the program is not the party for, then ALIGN and MAP of the entry's place in DRAM and STAGE_FULL at the 1025th
item. The order in which the causes of one instruction are checked is the model's choice (assumption 25). -/
def Obligations.GroupResults : Prop :=
  (
  ∀ (s : State) (l : Lane) (items : List Item), s.runs l →
    let x := s.lane l
    let g := x.stage.groups
    let n := BitVec.ofNat 8 (x.stage.closed.length + 1)
    let did := fun (i : Instr) (st : Stage) (c : Nat) (sw : Nat → Bool) => ∃ y, s.toLane (exec i s) l y ∧
      y = { x with
        stage := st, sw := y.sw, pc := x.pc + 4
        tally := { x.tally with cycles := x.tally.cycles + c, insts := x.tally.insts + 1 } } ∧ ∀ i, i < 32 → y.sw.getLsbD i = sw i
    (x.stage.opened = none → g < 16 → did (.tbegin l) { x.stage with opened := some [], groups := g + 1 } 2 fun i =>
      if i = 7 then true else x.sw.getLsbD i) ∧
    (x.stage.opened = some items →
      (did (.tcommit l) { x.stage with
          opened := none, closed := x.stage.closed ++ [(g - 1, items)], elems := x.stage.elems ++ [⟨6, g - 1, 0, items.length, 0, 0⟩] } 4
        fun i => if i = 7 then false else if 8 ≤ i ∧ i < 16 then n.getLsbD (i - 8) else x.sw.getLsbD i) ∧
      did (.tabort l) { x.stage with opened := none, elems := x.stage.elems ++ [⟨7, g - 1, 0, items.length, 0, 0⟩] } 2 fun i =>
        if i = 7 then false else x.sw.getLsbD i)
  ) ∧
  (
  ∀ (s : State) (l : Lane) (ga gv gm gr gp gd : GReg) (e : Ecc), s.runs l → (s.lane l).tc = 0 →
    let x := s.lane l
    let n := s.gv l gr
    let p := s.gv l gp
    let size := s.ringEnt n.toNat
    let push := exec (.rpush l gr ⟨gp, e⟩) s
    let pop := exec (.rpop l gr gp e) s
    let place := fun (o : Host.Outcome State Fault Refusal) =>
      (p.toNat % size ≠ 0 → s.traps o l 2 p) ∧
      (p.toNat % size = 0 → p.toNat < 0x10000000 ∨ 0x10040000 < p.toNat + size → s.traps o l 3 p) ∧
      (p.toNat % size = 0 → 0x10000000 ≤ p.toNat → p.toNat + size ≤ 0x10040000 → 1024 ≤ x.stage.items → s.traps o l 6 0)
    (x.stage.opened ≠ none → s.traps (exec (.tbegin l) s) l 5 0) ∧
    (x.stage.opened = none → 16 ≤ x.stage.groups → s.traps (exec (.tbegin l) s) l 6 0) ∧
    (x.stage.opened = none →
      s.traps (exec (.tcommit l) s) l 5 0 ∧ s.traps (exec (.tabort l) s) l 5 0 ∧
      ((s.gv l ga).toNat % 4 = 0 → s.stageable (s.gv l ga).toNat = true → s.traps (exec (.tstage l ga gv gm) s) l 5 0) ∧
      s.traps push l 5 0 ∧ s.traps pop l 5 0) ∧
    (63 < n.toNat ∨ s.flag (RINGS.RING_CFG_EN n.toNat) = false →
      s.traps (exec (.rcnt l gd gr) s) l 7 n ∧ (x.stage.opened ≠ none → s.traps push l 7 n ∧ s.traps pop l 7 n)) ∧
    (x.stage.opened ≠ none → n.toNat < 64 → s.flag (RINGS.RING_CFG_EN n.toNat) = true →
      (s.progProduces n.toNat = false → s.traps push l 7 n) ∧ (s.progConsumes n.toNat = false → s.traps pop l 7 n) ∧
      (s.progProduces n.toNat = true → place push) ∧ (s.progConsumes n.toNat = true → place pop))
  )

/-- R79, R121: TCOMMIT.E closes the open group, if any, and TABORT.E drops it; each adds the TRAILER element, presents the record and ends the
lane's tide. What follows is the end of a shortened tide (R493) and the start of the self-test's slot (R475); registers, accumulators and
memories stay.
R98: a trap taken while TC is not 0 ends the lane's tide without a record; its registers and its closed groups stand as they were. -/
def Obligations.TideEndResults : Prop :=
  (
  ∀ (s : State) (l : Lane), s.runs l →
    let x := s.lane l
    let g := x.stage.groups
    let ends := fun (i : Instr) (closed : List (Nat × List Item)) (ab : Bool) (es : List Elem) =>
      ∃ y, exec i s = .next ((s.setLane l y).recordIn.slotStart l) ∧ y = { x with
        run := false, pc := x.pc + 4, sw := y.sw
        tally := { x.tally with cycles := x.tally.cycles + 4, insts := x.tally.insts + 1 }
        stage := { x.stage with
          opened := none, closed := closed, abortE := ab, done := true
          elems := x.stage.elems ++ es ++ [⟨9, 255, 0, x.tc + (if ab then 16 else 0) + 256 * min x.stage.bells 63 + 65536 * x.stage.folds +
            16777216 * closed.length, if x.tc = 0 then 0 else x.tp, x.stage.items⟩] } }
    (x.stage.opened = none → ends (.tcommitE l) x.stage.closed false [] ∧ ends (.tabortE l) x.stage.closed true []) ∧
    ∀ items, x.stage.opened = some items →
      ends (.tcommitE l) (x.stage.closed ++ [(g - 1, items)]) false [⟨6, g - 1, 0, items.length, 0, 0⟩] ∧
      ends (.tabortE l) x.stage.closed true [⟨7, g - 1, 0, items.length, 0, 0⟩]
  ) ∧
  (
  ∀ (s : State) (l : Lane) (n : BitVec 5), s.runs l → (s.lane l).tc ≠ 0 →
    ∃ y, s.toLane (exec (.trap l n) s) l y ∧ y.run = false ∧ y.stage = (s.lane l).stage ∧ y.sw = (s.lane l).sw ∧ y.tp = (s.lane l).tp ∧
      y.g = (s.lane l).g
  )

/-- R84, R85: EVNEXT takes the first source of the presented set with its OVR bit, which is the lowest-numbered one of a set held in rising
order, or answers 0x8000_0000; it keeps that source's short stamp, and EVSTAMP answers the one that EVNEXT last kept.
R42, R43, R84, R85: a bell point. The first lane fixes the cut at its instant, a later one may bring it forward until the copies agree, and
both wait; a lane that finds the set released takes the whole of it, gd receives the number of its sources and the lane goes on; from the
33rd of a tide on the set is empty and BELL_OVR is set.
R40, R41, R42: when the copies agree on a cut, its set is fixed: the sources below 256 that are enabled and latched with a stamp at or
before the cut, with their stamps and OVR bits, in rising order. Their latches and OVR bits clear, every lane that waits at that bell point
takes the set and goes on, no other lane moves, and no other register and no memory changes.
An event row happens at the instant it carries, and device time does not go back (assumption 5, the model's choice). -/
def Obligations.EventAndBellResults : Prop :=
  (
  ∀ (s : State) (l : Lane) (gd : GReg), s.runs l →
    let x := s.lane l
    let next := fun (v : Word) (pres : List (Nat × Pres)) (last : Nat) => ∃ y, s.toLane (exec (.evnext l gd) s) l y ∧
      GWrote x y gd.val v ∧ y = { x with
        g := y.g, pres := pres, last := last, pc := x.pc + 4
        tally := { x.tally with cycles := x.tally.cycles + 2, insts := x.tally.insts + 1 } }
    (x.pres = [] → next 0x80000000#32 [] x.last) ∧
    (∀ src stamp ovr m, x.pres = (src, ⟨stamp, ovr⟩) :: m →
      next (BitVec.ofNat 32 (src + if ovr then 256 else 0)) m (stamp % 4294967296) ∧ (Rising x.pres → ∀ q ∈ m, src < q.1)) ∧
    s.putsG (exec (.evstamp l gd) s) l gd (BitVec.ofNat 32 x.last) [] 2
  ) ∧
  (
  ∀ (s : State) (l : Lane) (gd : GReg) (t waitNs : Nat), s.runs l →
    let x := s.lane l
    let k := x.stage.bells
    let run := exec (.bell l gd t waitNs) s
    let c := { x with
      stage := { x.stage with bells := k + 1 }
      tally := { x.tally with
        cycles := x.tally.cycles + 8, insts := x.tally.insts + 1, waitNs := x.tally.waitNs + min waitNs 60, bells := x.tally.bells + 1 } }
    let waits := fun (bells : List BellPt) =>
      run = .next ({ s.atTime t with gal := { s.gal with bells := bells } }.setLane l { c with wait := some (.bell gd.val k) })
    (k < 32 → s.gal.bells[k]? = none → waits (s.gal.bells ++ [BellPt.mk t none])) ∧
    (∀ cut, k < 32 → s.gal.bells[k]? = some ⟨cut, none⟩ → waits (s.gal.bells.set k ⟨min cut t, none⟩)) ∧
    (∀ cut set, k < 32 → s.gal.bells[k]? = some ⟨cut, some set⟩ → ∃ y, run = .next ((s.atTime t).setLane l y) ∧ TookSet c y gd.val set) ∧
    (32 ≤ k → ∃ y, run = .next (((s.atTime t).setLane l y).setFlag GALLERY.TIDE_STS_BELL_OVR true) ∧ TookSet c y gd.val [])
  ) ∧
  (
  ∀ (s : State) (k : Fin 32) (cut : Nat), s.gal.bells[k.val]? = some ⟨cut, none⟩ →
    ∃ t set, exec (.bellSetAgreed k) s = .next t ∧ t.gal.bells[k.val]? = some ⟨cut, some set⟩ ∧ Rising set ∧
      (∀ n p, (n, p) ∈ set ↔ n < 256 ∧ s.evtBit GALLERY.EVT_PEND n = true ∧ s.evtBit GALLERY.EVT_EN n = true ∧
        mget zeroNat s.gal.evtStamp n ≤ cut ∧ p = ⟨mget zeroNat s.gal.evtStamp n, s.evtBit GALLERY.EVT_OVR n⟩) ∧
      (∀ n, n < 256 → t.evtBit GALLERY.EVT_PEND n = (s.evtBit GALLERY.EVT_PEND n && !(set.any fun q => q.1 == n)) ∧
        t.evtBit GALLERY.EVT_OVR n = (s.evtBit GALLERY.EVT_OVR n && !(set.any fun q => q.1 == n))) ∧
      RegsBut ((upto 8).map GALLERY.EVT_PEND ++ (upto 8).map GALLERY.EVT_OVR) s t ∧ t.sram = s.sram ∧ t.mram = s.mram ∧
      ∀ l : Lane, (∀ rd, (s.lane l).wait = some (.bell rd k.val) → TookSet (s.lane l) (t.lane l) rd set) ∧
        ((∀ rd, (s.lane l).wait ≠ some (.bell rd k.val)) → t.lane l = s.lane l)
  )

/-- R93, R94: VFOLD takes a value already fixed, or submits its register, if the lane votes, and waits; the 65th of a tide traps with FOLD.
R93, R121: once every voting lane has submitted, or the next has not within 2000 ns, the value of a fold is the median of three submissions,
the lesser of two. The lanes that wait there receive it with a FOLD element and go on; no other lane, no register and no memory changes.
An event row happens at the instant it carries, and device time does not go back (assumption 5, the model's choice). -/
def Obligations.FoldResults : Prop :=
  (
  ∀ (s : State) (l : Lane) (gd gs : GReg) (t waitNs : Nat), s.runs l →
    let x := s.lane l
    let k := x.stage.folds
    let u := s.atTime t
    let run := exec (.vfold l gd gs ⟨t, waitNs⟩) s
    let c := { x with tally := { x.tally with
      cycles := x.tally.cycles + 8, insts := x.tally.insts + 1, waitNs := x.tally.waitNs + min waitNs 2100, folds := x.tally.folds + 1 } }
    let f := s.gal.folds.getD k ⟨[], 0, none⟩
    let f' := if s.votes l then { f with subs := f.subs ++ [(l.val, s.gv l gs)], at' := u.now } else f
    (∀ v, k < 64 → f.value = some v → ∃ y, run = .next (u.setLane l y) ∧ TookFold c y gd.val v) ∧
    (k < 64 → f.value = none → k ≤ s.gal.folds.length → ∃ fs, fs[k]? = some f' ∧ (∀ i, i < k → fs[i]? = s.gal.folds[i]?) ∧
      run = .next ({ u with gal := { s.gal with folds := fs } }.setLane l { c with wait := some (.fold gd.val k) })) ∧
    (64 ≤ k → x.tc = 0 → u.traps run l 8 0)
  ) ∧
  (
  ∀ (s : State) (k : Fin 64) (a b c : Word) (i j h at' t : Nat),
    let gives := fun (subs : List (Nat × Word)) (v : Word) => s.gal.folds[k.val]? = some ⟨subs, at', none⟩ →
      s.voters.length ≤ subs.length ∨ at' + 2000 ≤ max s.now t →
      ∃ u, exec (.vfoldValueFixed ⟨k, t⟩) s = .next u ∧ u.gal.folds[k.val]? = some ⟨subs, at', some v⟩ ∧ u.regs = s.regs ∧
        u.sram = s.sram ∧ u.mram = s.mram ∧
        ∀ l : Lane, (∀ rd, (s.lane l).wait = some (.fold rd k.val) → TookFold (s.lane l) (u.lane l) rd v) ∧
          ((∀ rd, (s.lane l).wait ≠ some (.fold rd k.val)) → u.lane l = s.lane l)
    gives [(i, a), (j, b)] (if b.slt a then b else a) ∧
    ((a.sle b = true → b.sle c = true → gives [(i, a), (j, b), (h, c)] b ∧ gives [(i, b), (j, a), (h, c)] b ∧
      gives [(i, b), (j, c), (h, a)] b ∧ gives [(i, a), (j, c), (h, b)] b ∧ gives [(i, c), (j, b), (h, a)] b ∧
      gives [(i, c), (j, a), (h, b)] b))
  )

/-- R89, R91: the time instructions: snapshot or live time as seconds, nanoseconds and fraction, its short stamp, and the extension of a short
stamp by its signed distance from the snapshot. The ns of live time are those of the instant that the row carries, and its fraction is the
one of the island's count then (assumption 5, the model's choice).
An event row happens at the instant it carries, and device time does not go back (assumption 5, the model's choice). -/
def Obligations.TimeResults : Prop :=
  ∀ (s : State) (l : Lane) (gd gs : GReg) (t frac waitNs : Nat), s.runs l →
    let x := s.lane l
    let triple := fun (y : LaneSt) (now fr : Nat) => ∀ r, y.rg r =
      if r = gd.val then BitVec.ofNat 32 (now / 1000000000)
      else if r = gd.val + 1 then BitVec.ofNat 32 (now % 1000000000)
      else if r = gd.val + 2 then BitVec.ofNat 32 (now / 1000000000 / 2 ^ 32 % 65536 + 65536 * (fr % 65536)) else x.rg r
    (gd.val % 4 = 0 → 4 ≤ gd.val → gd.val ≤ 28 →
      (∃ y, s.toLane (exec (.tnow l gd) s) l y ∧ Went x y 3 0 ∧ triple y s.snap.time s.snap.frac ∧ y.sw = x.sw ∧ y.acc = x.acc) ∧
      (∃ y, exec (.tnowL l gd t frac waitNs) s = .next ((s.atTime t).setLane l y) ∧ Went x y 4 (min waitNs 20) ∧
        triple y t (fracOf ((s.atTime t).oscAt t frac)) ∧ y.sw = x.sw ∧ y.acc = x.acc)) ∧
    s.putsG (exec (.tshort l gd) s) l gd (BitVec.ofNat 32 s.snap.time) [] 1 ∧
    (∃ y, exec (.tshortL l gd t waitNs) s = .next ((s.atTime t).setLane l y) ∧ Went x y 2 0 ∧
      GWrote x y gd.val (BitVec.ofNat 32 t) ∧ y.sw = x.sw ∧ y.acc = x.acc) ∧
    (gd.val % 2 = 0 → 2 ≤ gd.val →
      let i : Int := s.snap.time + (s.gv l gs - BitVec.ofNat 32 s.snap.time).toInt
      ∃ y, s.toLane (exec (.text l gd gs) s) l y ∧ Went x y 4 0 ∧ y.sw = x.sw ∧ y.acc = x.acc ∧
        ∀ r, y.rg r = if r = gd.val then BitVec.ofInt 32 (i / 1000000000)
          else if r = gd.val + 1 then BitVec.ofInt 32 (i % 1000000000) else x.rg r)

/-- R56, R57, R86, R87, R121: RPUSH stages an entry copied from DRAM and clears C; when the ring has no space it sets C, but with DROP_OLD it
stages the push with a tail advance. RPOP copies the next entry of the ring, or of the lane's own staged pushes behind it, to DRAM and
clears Z, or sets Z when there is none. RCNT counts the snapshot's entries, the lane's staged pushes and pops included. Each adds its
element to the record (RPUSH its DATA elements too); no register and no ring changes before the commit. -/
def Obligations.RingResults : Prop :=
  ∀ (s : State) (l : Lane) (gd gr gp : GReg) (items : List Item), s.runs l →
    let x := s.lane l
    let n := (s.gv l gr).toNat
    let p := (s.gv l gp).toNat
    let e := s.ringEnt n
    let o := p - 0x10000000
    let q := x.stage.items
    let g := x.stage.groups - 1
    let head := (s.snapReg (RINGS.RING_HEAD n)).toNat
    let tail := (s.snapReg (RINGS.RING_TAIL n)).toNat
    let hd := (head + (x.stagedPushes n).length) % 65536
    let tl := (tail + x.stagedTail n) % 65536
    let cnt := ringDiff hd tl
    let entry := if x.stagedTail n < ringDiff head tail then s.ringEntry n tl
      else padTo e ((x.stagedPushes n).getD (x.stagedTail n - ringDiff head tail) [])
    let staged := fun (i : Instr) (it : Item) (el : Elem) (more c : Nat) (f : Nat × Bool) (bytes : Nat → Byte) =>
      ∃ y ds, s.toLane (exec i s) l y ∧ SwIs x y [f] ∧ ds.length = more ∧ (∀ d ∈ ds, d.kind = 4 ∧ d.grp = g) ∧
        (∀ b, rdByte y.dram b = bytes b) ∧ y = { x with
          sw := y.sw, pc := x.pc + 4, dram := y.dram, dirty := y.dirty
          stage := { x.stage with opened := some (items ++ [it]), items := q + 1, elems := x.stage.elems ++ el :: ds }
          tally := { x.tally with cycles := x.tally.cycles + c, insts := x.tally.insts + 1, items := x.tally.items + 1 } }
    let same := rdByte x.dram
    n < 64 → s.flag (RINGS.RING_CFG_EN n) = true →
    s.putsG (exec (.rcnt l gd gr) s) l gd (BitVec.ofNat 32 cnt) (zn (BitVec.ofNat 32 cnt)) 2 ∧
    (x.stage.opened = some items → x.stage.items < 1024 → p % e = 0 → 0x10000000 ≤ p → p + e ≤ 0x10040000 →
      (s.progProduces n = true →
        (cnt < s.ringSize n →
          staged (.rpush l gr ⟨gp, .clean⟩) (.push q n (rdBytes x.dram o e) false) ⟨3, g, q, n, hd, e⟩ ((e + 11) / 12) (4 + e / 8) (2, false) same) ∧
        (s.ringSize n ≤ cnt → s.fld (RINGS.RING_CFG_POLICY n) = 1 →
          staged (.rpush l gr ⟨gp, .clean⟩) (.push q n (rdBytes x.dram o e) true) ⟨3, g, q, n, hd, e⟩ ((e + 11) / 12) (4 + e / 8) (2, false) same) ∧
        (s.ringSize n ≤ cnt → s.fld (RINGS.RING_CFG_POLICY n) ≠ 1 →
          staged (.rpush l gr ⟨gp, .clean⟩) (.idle q n) ⟨3, g, q, n, 0xFFFFFFFF, e⟩ 0 (4 + e / 8) (2, true) same)) ∧
      (s.progConsumes n = true →
        (0 < cnt → staged (.rpop l gr gp .clean) (.pop q n) ⟨5, g, q, n, tl, 0⟩ 0 (12 + e / 8) (0, false) fun b =>
          if o ≤ b ∧ b < o + e then entry.getD (b - o) 0 else rdByte x.dram b) ∧
        (cnt = 0 → staged (.rpop l gr gp .clean) (.idle q n) ⟨5, g, q, n, 0xFFFFFFFF, 0⟩ 0 (12 + e / 8) (0, true) same)))

/-- R95, R96: TRAP traps with SOFT and its number; RDSW, RDTP and RDTV read; WRSW writes sw[5:0] only (R64). An illegal word traps with ILLEGAL
and the word in tv (R69). -/
def Obligations.StatusResults : Prop :=
  ∀ (s : State) (l : Lane) (gd gs : GReg) (n : BitVec 5) (w : Word), s.runs l →
    let x := s.lane l
    (x.tc = 0 → s.traps (exec (.trap l n) s) l 0xA (n.setWidth 32)) ∧
    s.putsG (exec (.rdsw l gd) s) l gd x.sw [] 1 ∧ s.putsG (exec (.rdtp l gd) s) l gd (BitVec.ofNat 32 x.tp) [] 1 ∧
    s.putsG (exec (.rdtv l gd) s) l gd x.tv [] 1 ∧
    (∃ y, s.toLane (exec (.wrsw l gs) s) l y ∧ Went x y 1 0 ∧ y.g = x.g ∧ y.acc = x.acc ∧
      ∀ i, i < 32 → y.sw.getLsbD i = if i < 6 then (s.gv l gs).getLsbD i else x.sw.getLsbD i) ∧
    (legalWord w = false → x.tc = 0 → s.traps (exec (.illegalWord l ⟨w, .clean⟩) s) l 1 w)

/-- R69: the words 0x0000_0000 and 0xFFFF_FFFF are illegal, and so is a word of an unassigned OP; words written out from R67 to R70 are legal:
ADD g1, g2, g3; CLAMPU with its bits [5:1] 0; LW; and ADD with an unassigned FN is not. -/
def Obligations.LegalWords : Prop :=
  legalWord 0x00000000#32 = false ∧ legalWord 0xFFFFFFFF#32 = false ∧ (∀ r : BitVec 26, legalWord (0x04#6 ++ r) = false) ∧
  legalWord 0b00000000001000100001100000000001#32 = true ∧ legalWord 0b00001100001000100001100100000001#32 = true ∧
  legalWord 0b00001100001000100001100100100001#32 = false ∧ legalWord 0b01000000001000100000000000000100#32 = true ∧
  legalWord 0b00000000001000100001100000111111#32 = false

/-- R159, R160, R165: new levels of an enabled input that were made since it was enabled are accepted at the sample that completes their hold of
FILT × 10 ns: a change of one line counts as ENC_CFG.MODE says, reversed by INV, modulo 2^48, and the levels are remembered; the monitors'
decoders take theirs (R345). No memory and no lane changes. A row that is not at that sample changes nothing of the input. -/
def Obligations.EncoderCounts : Prop :=
  ∀ (s : State) (n : Fin 6) (a b : Bool) (since t : Nat),
    let e := s.enc n
    let m := s.fld (POS.ENC_CFG_MODE n)
    let aEdge := e.a != a
    let d : Int :=
      if m = 0 then (if aEdge then (if a = b then -1 else 1) else (if a = b then 1 else -1))
      else if m = 1 then (if aEdge then (if a = b then -1 else 1) else 0)
      else (if aEdge ∧ a then (if b then -1 else 1) else 0)
    let h := since + s.fld (POS.ENC_CFG_FILT n) * 10
    (t ≠ h → Ends (exec (.encoderEdge n a b ⟨since, t⟩) s) fun u => u.pos = s.pos ∧ RegsBut [] s u ∧ SameMem s u) ∧
    (s.flag (POS.ENC_CFG_EN n) = true → (e.a = a ∧ e.b ≠ b ∨ e.a ≠ a ∧ e.b = b) → t = h → e.enAt ≤ since →
      Ends (exec (.encoderEdge n a b ⟨since, t⟩) s) fun u =>
        u.encCnt n = (s.encCnt n + (if s.flag (POS.ENC_CFG_INV n) then -d else d) + 2 ^ 47) % 2 ^ 48 - 2 ^ 47 ∧
        (u.enc n).a = a ∧ (u.enc n).b = b ∧ SameMem s u)

/-- R161, R166: changes of both lines accepted in one sample are an illegal transition: the count and the direction hold, ILLEGAL is set,
ILL_CNT increments and source 144 fires, unless a loss of a watched line holds in that sample: then only the levels are remembered.
An event row happens at the instant it carries, and device time does not go back (assumption 5, the model's choice). -/
def Obligations.IllegalTransition : Prop :=
  ∀ (s : State) (n : Fin 6) (a b : Bool) (since t : Nat),
    let e := s.enc n
    let run := exec (.encoderEdge n a b ⟨since, t⟩) s
    s.flag (POS.ENC_CFG_EN n) = true → e.a ≠ a → e.b ≠ b → t = since + s.fld (POS.ENC_CFG_FILT n) * 10 → e.enAt ≤ since →
    ((s.atTime t).lossNow n = true →
      run = .next (((s.atTime t).setEnc n { e with a := a, b := b }).monEdge n a b ⟨since, t⟩)) ∧
    ((s.atTime t).lossNow n = false → ∃ s1, run = .next ((s1.fire 144).monEdge n a b ⟨since, t⟩) ∧ s1.encCnt n = s.encCnt n ∧
      s1.flag (POS.ENC_STS_ILLEGAL n) = true ∧ s1.flag (POS.ENC_STS_DIR n) = s.flag (POS.ENC_STS_DIR n) ∧
      s1.fld (POS.ENC_ERRCNT_ILL_CNT n) = min (s.fld (POS.ENC_ERRCNT_ILL_CNT n) + 1) 65535 ∧
      RegsBut [POS.ENC_STS n, POS.ENC_ERRCNT n] s s1)

/-- R162, R163, R166, R171: a loss of a watched line (Z is watched unless Z_MODE is OFF) sets LOSS_NOW and LOSS, counts and fires source 145,
and LOSS_NOW alone falls with the end of the last watched loss; an index edge in mode CAPTURE writes the count after any step of its sample
to ENC_IDX; a daymark level that has held FILT × 5 µs and is delivered within 2 µs is shown in DM_LVL and waits for the next tick.
R156, R167 to R169, R179: a frame starts F + 2 µs before a tick that is due (which ticks are due is the model's choice, log entry 34) and
latches its instant; when its word is complete a good frame without parity, status bits or Gray code leaves its word as the read of the next
tick and clears STALE; one with a bad line check leaves an unusable read, sets STALE and LINE and fires source 148.
R179: the anchor that four consecutive unusable reads name goes to FAILED, and source 156 fires.
An event row happens at the instant it carries, and device time does not go back (assumption 5, the model's choice). -/
def Obligations.PositionInputEvents : Prop :=
  (
  ∀ (s : State) (n : Fin 6) (line : Fin 3) (d : Fin 16) (lvl : Bool) (since stamp t : Nat),
    let now := (s.atTime t).now
    let acc := stamp + s.fld (POS.DM_CFG_FILT d) * 5000
    (s.flag (POS.ENC_CFG_EN n) = true → s.flag (POS.ENC_CFG_LOSS_EN n) = true → s.flag (POS.ENC_STS_LOSS_NOW n) = false →
      (line.val < 2 ∨ s.fld (POS.ENC_CFG_Z_MODE n) ≠ 0) →
      ∃ s1, exec (.encoderLoss ⟨n, line⟩ t) s = .next (s1.fire 145) ∧ s1.flag (POS.ENC_STS_LOSS_NOW n) = true ∧
        (s1.enc n).low = setBits (s.enc n).low line 1 1 ∧
        s1.flag (POS.ENC_STS_LOSS n) = true ∧
        s1.fld (POS.ENC_ERRCNT_LOSS_CNT n) = min (s.fld (POS.ENC_ERRCNT_LOSS_CNT n) + 1) 65535 ∧
        RegsBut [POS.ENC_STS n, POS.ENC_ERRCNT n] s s1 ∧ SameMem s s1) ∧
    (s.flag (POS.ENC_STS_LOSS_NOW n) = true →
      Ends (exec (.encoderLossEnd ⟨n, line⟩ t) s) fun u =>
        let low := setBits (s.enc n).low line 1 0
        (u.enc n).low = low ∧ u.flag (POS.ENC_STS_LOSS_NOW n) = (s.flag (POS.ENC_CFG_EN n) && s.flag (POS.ENC_CFG_LOSS_EN n) &&
          low % (if s.fld (POS.ENC_CFG_Z_MODE n) = 0 then 4 else 8) != 0) ∧
        u.flag (POS.ENC_STS_LOSS n) = s.flag (POS.ENC_STS_LOSS n) ∧ RegsBut [POS.ENC_STS n] s u ∧ SameMem s u) ∧
    (s.flag (POS.ENC_CFG_EN n) = true → s.fld (POS.ENC_CFG_Z_MODE n) = 1 → t = since + s.fld (POS.ENC_CFG_FILT n) * 10 →
      (s.enc n).enAt ≤ since →
      let v := (s.atTime t).sample n
      Ends (exec (.indexCapture n ⟨since, t⟩) s) fun u => u.reg (POS.ENC_IDX n) = BitVec.ofInt 32 (v.encCnt n) ∧
        u.encCnt n = s.encCnt n ∧ (u.enc n).cap = some (v.encCnt n, v.flag (POS.ENC_STS_DIR n)) ∧ SameMem s u) ∧
    (s.flag (FIELD.CH_STS_VALID (32 + d.val)) = true → acc ≤ now → now ≤ acc + 2000 →
      let row := exec (.daymarkEdge d lvl stamp t) s
      (s.flag (POS.DM_CFG_EN d) = true → Ends row fun u =>
        u.pos.dmq = s.pos.dmq ++ [⟨d.val, lvl != s.flag (POS.DM_CFG_POL d), stamp, now, stamp⟩] ∧
        bitB (u.fld POS.DM_LVL_LVL) d = (lvl != s.flag (POS.DM_CFG_POL d)) ∧ RegsBut [POS.DM_LVL] s u ∧ SameMem s u) ∧
      (s.flag (POS.DM_CFG_EN d) = false → Ends row fun u =>
        mget (fun _ => false) u.pos.dmLine d.val = lvl ∧ u.pos.dmq = s.pos.dmq ∧ RegsBut [] s u ∧ SameMem s u))
  ) ∧
  (
  ∀ (s : State) (m : Fin 2) (w w2 t : Nat),
    let bits := s.fld (POS.SSI_CFG_BITS m)
    let now := (s.atTime t).now
    s.flag (POS.SSI_CFG_EN m) = true →
    (s.ssiDue m (now + s.ssiFrame m + 2000) = true →
      exec (.ssiFrameStart m t) s = .next ((s.atTime t).setSsi m { s.ssi m with latch := now, ends := some (now + s.ssiFrame m) })) ∧
    ((s.ssi m).ends = some now → s.fld (POS.SSI_CFG_PAR m) = 0 → s.fld (POS.SSI_CFG_STAT_BITS m) = 0 → s.flag (POS.SSI_CFG_DBL m) = false →
      s.flag (POS.SSI_CFG_CODE m) = false →
      Ends (exec (.ssiFrameComplete m w w2 true t) s) (fun u => (u.ssi m).read = some (w % 2 ^ bits, true) ∧ (u.ssi m).bad = 0 ∧
        (u.ssi m).ends = none ∧
        u.flag (POS.SSI_STS_STALE m) = false ∧ u.regN (POS.SSI_RAW_LO m) = w % 2 ^ bits % 2 ^ 32 ∧ SameMem s u) ∧
      ((s.ssi m).bad < 3 → ∃ s1 : State, exec (.ssiFrameComplete m w w2 false t) s = .next (s1.setSsi m { s.ssi m with
          read := some (0, false), bad := (s.ssi m).bad + 1, ends := none }) ∧
        s1.flag (POS.SSI_STS_STALE m) = true ∧ s1.flag (POS.SSI_STS_LINE m) = true))
  ) ∧
  (
  ∀ (s : State) (m : Fin 2) (a t : Nat), 4 ≤ (s.ssi m).bad → s.slotOf 3 = some a → s.fld (POS.FUS_SRC_INPUT a) = m.val →
    s.health a = 0 ∨ s.health a = 1 →
    ∃ s1, exec (.anchorFailed m t) s = .next (s1.fire 156) ∧ s1.health a = 2 ∧ RegsBut [POS.FUS_STS] s s1 ∧ SameMem s s1
  )

/-- R174, R200, R191: MOVING falls when the car has been slow for STILL_T; a checkpoint write goes to the slot that is not in use; a map save
that took is in the bank that is not in use, and no other byte of MRAM has changed.
An event row happens at the instant it carries, and device time does not go back (assumption 5, the model's choice). -/
def Obligations.PosTimedEvents : Prop :=
  ∀ (s : State) (t : Nat) (b img : List Byte),
    (s.posState ≠ 0 → (s.atTime t).stillHeld s.pos.still = true → s.moving = true → s.mot.levelTgt = none →
      Ends (exec (.stillTimeout t) s) fun u => u.moving = false ∧ RegsBut [POS.FUS_STS] s u ∧ SameMem s u) ∧
    (s.pos.ckptBusy = some b →
      Ends (exec (.checkpointWriteComplete t) s) fun u => u.pos.ckptBusy = none ∧ SameMem s u ∧
        ∀ a, rdByte u.pos.ckpt a =
          let i := if s.ckptIdx = some 0 then 32 else 0
          if i ≤ a ∧ a < i + b.length then b.getD (a - i) 0 else rdByte s.pos.ckpt a) ∧
    (s.pos.saveImg = some img → img.length = 8256 →
      Ends (exec (.mapSaveComplete true t) s) (fun u => u.pos.mapSwap = true ∧ u.pos.saveImg = none ∧ u.fld POS.MAP_STS_SAVE = 2 ∧
        ∀ a, rdByte u.mram a =
          let i := if s.fld POS.MAP_STS_BANK = 0 then 0x980000 else 0x900000
          if i ≤ a ∧ a < i + 8256 then img.getD (a - i) 0 else rdByte s.mram a) ∧
      Ends (exec (.mapSaveComplete false t) s) fun u => u.pos.mapSwap = s.pos.mapSwap ∧ u.pos.saveImg = none ∧
        u.fld POS.MAP_STS_SAVE = 3 ∧ u.fld POS.MAP_STS_CAUSE = 2 ∧ u.mram = s.mram)

/-- R163, R165, R166, R170 and the POS register tables: the clears and enables of the encoder and SSI inputs. ZARM re-arms FIRST unless an edge
of Z falls into the same sample; that edge is captured and FIRST stays disarmed. An enable is accepted while the car is still; an SSI input
that is enabled has a word that fits its schedule.
R135, R194, R195: a compare channel without AUTO is armed by EN or by a new position, as the whole commit leaves its registers: once the
blocks have settled NEXT is the programmed position, REMAIN the programmed count, SKIPPED 0 and DONE 0; CLR clears its flags.
A commit row is the commit of that one command by every voting lane (assumption 4, the model's reading). -/
def Obligations.PositionCommits : Prop :=
  (
  ∀ (s : State) (n : Fin 6) (i : Fin 2) (en : Bool),
    let clears := fun (c : Instr) (p : State → Prop) =>
      s.commits (exec c s) fun u => p u ∧ RegsBut [POS.ENC_CLR n, POS.ENC_STS n, POS.ENC_ERRCNT n] s u ∧ SameMem s u
    ((s.enc n).zAt.map (·.1) ≠ some s.now →
      clears (.zarm n) (fun u => u.flag (POS.ENC_STS_Z_SEEN n) = false ∧ (u.enc n).armed = true)) ∧
    ((s.enc n).zAt = some (s.now, true) → clears (.zarm n) (fun u => u.pos.enc = s.pos.enc)) ∧
    ((s.enc n).zAt = some (s.now, false) → s.flag (POS.ENC_CFG_EN n) = true → s.fld (POS.ENC_CFG_Z_MODE n) = 2 →
      s.commits (exec (.zarm n) s) fun u => u.reg (POS.ENC_IDX n) = BitVec.ofInt 32 ((s.sample n).encCnt n) ∧
        (u.enc n).armed = false ∧ u.flag (POS.ENC_STS_Z_SEEN n) = true ∧ SameMem s u) ∧
    clears (.encClrErrcnt n) (fun u => u.regN (POS.ENC_ERRCNT n) = 0) ∧
    clears (.encClrIdxErr n) (fun u => u.flag (POS.ENC_STS_IDX_ERR n) = false) ∧
    clears (.encClrLoss n) (fun u => u.flag (POS.ENC_STS_LOSS n) = false) ∧
    clears (.encClrIllegal n) (fun u => u.flag (POS.ENC_STS_ILLEGAL n) = false) ∧
    (s.moving = false →
      s.commits (exec (.encEn n en) s) (fun u => u.flag (POS.ENC_CFG_EN n) = en ∧ u.encCnt n = s.encCnt n ∧
        (en = true → s.flag (POS.ENC_CFG_EN n) = false → (u.enc n).cap = none) ∧
        (en = false → u.flag (POS.ENC_STS_LOSS_NOW n) = false) ∧
        (en = false ∨ (s.enc n).low = 0 → RegsBut [POS.ENC_CFG n, POS.ENC_STS n] s u) ∧ SameMem s u) ∧
      (en = false ∨ s.ssiFits i = true →
        s.commits (exec (.ssiEn i en) s) fun u => u.flag (POS.SSI_CFG_EN i) = en ∧
          (en = true → s.flag (POS.SSI_CFG_EN i) = false → u.flag (POS.SSI_STS_STALE i) = true ∧ (u.ssi i).bad = 0) ∧
          RegsBut [POS.SSI_CFG i, POS.SSI_STS i] s u ∧ SameMem s u)) ∧
    s.commits (exec (.ssiClrErrcnt i) s) (fun u => u.regN (POS.SSI_ERRCNT i) = 0 ∧
      RegsBut [POS.SSI_CLR i, POS.SSI_STS i, POS.SSI_ERRCNT i] s u ∧ SameMem s u) ∧
    s.commits (exec (.ssiClrFlags i) s) (fun u => u.flag (POS.SSI_STS_LINE i) = false ∧ u.flag (POS.SSI_STS_ALARM i) = false ∧
      u.flag (POS.SSI_STS_STALE i) = s.flag (POS.SSI_STS_STALE i) ∧
      RegsBut [POS.SSI_CLR i, POS.SSI_STS i, POS.SSI_ERRCNT i] s u ∧ SameMem s u)
  ) ∧
  (
  ∀ (s : State) (c : Fin 16) (lo hi : Word),
    let armed := fun (u : State) (on : Bool) (p : Int) =>
      u.flag (POS.CMP_STS_ARMED c) = on ∧ u.pos48 (POS.CMP_NEXT_LO c) = p ∧ u.pos48 (POS.CMP_POS_LO c) = p ∧
      u.fld (POS.CMP_STS_REMAIN c) = u.fld (POS.CMP_CNT_CNT c) ∧ u.fld (POS.CMP_STS_SKIPPED c) = 0 ∧ u.flag (POS.CMP_STS_DONE c) = false
    s.flag (POS.CMP_CFG_AUTO c) = false →
    (s.flag (POS.CMP_CFG_EN c) = false → s.commits (exec (.cmpArm c true lo hi) s) fun u =>
      armed u.cmpSettle true (s.pos48 (POS.CMP_POS_LO c)) ∧ u.flag (POS.CMP_CFG_EN c) = true ∧ c.val ∈ u.pos.cmpNew ∧ SameMem s u) ∧
    s.commits (exec (.cmpArm c false lo hi) s) (fun u =>
      armed u.cmpSettle (s.flag (POS.CMP_CFG_EN c)) (sgn 48 (lo.toNat + 2 ^ 32 * (hi.toNat % 65536))) ∧ c.val ∈ u.pos.cmpNew ∧
      SameMem s u) ∧
    s.commits (exec (.cmpClr c) s) (fun u => u.flag (POS.CMP_STS_BEHIND c) = false ∧ u.flag (POS.CMP_STS_MULTI c) = false ∧
      u.fld (POS.CMP_STS_SKIPPED c) = 0 ∧ RegsBut [POS.CMP_CFG c, POS.CMP_STS c] s u ∧ SameMem s u)
  )

/-- R173, R183, R184: a configuration of the fusion sources whose types are in range and distinct, whose P source is there when another is, and
whose scales are large enough, is taken over while the car is still.
R176, R179, R185, R200: the commands of FUS_CTL.
A commit row is the commit of that one command by every voting lane (assumption 4, the model's reading). -/
def Obligations.FusionCommits : Prop :=
  (
  ∀ (s : State) (w0 w1 w2 w3 : Word),
    let ws := [w0, w1, w2, w3]
    let ty := fun (w : Word) => bitsOf w.toNat 8 3
    let inp := fun (w : Word) => bitsOf w.toNat 0 4
    s.moving = false → (∀ i, i < 4 → let w := ws.getD i 0; ty w = 0 ∨ ty w ≤ 2 ∧ inp w ≤ 5 ∨ ty w = 3 ∧ inp w ≤ 1 ∨ ty w = 4 ∧ inp w = 0) →
    (∀ t, t < 8 → 1 ≤ t → (ws.map ty).count t ≤ 1) → ((ws.map ty).any (fun t => decide (1 < t)) = true → 1 ∈ ws.map ty) →
    (∀ i, i < 4 → ty (ws.getD i 0) ≠ 0 → 0x100 ≤ s.regN (POS.FUS_SCALE i)) →
    s.commits (exec (.fusSrcConfig w0 w1 w2 w3) s) fun u =>
      (∀ i, i < 4 → u.fld (POS.FUS_SRC_TYPE i) = ty (ws.getD i 0) ∧ u.fld (POS.FUS_SRC_INPUT i) = inp (ws.getD i 0)) ∧
      RegsBut [POS.FUS_SRC 0, POS.FUS_SRC 1, POS.FUS_SRC 2, POS.FUS_SRC 3] s u ∧ SameMem s u
  ) ∧
  (
  ∀ (s : State) (slots : BitVec 4),
    (s.posState = 3 → s.commits (exec .ckpt s) fun u => u.pos.ckptWant = true ∧ RegsBut [POS.FUS_CTL] s u ∧ SameMem s u) ∧
    s.commits (exec (.clrHealth slots) s) (fun u => (∀ i : Fin 4,
      u.health i = if slots.getLsbD i ∧ s.health i ≠ 3 then 0 else s.health i) ∧ SameMem s u) ∧
    s.commits (exec .clrMis s) (fun u => u.flag POS.CKPT_STS_MIS = false ∧ RegsBut [POS.FUS_CTL, POS.CKPT_STS] s u ∧ SameMem s u) ∧
    s.commits (exec .clrSlip s) (fun u => u.flag POS.FUS_STS_SLIP = false ∧ RegsBut [POS.FUS_CTL, POS.FUS_STS] s u ∧ SameMem s u) ∧
    s.commits (exec .reref s) (fun u => u.pos.reref = true ∧ RegsBut [POS.FUS_CTL] s u ∧ SameMem s u)
  )

/-- R189 to R191: edits of the working map in the two survey modes, its save, which is refused where the levels are closer than 0.5 m or a
zone's low end is not below its high end, and its reload.
R192, R193: the steps of a survey, in mode SURVEY; CANCEL ends a run before its map is saved, and no run after. A survey of one landing with
its vane edges around the reference, between the two terminals, builds a working map of one landing; another number of reference marks than
expected is an error. Where two causes of a failed survey hold, the one that is reported is the model's choice (assumption 33).
A commit row is the commit of that one command by every voting lane (assumption 4, the model's reading). -/
def Obligations.MapAndLearnCommits : Prop :=
  (
  ∀ (s : State) (w : Fin 16) (v m : Word) (n : Byte),
    let sel := s.fld POS.MAP_SEL_INDEX
    let rec' := if sel = 255 then 128 else sel
    s.mode = 4 ∨ s.mode = 5 →
    (w.val ≠ 15 → s.commits (exec (.mapWin w v m) s) fun u =>
      u.mapWord rec' w = (s.reg (POS.MAP_WIN w) &&& ~~~m) ||| (v &&& m) ∧ SameMem s u) ∧
    (1 ≤ n.toNat → n.toNat ≤ 128 → n.toNat ≤ s.fld SYS.CAPS_MAX_LANDING + 1 →
      s.commits (exec (.setn n) s) fun u => u.landings = n.toNat ∧ SameMem s u) ∧
    (s.fld POS.MAP_STS_SAVE ≠ 1 → 1 ≤ s.landings → s.landings ≤ s.fld SYS.CAPS_MAX_LANDING + 1 →
      ((∀ i, i < s.landings - 1 → s.mapPos i 0 + 500000 ≤ s.mapPos (i + 1) 0) →
        (∀ i, i < s.landings → s.mapPos i 0x08 < s.mapPos i 0x10 ∧ s.mapPos i 0x18 < s.mapPos i 0x20) →
        s.commits (exec .save s) fun u => u.fld POS.MAP_STS_SAVE = 1 ∧ u.pos.saveImg.isSome = true ∧ SameMem s u) ∧
      ((∃ i, i < s.landings ∧ s.mapPos i 0x10 ≤ s.mapPos i 0x08) →
        s.commits (exec .save s) fun u => u.fld POS.MAP_STS_SAVE = 3 ∧ u.fld POS.MAP_STS_CAUSE = 1 ∧
          u.pos.saveImg = s.pos.saveImg ∧ SameMem s u)) ∧
    (s.flag POS.MAP_STS_VALID = true → s.commits (exec .revert s) fun u =>
      u.pos.wmap = s.bankWords (s.fld POS.MAP_STS_BANK) ∧ u.flag POS.MAP_STS_DIRTY = false ∧ SameMem s u)
  ) ∧
  (
  ∀ (s : State) (b z1 r z2 t : Int), s.mode = 4 →
    let st := s.fld POS.LEARN_STS_STATE
    let edge := fun (role : Nat) (active : Bool) (x : Int) => LearnEdge.mk 0 role active x false false
    s.commits (exec .startUp s) (fun u => u.fld POS.LEARN_STS_STATE = 1 ∧ u.pos.learn = [] ∧ u.pos.learnSaved = false ∧ SameMem s u) ∧
    (st = 3 → s.commits (exec .startDn s) (fun u => u.fld POS.LEARN_STS_STATE = 2 ∧ u.pos.learn = s.pos.learn ∧ SameMem s u) ∧
      (b < r → r < t → z1 ≤ r → r ≤ z2 → s.fld POS.LEARN_CFG_EXPECT = 1 →
        s.pos.learn = [edge 4 true b, edge 2 true z1, edge 1 true r, edge 2 false z2, edge 5 true t] →
        s.commits (exec .build s) fun u => u.fld POS.LEARN_STS_STATE = 4 ∧ u.landings = 1 ∧ u.flag POS.MAP_STS_DIRTY = true ∧
          SameMem s u) ∧
      (s.pos.learn = [] → s.fld POS.LEARN_CFG_EXPECT ≠ 0 →
        s.commits (exec .build s) fun u => u.fld POS.LEARN_STS_STATE = 5 ∧ u.fld POS.LEARN_STS_ERROR = 1 ∧ u.pos.wmap = s.pos.wmap)) ∧
    (st = 1 ∨ st = 2 → s.commits (exec .learnStop s) fun u => u.fld POS.LEARN_STS_STATE = 3 ∧ SameMem s u) ∧
    (st ≠ 0 → s.pos.learnSaved = false → s.commits (exec .cancel s) fun u => u.fld POS.LEARN_STS_STATE = 0 ∧
      (s.posState = 5 ∨ s.posState = 3 → u.posState = 2) ∧ SameMem s u) ∧
    (s.pos.learnSaved = true → s.commits (exec .cancel s) fun u => u.pos = s.pos ∧ RegsBut [POS.LEARN_CTL] s u ∧ SameMem s u)
  )

/-- R134, R202, R207 to R209, R217, R220, R231: the commands of an axis. A commit gives them to the axis, and they take effect at its next tick:
in IDLE, PUSH appends and REPLACE puts in front an ABS, REL or VEL entry of the window with limits that are not 0, FLUSH, STOP and QSTOP
empty the queue, and REV_CFG.ARM arms or disarms the reversal; CLR_FLAGS clears the flags at once.
A commit row is the commit of that one command by every voting lane (assumption 4, the model's reading). -/
def Obligations.AxisCommits : Prop :=
  ∀ (s v : State) (a : Fin 4) (r : MoveReq) (b : Bool),
    let w := s.window a
    let e := (s.effOf a w).1
    let posts := fun (c : Instr) (x : AxAct) => s.commits (exec c s) fun u =>
      (u.ax a).acts = (s.ax a).acts ++ [x] ∧ (u.ax a).queue = (s.ax a).queue ∧ u.axState a = s.axState a ∧ SameMem s u
    let queues := fun (x : AxAct) (q : List MoveReq) =>
      ((v.axAct a x).ax a).queue = q ∧ (v.axAct a x).axState a = 1 ∧ SameMem v (v.axAct a x)
    (s.axSoon a = 1 → a.val ≠ 0 → w.mode ≤ 2 → e.v ≠ 0 → e.a ≠ 0 → e.d ≠ 0 → e.j ≠ 0 → (s.queueSoon a).length < 16 →
      posts (.push a) (.push w) ∧ posts (.replace a) (.replace w)) ∧
    posts (.flush a) .flush ∧ posts (.stop a) .stop ∧ posts (.qstop a) .qstop ∧
    (v.axState a = 1 → (v.ax a).exec = none → queues (.push r) ((v.ax a).queue ++ [r]) ∧ queues (.replace r) (r :: (v.ax a).queue) ∧
      queues .flush [] ∧ queues .stop [] ∧ queues .qstop []) ∧
    (v.axAct a (.arm b)).flag (MOTION.AX_STS_REV_ARMED a) = b ∧
    s.commits (exec (.mqClrFlags a) s) (fun u => bitsOf (u.regN (MOTION.AX_FLAGS a)) 0 7 = 0 ∧
      u.fld (MOTION.AX_FLAGS_FAULT a) = s.fld (MOTION.AX_FLAGS_FAULT a) ∧ SameMem s u) ∧
    (a.val ≠ 0 → s.pos48 (MOTION.REV_TGT_LO a) ≠ 0 → s.regN (MOTION.REV_V a) ≠ 0 → s.regN (MOTION.REV_D a) ≠ 0 →
      posts (.revArm a true) (.arm true)) ∧
    (a.val ≠ 0 → posts (.revArm a false) (.arm false))

/-- R134, R202, R203, R217, R218, R220: the enable and the disable of an axis, the clear of a fault and a homing by a limit. A commit gives them
to the axis; at its next tick an enable takes it from DISABLED to IDLE with DONE_CNT 0 and HOMED 0, a disable leaves DISABLED and FAULT and
takes any other state to STOPPING, the clear of a fault ends FAULT in IDLE, and a homing starts with step 1.
R134, R232 to R234: the gearing enable of axis 3 at rest with a still master, its end, and the arming of the ratio switch: given to the axis
by the commit, they take effect at its next tick.
A commit row is the commit of that one command by every voting lane (assumption 4, the model's reading). -/
def Obligations.AxisStateCommits : Prop :=
  (
  ∀ (s v : State) (a : Fin 4),
    let posts := fun (c : Instr) (x : List AxAct) (p : State → Prop) => s.commits (exec c s) fun u =>
      (u.ax a).acts = (s.ax a).acts ++ x ∧ u.axState a = s.axState a ∧ p u ∧ SameMem s u
    let st := v.axState a
    (4 ≤ s.mode →
      (∀ k ∈ [MOTION.AX_VMAX a, MOTION.AX_AMAX a, MOTION.AX_JMAX a, MOTION.AX_QS_D a, MOTION.AX_QS_J a], s.regN k ≠ 0) →
      posts (.axEn a true) [.enable] fun u => u.flag (MOTION.AX_CFG_EN a) = true) ∧
    posts (.axEn a false) (if s.flag (MOTION.AX_CFG_EN a) then [.disable] else []) (fun u => u.flag (MOTION.AX_CFG_EN a) = false) ∧
    (s.axState a = 7 → (s.ax a).prof.segs = [] → posts (.mqClrFault a) [.clearFault] fun _ => True) ∧
    (st = 0 → let u := v.axAct a .enable
      u.axState a = 1 ∧ u.fld (MOTION.AX_DONE_CNT a) = 0 ∧ u.flag (MOTION.HOME_STS_HOMED a) = false ∧ SameMem v u) ∧
    (st = 0 ∨ st = 7 → v.axAct a .disable = v) ∧
    (st ≠ 0 → st ≠ 7 → let u := v.axAct a .disable
      u.axState a = 4 ∧ (u.ax a).after = 0 ∧ (u.ax a).queue = (v.ax a).queue) ∧
    (st = 7 → let u := v.axAct a .clearFault
      u.axState a = 1 ∧ u.fld (MOTION.AX_FLAGS_FAULT a) = 0 ∧ SameMem v u) ∧
    (v.fld (MOTION.HOME_CFG_METHOD a) ≠ 0 → let u := v.axAct a .home
      u.axState a = 3 ∧ u.fld (MOTION.HOME_STS_STEP a) = 1 ∧ u.fld (MOTION.HOME_STS_IGNORED a) = 0 ∧ SameMem v u) ∧
    (a.val ≠ 0 → s.axSoon a = 1 → s.fld (MOTION.HOME_CFG_METHOD a) = 1 → s.regN (MOTION.HOME_MAXD a) ≠ 0 →
      0 < s.fld (MOTION.HOME_V_V1 a) * 1000 → s.fld (MOTION.HOME_V_V1 a) * 1000 ≤ s.regN (MOTION.AX_VMAX a) →
      0 < s.fld (MOTION.HOME_V_V2 a) * 1000 → s.fld (MOTION.HOME_V_V2 a) * 1000 ≤ s.regN (MOTION.AX_VMAX a) →
      posts (.home a) [.home] fun _ => True)
  ) ∧
  (
  ∀ (s v : State) (arm : Bool),
    let posts := fun (c : Instr) (x : List AxAct) (p : State → Prop) => s.commits (exec c s) fun u =>
      (u.ax 3).acts = (s.ax 3).acts ++ x ∧ u.axState 3 = s.axState 3 ∧ p u ∧ SameMem s u
    (s.axSoon 3 = 1 → 8 ≤ (s.enc (s.fld MOTION.GEAR_CFG_MASTER)).quiet →
      posts (.gearEn true) [.gearOn] fun u => u.flag MOTION.GEAR_CFG_EN = true) ∧
    posts (.gearEn false) (if s.flag MOTION.GEAR_CFG_EN then [.gearOff] else []) (fun u => u.flag MOTION.GEAR_CFG_EN = false) ∧
    posts (.gearSwArm arm) (if arm then [.gearArm] else []) (fun _ => True) ∧
    (v.axState 3 = 1 → let u := v.axAct 3 .gearOn
      u.axState 3 = 5 ∧ u.flag MOTION.GEAR_STS_ENGAGED = true ∧ u.fld MOTION.GEAR_STS_SWITCHES = 0 ∧
        u.mot.m0 = (v.enc (v.fld MOTION.GEAR_CFG_MASTER)).tick ∧ u.mot.base = um ((v.sp 3).1 / 65536) ∧ SameMem v u) ∧
    (v.axState 3 = 5 → let u := v.axAct 3 .gearOff
      u.axState 3 = 4 ∧ u.flag MOTION.GEAR_STS_ENGAGED = false ∧ SameMem v u) ∧
    (v.axAct 3 .gearArm).flag MOTION.GEAR_STS_SW_ARMED = true
  )

/-- R218, R220, R221, R229: a following error beyond its limit on 4 consecutive ticks is FAULT cause 1 with its event; an edge of a limit waits
for the next tick (R202), where one of the expected limit in step 1 of LIMIT2, whose level has held 2 ms, latches its instant and is
captured, and the axis stops; a limit that was active when HOME applied is no edge, and one within 50 ms of the latched edge is counted and
raises CHATTER; a level error that has stood for RELEV_CFG.T ms raises RELEV_REQ once. That no other limit of travel applies to such a
homing where MAXD is 0 is the model's choice (assumption 42).
An event row happens at the instant it carries, and device time does not go back (assumption 5, the model's choice). -/
def Obligations.MotionEvents : Prop :=
  ∀ (s v : State) (a : Fin 4) (c : Fin 48) (lvl : Bool) (stamp t0 t : Nat),
    let w := s.atTime t
    let h := (v.ax a).home
    (s.ferrOver a = true → 4 ≤ (s.ax a).ferr → s.axState a ≠ 0 → s.axState a ≠ 7 → s.axState a ≠ 3 →
      ∃ s1, exec (.ferrFault a t) s = .next (s1.fireAx a 2) ∧ s1.fld (MOTION.AX_FLAGS_FAULT a) = 1 ∧ s1.axState a = 7 ∧ SameMem s s1) ∧
    (s.flag (FIELD.CH_STS_VALID c) = true → Ends (exec (.homingEdge a c lvl stamp t) s) fun u => (u.ax a).home =
        { (s.ax a).home with edges := (s.ax a).home.edges ++ [⟨c.val, lvl, stamp, decide (stamp + 2000000 ≤ w.now), w.now⟩] } ∧
      u.regs = s.regs ∧ SameMem s u) ∧
    (v.axState a = 3 → v.fld (MOTION.HOME_CFG_METHOD a) = 2 → v.fld (MOTION.HOME_STS_STEP a) = 1 → h.edge = none → h.stopping = false →
      v.fld (MOTION.HOME_CFG_EXP_CH a) = c.val → v.flag (MOTION.HOME_CFG_EXP_POL a) = false → v.flag (MOTION.HOME_CFG_OPP_EN a) = false →
      let e : HomeEdge := ⟨c.val, true, stamp, true, t⟩
      let u := v.homeJudge a false e
      (h.latch = none → h.since < stamp → (u.ax a).home.latch = some stamp ∧ (u.ax a).home.edge = some (v.spAt a stamp, false) ∧
        u.regs = v.regs ∧ SameMem v u ∧
        ∃ x : State, u.homeEdge a false = x.homeStop a ∧ x.pos48 (MOTION.HOME_CAP_LO a) = sgn 48 (unsgn 48 (um (v.spAt a stamp / 65536)))) ∧
      (h.latch = none → stamp ≤ h.since → u = v) ∧
      (h.latch = some t0 → t0 < stamp → stamp ≤ t0 + 50000000 → u.flag (MOTION.AX_FLAGS_CHATTER a) = true ∧
        u.fld (MOTION.HOME_STS_IGNORED a) = min (v.fld (MOTION.HOME_STS_IGNORED a) + 1) (2 ^ (MOTION.HOME_STS_IGNORED a).width - 1) ∧
        (u.ax a).home = h ∧ SameMem v u)) ∧
    (s.relevOff = true → w.relevLong = true → s.mot.relDone = false →
      Ends (exec (.relevReq t) s) fun u => u.mot.relDone = true ∧ u.flag (MOTION.AX_FLAGS_RELEV_REQ 0) = true ∧ SameMem s u)

/-- R31, R116, R125 to R128: the verdict of a tide in which three voting lanes present a record, no relief running, at its deadline, GUARD
before the boundary: FULL, MAJ with the odd lane charged, NOMAJ, and DELIV_MIS, which applies nothing. The checks of the agreed groups are
run and their result is held. The lanes are stopped; registers and memories stay until the boundary. That the checks are made on the state
as it will be at the boundary's instant, and that DELIV_MIS keeps the charges of the digests and shows AGREE 0, is the model's choice
(assumptions 39 and 19).
R127, R128: the verdict with a missing record of three, and that of two voting lanes: a lane without a record is MISSING and charged; two
equal records of two lanes are PAIR, and any other case PAIR_MIS, which charges nobody. That NOMAJ shows a lone record in DIFF is the
model's choice (assumption 19).
An event row happens at the instant it carries, and device time does not go back (assumption 5, the model's choice). -/
def Obligations.TideVerdicts : Prop :=
  (
  ∀ (s : State) (t : Nat) (mis bad : Bool),
    let d := fun l : Lane => (s.lane l).digest
    let w := s.atTime t
    let n := fun l : Lane => (s.lane l).stage.closed.length
    w.now = t → w.edgeDue s.gal.edge.guard = true → s.tideRuns = true → s.gal.verdict = none → s.gal.started = true → s.recipient = none →
    (∀ l : Lane, s.laneState l ≤ 2 ∧ (s.lane l).stage.done = true) →
    ∃ u v, exec (.tideDeadline t ⟨mis, bad⟩) s = .next u ∧ u.gal.verdict = some v ∧ u.regs = s.regs ∧ u.mram = s.mram ∧ u.sram = s.sram ∧
      (∀ l : Lane, u.lane l = { s.lane l with run := false, wait := none }) ∧ v.missing = 0 ∧
      (v.outcome = 1 ∨ v.outcome = 2 →
        (v.plan, v.refused) = (({ w with now := s.gal.edge.due } : State).groupsRun (w.roles v) (w.votedGroups v)).2) ∧
      (d 0 = d 1 → d 1 = d 2 → mis = false →
        v.outcome = 1 ∧ v.agree = 7 ∧ v.diff = 0 ∧ v.charged = 0 ∧ v.groups = n 0) ∧
      (d 0 = d 1 → d 1 ≠ d 2 → mis = false →
        v.outcome = 2 ∧ v.agree = 3 ∧ v.diff = 4 ∧ v.charged = 4 ∧ v.groups = n 0) ∧
      (d 0 ≠ d 1 → d 1 = d 2 → mis = false →
        v.outcome = 2 ∧ v.agree = 6 ∧ v.diff = 1 ∧ v.charged = 1 ∧ v.groups = n 1) ∧
      (d 0 ≠ d 1 → d 0 = d 2 → mis = false →
        v.outcome = 2 ∧ v.agree = 5 ∧ v.diff = 2 ∧ v.charged = 2 ∧ v.groups = n 0) ∧
      (d 0 ≠ d 1 → d 1 ≠ d 2 → d 0 ≠ d 2 → v.outcome = 4 ∧ v.agree = 0 ∧ v.diff = 7 ∧ v.charged = 0 ∧ v.groups = 0 ∧ v.plan = []) ∧
      (d 0 = d 1 → mis = true → v.outcome = 5 ∧ v.agree = 0 ∧ v.groups = 0 ∧ v.plan = [])
  ) ∧
  (
  ∀ (s : State) (t : Nat) (mis bad : Bool) (i j k : Lane),
    let d := fun l : Lane => (s.lane l).digest
    let w := s.atTime t
    let n := fun l : Lane => (s.lane l).stage.closed.length
    let own := fun l : Lane => (s.lane l).stage.done
    let ends := fun (outcome agree diff missing charged groups : Nat) => ∃ u v, exec (.tideDeadline t ⟨mis, bad⟩) s = .next u ∧
      u.gal.verdict = some v ∧ u.regs = s.regs ∧ u.mram = s.mram ∧ u.sram = s.sram ∧
      (∀ l : Lane, u.lane l = { s.lane l with
        run := false, wait := none, stage := if own l then (s.lane l).stage else Stage.empty }) ∧
      v.outcome = outcome ∧ v.agree = agree ∧ v.diff = diff ∧ v.missing = missing ∧ v.charged = charged ∧ v.groups = groups
    let a := 2 ^ i.val
    let b := 2 ^ j.val
    let c := 2 ^ k.val
    w.now = t → w.edgeDue s.gal.edge.guard = true → s.tideRuns = true → s.gal.verdict = none → s.gal.started = true → s.recipient = none →
    i < j → k ≠ i → k ≠ j → s.laneState i ≤ 2 → s.laneState j ≤ 2 → own i = true →
    (s.laneState k ≤ 2 → own k = false →
      (own j = true → (d i = d j → mis = false → ends 2 (a + b) 0 c c (n i)) ∧ (d i ≠ d j → ends 4 0 (a + b) c c 0)) ∧
      (own j = false → ends 4 0 a (b + c) (b + c) 0)) ∧
    (s.laneState k = 3 →
      (own j = true → (d i = d j → (mis = false → ends 3 (a + b) 0 0 0 (n i)) ∧ (mis = true → ends 5 0 0 0 0 0)) ∧
        (d i ≠ d j → ends 6 0 (a + b) 0 0 0)) ∧
      (own j = false → ends 6 0 a b 0 0))
  )

/-- R29, R30, R34, R63, R134, R494: a boundary of a part that is up, one tide after the last, takes the snapshot and starts the next tide: the
ended tide's verdict, bell points and folds are gone, the next boundary falls one tide length later, and each lane that runs starts at ENTRY
with its registers and status 0; none runs without a common snapshot (R38). In P3 and P4, before start-up ends and at another instant there
is no boundary. A tick that is due, at no boundary's instant, runs the samples of R155 in their order, with the conversions of its groups
(R274). That one row does all of a boundary, the tick of its instant among it (assumption 14), that nothing is done before start-up ends, in
P3 and in P4 (assumption 15), and the fraction that the snapshot takes (assumption 5) are the model's choices. A wake that meets the
boundary moves the next edge.
An event row happens at the instant it carries, and device time does not go back (assumption 5, the model's choice). -/
def Obligations.BoundaryAndTick : Prop :=
  ∀ (s : State) (t frac : Nat) (snap : SnapDigests) (late : BitVec 3),
    let w := s.atTime t
    let e := ({ w with osc := w.oscAt t frac } : State).ltrLess.1.boundaryEnd
    let run := exec (.boundary t frac snap late) s
    let k : State := { w with tickAt := some w.now }
    let port := s.fld MOTION.HREF_CFG_PORT
    let src := s.regN (NET.MAC_LO (port / 2) (port % 2)) + 2 ^ 32 * (s.regN (NET.MAC_HI (port / 2) (port % 2)) % 65536)
    let m := ((k.posTick.doorTake).motionTick src).hrefSend
    (s.sys.phase ≠ 2 ∨ 2 < s.power ∨ w.now ≠ t ∨ w.edgeDue 0 = false → run = .next w) ∧
    (s.sys.phase = 2 → s.power ≤ 2 → w.now = t → w.edgeDue 0 = true → e.sys.phase = 2 → e.power ≠ 4 → Ends run fun u =>
      (u.sys.woke = false → u.gal.edge.last = u.now ∧ u.gal.edge.due = u.now + u.tideLen) ∧
      u.snap.time = u.now ∧ u.snap.frac = fracOf u.osc ∧ u.gal.verdict = none ∧ u.gal.bells = [] ∧ u.gal.folds = [] ∧
      ∀ l : Lane, (u.lane l).run = true → snap ≠ .none ∧ u.gal.started = true ∧ (u.lane l).pc = u.img.entry ∧ (u.lane l).wait = none ∧
        (u.lane l).sw = 0 ∧ (u.lane l).tp = 0 ∧ (u.lane l).tv = 0 ∧ (u.lane l).stage.opened = none ∧ (u.lane l).stage.closed = [] ∧
        (∀ r, (u.lane l).rg r = 0) ∧ ∀ r, (u.lane l).ra r = 0) ∧
    (w.now = t → w.tickDue = true → s.sys.phase ≠ 2 ∨ 2 < s.power ∨ w.edgeDue 0 = false →
      exec (.tick t) s = .next ((m.adcBack (m.adcAhead.doorTick).ctrlTick).dspTick)) ∧
    (w.now ≠ t ∨ w.tickDue = false ∨ s.sys.phase = 2 ∧ s.power ≤ 2 ∧ w.edgeDue 0 = true → exec (.tick t) s = .next w)

/-- R141, R144, R145: the end of doubt; a characteristic counts on each path it is heard on and ends the run on a path it is not, and the
sixteenth in a row clears that path's fault; after 40 µs without one the first path lost is a path fault with a log record, both lost make
the lane SILENT, and a SILENT lane heard again has both faults. R26, R516: a lane that loses its clock or rail stops and presents nothing; a
lane that its rail has held in reset sends no characteristic, and is held until relief loads it, unless the rail is back before the lane's
ramp of start-up. That a loss on a path ends with the next characteristic on it, and that a SILENT lane comes back with both faults, is the
model's choice (assumption 22).
R146 to R153: the steps of a relief of the lane it serves: RESET with the image's IRAM and an empty engine, SELF_TEST, COPY, SHADOW, and the
return to VOTING after 64 matching tides; a failure, of which there were at most one other in the hour, leaves the lane REMOVED with its
cause; a donor's error removes it and leads to DARK at the next boundary; an abort and its retry. The bulk pass takes 164.864 µs, the copy
commits 4 µs after the boundary, and which of the lines written during the bulk pass are dirty is free (assumptions 2 and 13). A recipient
in COPY that loses its clock or rail is a failed copy (assumption 23, the model's choice).
An event row happens at the instant it carries, and device time does not go back (assumption 5, the model's choice). -/
def Obligations.LaneHealthAndReliefEvents : Prop :=
  (
  ∀ (s : State) (l : Lane) (p : Fin 2) (gal wire : Bool) (t : Nat),
    let n := fun q : Nat => mget zeroNat s.gal.chars (2 * l.val + q)
    let lost := fun (u : State) (q : Nat) => bitB (u.fld (pathFld q)) l
    let silent := fun (u : State) => bitB (u.fld GALLERY.CHAR_STS_SILENT) l
    let got := fun q : Nat => (if q = 0 then gal else wire) && !(s.lane l).railHeld
    let now := (s.atTime t).now
    let heard := fun q : Nat => mget zeroNat s.gal.heard (2 * l.val + q)
    let o := 1 - p.val
    let stops := fun (u : State) (x : LaneSt) =>
      (((((u.setLane l { x with run := false, wait := none }).copyFault l).monStop l).gatesShow l).safeShow).fieldSettle
    (s.laneState l = 1 → s.fld (GALLERY.LANE_STS_DOUBT_LEFT l) = 0 →
      Ends (exec (.doubtExpiry l) s) fun u => u.laneState l = 0 ∧ RegsBut [GALLERY.LANE_STS l] s u ∧ SameMem s u) ∧
    (s.judged l = true → silent s = false →
      Ends (exec (.characteristic l gal wire t) s) (fun u => RegsBut [GALLERY.CHAR_STS] s u ∧ SameMem s u ∧ silent u = false ∧
        ∀ q, q < 2 → mget zeroNat u.gal.chars (2 * l.val + q) = (if got q then min 16 (n q + 1) else 0) ∧
          lost u q = (lost s q && !(got q && decide (15 ≤ n q)))) ∧
      (heard p + 40000 ≤ now →
        (now < heard o + 40000 →
          (lost s p = false → ∃ s1, exec (.characteristicTimeout l p t) s = .next (s1.logHw 0xA l) ∧
            lost s1 p = true ∧ lost s1 o = lost s o ∧ mget zeroNat s1.gal.chars (2 * l.val + p) = 0 ∧
            RegsBut [GALLERY.CHAR_STS] s s1 ∧ SameMem s s1) ∧
          (lost s p = true → Ends (exec (.characteristicTimeout l p t) s) fun u =>
            mget zeroNat u.gal.chars (2 * l.val + p) = 0 ∧ u.regs = s.regs ∧ SameMem s u)) ∧
        (heard o + 40000 ≤ now → Ends (exec (.characteristicTimeout l p t) s) fun u => silent u = true ∧
          lost u 0 = false ∧ lost u 1 = false ∧ bitB u.gal.silent l = true ∧ RegsBut [GALLERY.CHAR_STS] s u ∧ SameMem s u))) ∧
    (s.judged l = true → silent s = true → n p < 15 → (s.lane l).railHeld = false →
      Ends (exec (.characteristic l (p == 0) (p == 1) t) s) fun u => silent u = false ∧ lost u 0 = true ∧ lost u 1 = true ∧
        RegsBut [GALLERY.CHAR_STS] s u ∧ SameMem s u) ∧
    (16 ≤ n p → Ends (exec (.pathFaultClear l p) s) fun u => lost u p = false ∧ RegsBut [GALLERY.CHAR_STS] s u ∧ SameMem s u) ∧
    exec (.laneClockLoss l) s = .next (stops s { s.lane l with clkLost := true }) ∧
    exec (.laneRailFall l t) s = .next (stops (s.atTime t) { s.lane l with railLost := true, railHeld := true }) ∧
    exec (.laneRailReturn l t) s = .next ((s.atTime t).setLane l { s.lane l with
      railLost := false, railHeld := (s.lane l).railHeld && !(s.atTime t).beforeRamp l })
  ) ∧
  (
  ∀ (s : State) (l : Lane) (t : Nat),
    let r := s.gal.relief
    let fails := fun (c : Instr) (cause : Nat) => (s.atTime t).failsOf l < 2 → Ends (exec c s) fun u => u.laneState l = 3 ∧
      u.fld (GALLERY.LANE_STS_LAST_CAUSE l) = cause ∧ (u.lane l).run = false ∧ u.recipient = none ∧ u.mram = s.mram ∧ u.sram = s.sram
    let donor := fun (c : Instr) => Ends (exec c s) fun u => u.laneState l = 3 ∧ u.recipient = none ∧
      u.sys.darks = s.sys.darks ++ [5] ∧ u.mram = s.mram ∧ u.sram = s.sram
    let now := (s.atTime t).now
    (s.recipient = some l.val →
      (s.laneState l = 4 → (s.lane l).railLost = false → s.flag HEALTH.ST_STS_IMG_BAD = false → s.img.valid = true →
        Ends (exec (.reliefResetDone true t) s) (fun u => u.laneState l = 5 ∧ (u.lane l).dram = [] ∧ (u.lane l).clkLost = false ∧
          (u.lane l).railHeld = false ∧
          (u.lane l).eng = [] ∧ u.mram = s.mram ∧ u.sram = s.sram ∧ (∀ k : Lane, k ≠ l → u.lane k = s.lane k) ∧
          (u.lane l).iram = s.imgRam s.img.bank (s.hdr s.img.bank 0x14 4) (s.hdr s.img.bank 0x18 4)) ∧
        fails (.reliefResetDone false t) 8) ∧
      (s.laneState l = 5 → Ends (exec (.reliefSelftestDone true t) s) (fun u => u.laneState l = 6 ∧ u.gal.relief = ReliefSt.idle ∧
          RegsBut [GALLERY.LANE_STS l] s u ∧ SameMem s u) ∧ fails (.reliefSelftestDone false t) 7) ∧
      (s.laneState l = 6 →
        (r.phase = 1 →
          (r.at' + 164864 ≤ now → Ends (exec (.bulkPassComplete true t) s) fun u => u.gal.relief = { r with phase := 2 } ∧
            (∀ k : Lane, (u.lane k).dirty ⊆ (s.lane k).dirty ∧ (u.lane k).engDirty ⊆ (s.lane k).engDirty ∧
              (u.lane k).dram = (s.lane k).dram) ∧ u.regs = s.regs ∧ u.mram = s.mram ∧ u.sram = s.sram) ∧
          donor (.bulkPassComplete false t)) ∧
        (r.phase = 5 → (s.gal.edge.last + 4000 ≤ now →
            Ends (exec (.copyCommit 0 t) s) fun u => u.laneState l = 7 ∧ u.fld (GALLERY.LANE_STS_SHADOW_CNT l) = 0 ∧
              (s.gal.started = true → (u.lane l).run = true ∧ (u.lane l).pc = s.img.entry) ∧ (u.lane l).dram = (s.lane l).dram ∧
              RegsBut [GALLERY.LANE_STS l] s u) ∧
          fails (.copyCommit 1 t) 5 ∧ donor (.copyCommit 2 t)))) ∧
    (r.phase = 2 → 16 ≤ r.tides → Ends (exec (.copyAbort t) s) fun u => u.gal.relief.phase = 4 ∧ u.gal.relief.at' = max s.now t ∧
      u.fld GALLERY.RELIEF_STS_PASS = 0 ∧ RegsBut [GALLERY.RELIEF_STS] s u ∧ SameMem s u) ∧
    (r.phase = 4 → r.at' + 1000000000 ≤ t → Ends (exec (.reliefRetry t) s) fun u => u.gal.relief = ReliefSt.idle ∧
      u.fld GALLERY.RELIEF_STS_DONOR = 3 ∧ RegsBut [GALLERY.RELIEF_STS] s u ∧ SameMem s u) ∧
    (s.laneState l = 7 → 64 ≤ s.fld (GALLERY.LANE_STS_SHADOW_CNT l) →
      ∃ s1, exec (.shadowReturn l) s = .next s1.voteShow.fieldSettle ∧ s1.laneState l = 0 ∧ s1.recipient = none ∧
        RegsBut [GALLERY.LANE_STS l, GALLERY.RELIEF_STS] s s1 ∧ SameMem s s1)
  )

/-- R38, R40, R57, R59, R146: the commits to GALLERY and RINGS, and a waiting BLOCK producer that goes on: its oldest entry fills the slot of
the head, and no other byte of shared SRAM changes.
What follows a write set that left `s1` and refused nothing, said once for every commit: the sticky flags that happenings of this instant
set (R137), POS, the switch gates with their ledger, READY and HIRQ. It keeps the lanes, MRAM, the straps, the queue, device time and the
snapshot, the bytes of shared SRAM outside enabled rings, and every register outside GALLERY, RINGS, POS, FIELD, LEDGER, RANGE, HEALTH and
HOSTIF but for such sticky flags.
A commit row is the commit of that one command by every voting lane (assumption 4, the model's reading). -/
def Obligations.GalleryAndRingCommits : Prop :=
  (
  ∀ (s : State) (l : Lane) (k : Fin 8) (v m : Word) (r : Fin 64) (en : Bool) (e : List Byte) (es : List (List Byte)) (t : Nat),
    s.commits (exec .snapMis s) (fun u => u.flag GALLERY.TIDE_STS_SNAP_MIS = false ∧
      RegsBut [GALLERY.TIDE_CLR, GALLERY.TIDE_STS] s u ∧ SameMem s u) ∧
    (s.laneState l = 3 ∨ s.laneState l = 8 →
      (s.recipient = none → s.flag HEALTH.ST_STS_IMG_BAD = false → s.commits (exec (.reliefReq l) s) fun u =>
        u.laneState l = 4 ∧ u.recipient = some l.val ∧ SameMem s u) ∧
      (s.recipient ≠ none → s.commits (exec (.reliefReq l) s) fun u => bitB u.gal.relPend l = true ∧ SameMem s u)) ∧
    s.commits (exec (.evtEn k v m) s) (fun u => u.reg (GALLERY.EVT_EN k) = (s.reg (GALLERY.EVT_EN k) &&& ~~~m) ||| (v &&& m) ∧
      RegsBut [GALLERY.EVT_EN k] s u ∧ SameMem s u) ∧
    (s.fld (RINGS.RING_CFG_POLICY r) ≠ 2 ∨ s.flag (RINGS.RING_CFG_CANWAIT r) = true →
      s.fld (RINGS.RING_BASE_BASE r) % (s.ringSize r * s.ringEnt r) = 0 → s.fld (RINGS.RING_WMARK_WMARK r) ≤ s.ringSize r →
      s.commits (exec (.ringEn r en) s) fun u => u.flag (RINGS.RING_CFG_EN r) = en ∧
        (en = true → s.flag (RINGS.RING_CFG_EN r) = false → u.ringHead r = 0 ∧ u.ringTail r = 0 ∧
          u.flag (RINGS.RING_STS_EMPTY r) = true ∧ u.flag (RINGS.RING_STS_FULL r) = false ∧
          u.flag (RINGS.RING_STS_WAITING r) = false) ∧
        RegsBut [RINGS.RING_CFG r, RINGS.RING_HEAD r, RINGS.RING_TAIL r, RINGS.RING_STS r] s u ∧ SameMem s u) ∧
    s.commits (exec (.ringClrDrops r) s) (fun u => u.regN (RINGS.RING_DROPS r) = 0 ∧
      RegsBut [RINGS.RING_CLR r, RINGS.RING_DROPS r] s u ∧ SameMem s u) ∧
    s.commits (exec (.ringClrOvf r) s) (fun u => u.flag (RINGS.RING_STS_OVF r) = false ∧
      RegsBut [RINGS.RING_CLR r, RINGS.RING_STS r] s u ∧ SameMem s u) ∧
    (s.flag (RINGS.RING_STS_WAITING r) = true → s.ringCnt r < s.ringSize r → mget (fun _ => []) s.ringWait r = e :: es →
      Ends (exec (.ringProducerResume r t) s) fun u => u.ringHead r = (s.ringHead r + 1) % 65536 ∧
        u.flag (RINGS.RING_STS_WAITING r) = !es.isEmpty ∧ mget (fun _ => []) u.ringWait r = es ∧ u.mram = s.mram ∧
        ∀ a, rdByte u.sram a = if s.ringSlot r (s.ringHead r) ≤ a ∧ a < s.ringSlot r (s.ringHead r) + s.ringEnt r
          then (padTo (s.ringEnt r) e).getD (a - s.ringSlot r (s.ringHead r)) 0 else rdByte s.sram a)
  ) ∧
  (
  ∀ (s s1 : State) (key at' : Nat),
    let t := s.settled s1
    let sticky := match rowAt (keyAddr key) with
      | none => 0
      | some r => BitVec.ofNat 32 r.rs
    t.mram = s1.mram ∧ t.laneA = s1.laneA ∧ t.laneB = s1.laneB ∧ t.laneC = s1.laneC ∧ t.img = s1.img ∧ t.straps = s1.straps ∧
    t.pending = s1.pending ∧ t.now = s1.now ∧ t.snap = s1.snap ∧ t.mot = s1.mot ∧ t.door = s1.door ∧ t.net = s1.net ∧
    (s1.inRing at' = false → rdByte t.sram at' = rdByte s1.sram at') ∧
    (keyAddr key / 65536 ∉ [0x4001, 0x4006, 0x4007, 0x400D, 0x400E, 0x400F, 0x4010, 0x4012] → t.reg key = (s.stickyKeep s1).reg key) ∧
    ((s.stickyKeep s1).reg key &&& ~~~sticky = s1.reg key &&& ~~~sticky) ∧ ((s.stickyKeep s1).reg key &&& s1.reg key = s1.reg key) ∧
    (mwf s.rst s.regs = true → s.regs0 = s.regs → s.again = [] → (s.stickyKeep s1).reg key = s1.reg key)
  )

/-- R240 to R261: the commits to the control engines of three voting lanes, which take effect at the slot's next run or, for cells and for a
slot that does not run, at the next tick; and at OUT_PHASE after the tick of a run the vote on its output, to the destination that the tick
fixed: when all three hold one value it goes there, here to DAC1, and each lane's count of mismatches is cleared; when all differ it goes
nowhere and each lane counts a mismatch. When two of three agree their value goes there, the odd lane has MINOR, and no lane counts; with
two voting lanes both have to agree. A slot without a destination has no vote, and such a run is no mismatched one.
A commit row is the commit of that one command by every voting lane (assumption 4, the model's reading).
An event row happens at the instant it carries, and device time does not go back (assumption 5, the model's choice). -/
def Obligations.ControlSlots : Prop :=
  ∀ (s k : State) (n : Fin 12) (l : Lane) (x y z : Lane) (i : Fin 1024) (v : Word) (en : Bool) (t tk ph : Nat),
    let out := fun l : Lane => s.reg (CTRL.SL_OUT l n)
    let waits := fun l : Lane => (s.eng l n).due = true ∧ (s.eng l n).at' = tk ∧ (s.eng l n).dst = 0x20 ∧ (s.eng l n).phase = ph
    let due := fun (dst : Nat) => ∀ l : Lane, (s.eng l n).due = true ∧ (s.eng l n).at' = tk ∧ (s.eng l n).dst = dst ∧ (s.eng l n).phase = ph
    -- the tick takes what waits for it; a run starts anew
    let q := k.slotTake l n
    (((k.eng l n).clrCells = true → (k.eng l n).pre = [] → q.reg (CTRL.CELL l n i) = 0) ∧
      ((k.eng l n).pre = [(i.val, v)] → q.reg (CTRL.CELL l n i) = v) ∧
      (k.flag (CTRL.SL_CFG_EN l n) = false → (k.eng l n).clrF = true → q.slotState l n = 0) ∧
      (k.flag (CTRL.SL_CFG_EN l n) = false → (k.eng l n).live = true →
        q.reg (CTRL.SL_OUT l n) = k.reg (CTRL.OUT_SAFE l n) ∧ (q.eng l n).live = false ∧ (q.eng l n).due = true) ∧
      ((k.eng l n).runs0 = true → (k.runBegin l n).regN (CTRL.SL_RUNS l n) = 1)) ∧
    (s.voters = [x.val, y.val] → x ≠ y → waits x → waits y → (s.atTime t).now = tk + 250 * ph →
      (out x = v → out y = v → Ends (exec (.outPhase n t) s) fun u =>
        u.mot = { s.mot with dac1 := (v.toInt / 65536 + 32768).toNat } ∧ ∀ l : Lane, (u.eng l n).due = false ∧ (u.eng l n).mis = 0) ∧
      (out x ≠ out y → Ends (exec (.outPhase n t) s) fun u => u.mot = s.mot ∧ u.door = s.door ∧ ∀ l : Lane, (u.eng l n).due = false ∧
        (u.eng l n).mis = (s.eng l n).mis + 1 ∧ u.flag (CTRL.SL_STS_MIS l n) = true)) ∧
    let keys := fun (f : Nat → List Nat) => [0, 1, 2].flatMap f
    s.voters = [0, 1, 2] →
    ((∀ l : Lane, s.flag (CTRL.SL_CFG_ILIM_EN l n) = false ∧ s.flag (CTRL.SL_CFG_RAMP_EN l n) = false ∧
        s.flag (CTRL.SL_CFG_RC_EN l n) = false ∧ s.regI (CTRL.OUT_LO l n) ≤ s.regI (CTRL.OUT_HI l n) ∧ s.fld (CTRL.SL_DST_DST l n) = 0 ∧
        (∀ k : Fin 12, k ≠ n → s.flag (CTRL.SL_CFG_EN l k) = false) ∧
        s.slotCost l n * 10000 + 350 * 49104 ≤ s.fld (CTRL.SL_CFG_OUT_PHASE l n) * 25 * 49104) →
      s.commits (exec (.slEn n en) s) fun u => (∀ l : Lane, u.flag (CTRL.SL_CFG_EN l n) = en ∧
          (en = true → s.flag (CTRL.SL_CFG_EN l n) = false → (u.eng l n).start = true ∧ (u.eng l n).runs0 = true)) ∧
        RegsBut (keys fun l => [CTRL.SL_CFG l n, CTRL.ENG_LOAD l]) s u ∧ u.mram = s.mram) ∧
    s.commits (exec (.clrI n) s) (fun u => (∀ l : Lane, (u.eng l n).clrI = true) ∧ RegsBut (keys fun l => [CTRL.SL_CMD l n]) s u) ∧
    s.commits (exec (.clrCells n) s) (fun u => (∀ l : Lane, (u.eng l n).clrCells = true ∧ (u.eng l n).pre = []) ∧
      RegsBut (keys fun l => [CTRL.SL_CMD l n]) s u) ∧
    s.commits (exec (.slClrFlags n) s) (fun u => (∀ l : Lane, u.flag (CTRL.SL_STS_LIMITED l n) = false ∧
        u.flag (CTRL.SL_STS_WRAP l n) = false ∧ u.flag (CTRL.SL_STS_ILIMIT l n) = false ∧ u.flag (CTRL.SL_STS_MIS l n) = false ∧
        u.flag (CTRL.SL_STS_MINOR l n) = false ∧ u.fld (CTRL.SL_STS_STATE l n) = s.fld (CTRL.SL_STS_STATE l n)) ∧
      RegsBut (keys fun l => [CTRL.SL_CMD l n, CTRL.SL_STS l n]) s u) ∧
    ((∀ l : Lane, s.flag (CTRL.SL_CFG_EN l n) = true) → s.commits (exec (.restart n) s) fun u =>
      (∀ l : Lane, (u.eng l n).start = true) ∧ RegsBut (keys fun l => [CTRL.SL_CMD l n]) s u) ∧
    ((∀ l : Lane, s.slotState l n = 3 ∧ s.regN (CTRL.SL_SRC l n) = 0 ∧ s.flag (CTRL.SL_CFG_RC_EN l n) = false) →
      s.commits (exec (.slClrFault n) s) fun u => (∀ l : Lane, (u.eng l n).clrF = true) ∧
        RegsBut (keys fun l => [CTRL.SL_CMD l n]) s u) ∧
    ((∀ l : Lane, i.val < s.rcN l n) → s.commits (exec (.cellPreload n i v) s) fun u =>
      (∀ l : Lane, (u.eng l n).pre = ((s.eng l n).pre.filter fun p => p.1 != i.val) ++ [(i.val, v)] ∧
        u.reg (CTRL.CELL l n i) = s.reg (CTRL.CELL l n i)) ∧
      RegsBut (keys fun l => [CTRL.CELL l n i]) s u) ∧
    ((s.atTime t).now = tk + 250 * ph → due 0x20 → (∀ l : Lane, s.reg (CTRL.SL_OUT l n) = v) →
      Ends (exec (.outPhase n t) s) fun u => u.mot = { s.mot with dac1 := (v.toInt / 65536 + 32768).toNat } ∧ u.regs = s.regs ∧
      u.door = s.door ∧
        ∀ l : Lane, (u.eng l n).due = false ∧ (u.eng l n).mis = 0) ∧
    ((s.atTime t).now = tk + 250 * ph → due 0x20 → x ≠ y → z ≠ x → z ≠ y → out x = v → out y = v → out z ≠ v →
      Ends (exec (.outPhase n t) s) fun u => u.mot = { s.mot with dac1 := (v.toInt / 65536 + 32768).toNat } ∧ u.door = s.door ∧
        u.flag (CTRL.SL_STS_MINOR z n) = true ∧ u.flag (CTRL.SL_STS_MINOR x n) = s.flag (CTRL.SL_STS_MINOR x n) ∧
        ∀ l : Lane, (u.eng l n).due = false ∧ (u.eng l n).mis = 0) ∧
    ((s.atTime t).now = tk + 250 * ph → due 0x20 → (∀ l m : Lane, l ≠ m → s.reg (CTRL.SL_OUT l n) ≠ s.reg (CTRL.SL_OUT m n)) →
      Ends (exec (.outPhase n t) s) fun u => u.mot = s.mot ∧ u.door = s.door ∧ ∀ l : Lane, (u.eng l n).due = false ∧
        (u.eng l n).mis = (s.eng l n).mis + 1 ∧ u.flag (CTRL.SL_STS_MIS l n) = true) ∧
    ((s.atTime t).now = tk + 250 * ph → due 0 →
      Ends (exec (.outPhase n t) s) fun u => u.regs = s.regs ∧ u.door = s.door ∧ u.mot = s.mot ∧
        ∀ l : Lane, (u.eng l n).due = false ∧ (u.eng l n).mis = 0)

/-- R266 to R273, R290 to R292, R299: trips by the input, the conversions of a group at its instant, all four of it, and the saturation of a
channel, an update point of the counter, an obstruction declared once its test has held its time, a stall that has held STALL_T, a keeper
slot's write and the end of a profile operation. An armed axis that closes is told to reverse instead of being quick-stopped. The model's
choices: the counter and the drive at an update point (assumption 60), that a trip keeps its first cause (assumption 61), the stall of
homing and when DONE shows (assumption 63), and the pin's level before a row has driven it (assumption 36).
R134, R267, R270, R273, R283, R289 to R292, R297, R301, R302 and the DOOR register tables: the enable of a drive that is neither tripped nor
synchronised, the commands of DOOR_CMD, a friction bin, ADC_CLR, and the start of a profile operation. The drive, a table swap, the friction
tables and a profile operation follow at the next tick; a save of cells takes the value that two engines hold of each, and fails where no
two agree. The conditions of an enable where the tables leave them open are the model's choice (assumption 63).
A commit row is the commit of that one command by every voting lane (assumption 4, the model's reading).
An event row happens at the instant it carries, and device time does not go back (assumption 5, the model's choice). -/
def Obligations.DoorResults : Prop :=
  (
  ∀ (s : State) (d : Fin 2) (g : Fin 4) (n : Fin 16) (c : BitVec 16 × BitVec 16 × BitVec 16 × BitVec 16) (cause : Fin 6) (peak ok : Bool)
    (t : Nat),
    let code := fun i : Nat => ([c.1, c.2.1, c.2.2.1, c.2.2.2].getD i 0).toNat
    let adc := fun (u : State) (k : Nat) => mget (fun _ => (⟨0, 0, false⟩ : AdcSt)) u.door.adc k
    let on := fun k : Nat => bitB (s.fld DOOR.ADC_CFG_EN) k
    let bad := fun (u : State) (k : Nat) => bitB (u.fld DOOR.ADC_STS_SAT) k && bitB (u.fld DOOR.ADC_STS_INVALID) k
    let now := s.atTime t
    (s.flag (DOOR.DRV_CFG_TRIP_EN d) = true → s.flag (DOOR.DOOR_STS_TRIP d) = false →
      ∃ s1, exec (.tripInput d t) s = .next ((s1.fire 186).axTrip (d.val + 1)) ∧ s1.flag (DOOR.DOOR_STS_TRIP_NOW d) = true ∧
        s1.flag (DOOR.DOOR_STS_TRIP d) = true ∧ s1.flag (DOOR.DOOR_STS_RUNNING d) = false ∧ s1.fld (DOOR.DOOR_STS_TRIP_CAUSE d) = 1 ∧
        (s1.dr d).pin = some (s.flag (DOOR.DRV_CFG_TRIP_POL d)) ∧ RegsBut [DOOR.DOOR_STS d] s s1 ∧ SameMem s s1) ∧
    Ends (exec (.tripInputRelease d t) s) (fun u => u.flag (DOOR.DOOR_STS_TRIP_NOW d) = false ∧
      (u.dr d).pin = some (!s.flag (DOOR.DRV_CFG_TRIP_POL d)) ∧
      u.flag (DOOR.DOOR_STS_TRIP d) = s.flag (DOOR.DOOR_STS_TRIP d) ∧ RegsBut [DOOR.DOOR_STS d] s u ∧ SameMem s u) ∧
    (s.regN DOOR.ADC_LIMACT = 0 → now.now = t → 500 * g.val ≤ t → (t - 500 * g.val) % 31250 = 0 →
      (∃ i, i < 4 ∧ on (4 * g.val + i) = true) →
      Ends (exec (.adcGroupSample g c.1 c.2.1 c.2.2.1 c.2.2.2 t) s) fun u =>
        (∀ i, i < 4 → let k := 4 * g.val + i
          u.regN (DOOR.ADC_RAW k) = code i ∧
          ((adc u k).sat, (adc u k).ok) =
            (if code i = 0 ∨ code i = 65535 then (min ((adc s k).sat + 1) 4, 0) else (0, min ((adc s k).ok + 1) 4)) ∧
          (3 ≤ (adc s k).sat → code i = 0 ∨ code i = 65535 → bad u k = true ∧ (adc u k).bad = true) ∧
          (3 ≤ (adc s k).ok → code i ≠ 0 → code i ≠ 65535 →
            (adc u k).bad = false ∧ bitB (u.fld DOOR.ADC_STS_INVALID) k = !on k)) ∧
        RegsBut (DOOR.ADC_STS :: [0, 1, 2, 3].map fun i => DOOR.ADC_RAW (4 * g.val + i)) s u ∧ SameMem s u) ∧
    ((adc s n).sat = 4 →
      Ends (exec (.adcSaturation n t) s) fun u => bad u n = true ∧ RegsBut [DOOR.ADC_STS] s u ∧ SameMem s u) ∧
    ((s.dr d).closing = false → now.now = t → now.updateDue d peak = true →
      let was := { s.dr d with duWas := if s.flag (DOOR.DOOR_STS_RUNNING d) then some ((s.dr d).du, (s.dr d).dv, (s.dr d).dw) else none }
      (s.drvRuns d = false → Ends (exec (.updatePoint d peak t) s) fun u => u.flag (DOOR.DOOR_STS_RUNNING d) = false ∧ u.dr d = was ∧
        (∀ e : Fin 2, e ≠ d → u.dr e = s.dr e) ∧ RegsBut [DOOR.DOOR_STS d] s u ∧ SameMem s u) ∧
      (s.drvRuns d = true → s.drvMode d = 1 → now.loadDue d = true → now.engIn d 0 = 0 → now.engIn d 1 = 0 →
        Ends (exec (.updatePoint d peak t) s) fun u => u.flag (DOOR.DOOR_STS_RUNNING d) = true ∧ (u.dr d).du = q31 / 2 ∧
          (u.dr d).dv = q31 / 2 ∧ (u.dr d).dw = q31 / 2 ∧ RegsBut [DOOR.DOOR_STS d] s u ∧ SameMem s u) ∧
      (s.drvRuns d = true → now.loadDue d = false → Ends (exec (.updatePoint d peak t) s) fun u => RegsBut [] s u ∧ u.dr d = was ∧
        SameMem s u)) ∧
    (now.updateDue d peak = false → exec (.updatePoint d peak t) s = .next now) ∧
    (1 ≤ cause.val → cause.val ≤ 4 → (cause.val = 1 → s.fld (DOOR.OBS_CFG_OBS_T d) ≤ (s.dr d).cForce) →
      (cause.val = 2 → s.fld (DOOR.OBS_CFG_OBS_T d) ≤ (s.dr d).cLoad) →
      now.obsTest d (decide (s.fld (DOOR.LA_CFG_STALL_T d) ≤ (s.dr d).cStall)) cause = true →
      (s.dr d).declared ≠ some (s.ax (d.val + 1)).moves → now.tickAt = some now.now →
      let rev := decide (s.doorSpeed d < 0) && s.flag (MOTION.AX_STS_REV_ARMED (d.val + 1))
      ∃ s1, (rev = false → exec (.declaration d cause t) s = .next ((s1.fire (184 + d.val)).axPost (d.val + 1) .qstop)) ∧
        (rev = true → exec (.declaration d cause t) s = .next ((s1.fire (184 + d.val)).onAx (d.val + 1) fun x => { x with revPend := true })) ∧
        s1.fld (DOOR.DOOR_STS_OBS_CAUSE d) = cause.val ∧ s1.flag (DOOR.DOOR_FLAGS_OBS d) = true ∧
        s1.reg (DOOR.OBS_CAP_F d) = s.reg (DOOR.Q d 4) ∧ (s1.dr d).declared = some (s.ax (d.val + 1)).moves ∧
        RegsBut [DOOR.DOOR_STS d, DOOR.DOOR_FLAGS d, DOOR.OBS_CAP_LO d, DOOR.OBS_CAP_LO d + 4, DOOR.OBS_CAP_F d] s s1 ∧ SameMem s s1) ∧
    (now.tickAt ≠ some now.now → exec (.declaration d cause t) s = .next now) ∧
    (now.stallNow d (s.dr d).fbOld = true → s.fld (DOOR.LA_CFG_STALL_T d) ≤ (s.dr d).cStall → (s.dr d).stalled = false →
      s.axState (d.val + 1) ≠ 3 →
      ∃ s1, exec (.stall d t) s = .next (((s1.fire 187).unsureRise d).onDr d fun x => { x with stalled := true }) ∧
      s1.flag (DOOR.DOOR_FLAGS_STALL d) = true ∧ RegsBut [DOOR.DOOR_FLAGS d] s s1 ∧ SameMem s s1) ∧
    (∀ w ws, (s.dr d).writes = w :: ws → Ends (exec (.doorSlotWriteComplete d t) s) fun u => (u.dr d).slot = w ∧
      (u.dr d).writes = ws ∧ u.regs = s.regs ∧ SameMem s u) ∧
    (∀ p, s.door.prof = some p → p.rec' < 32 → p.load = false →
      ∃ s1, exec (.profileComplete ok t) s = .next (s1.fire 191) ∧ s1.door.prof = none ∧
        s1.fld DOOR.PROF_STS_STATE = (if ok then 2 else 3) ∧ s1.fld DOOR.PROF_STS_CAUSE = (if ok then 0 else 4) ∧
        RegsBut [DOOR.PROF_STS] s s1 ∧ (ok = false → s1.mram = s.mram) ∧
        ∀ a, a < profAt p.rec' 0 ∨ profAt p.rec' 0 + 0x8000 ≤ a → rdByte s1.mram a = rdByte s.mram a)
  ) ∧
  (
  ∀ (s k : State) (d r : Fin 2) (i : Fin 256) (v : Word) (tgt : Fin 16) (rec' : Fin 32) (kind : Fin 4),
    -- what the tick takes
    let q := k.doorTake1 d
    let b := 256 * r.val + i.val
    (((k.dr d).enOn = false → k.flag (DOOR.DRV_CFG_EN d) = true →
        (q.dr d).enOn = true ∧ (q.dr d).closing = false ∧ (q.dr d).pwmAt = some k.now ∧
        (k.fld (DOOR.DRV_CFG_MODE d) = 2 → q.regI (DOOR.MS_CNT d) = sgn 32 (unsgn 32 (((k.dr d).slot.read).elim 0 (·.1))))) ∧
      ((k.dr d).enOn = true → k.flag (DOOR.DRV_CFG_EN d) = false → (q.dr d).enOn = false ∧ (q.dr d).closing = true) ∧
      ((k.dr d).swap = true → (q.dr d).swap = false ∧ (q.dr d).tblOld = (k.dr d).tbl ∧ (q.dr d).tblAt = k.now + 3500 ∧
        ∀ j, j < 1024 → mget stepSine (q.dr d).tbl j = k.regN (DOOR.STEP_TBL d j)) ∧
      ((k.dr d).frClr = true → (k.dr d).frPre = [] → q.reg (DOOR.FRIC d r i) = 0) ∧
      ((k.dr d).frPre = [(b, v)] → q.reg (DOOR.FRIC d r i) = v ∧ b ∈ (q.dr d).pre)) ∧
    let cmd := fun (c : Instr) (k : Nat) (p : State → Prop) =>
      s.commits (exec c s) fun u => p u ∧ RegsBut [DOOR.DOOR_CMD d, k] s u ∧ SameMem s u
    (s.flag (DOOR.DRV_CFG_SYNC d) = false → s.flag (DOOR.OBS_CFG_LA_EN d) = false →
      (s.dr d).pin ≠ some (s.flag (DOOR.DRV_CFG_TRIP_POL d)) →
      (s.fld (DOOR.ELEC1_CUR_FS d) ≠ 0 → s.fld (DOOR.ELEC1_VBUS_FS d) ≠ 0 →
        s.commits (exec (.drvEn d true) s) fun u => u.flag (DOOR.DRV_CFG_EN d) = true ∧ u.door = s.door ∧ u.mot = s.mot ∧
          RegsBut [DOOR.DRV_CFG d, DOOR.DOOR_STS d] s u ∧ SameMem s u) ∧
      s.commits (exec (.drvEn d false) s) (fun u => u.flag (DOOR.DRV_CFG_EN d) = false ∧ u.door = s.door ∧
        (u.ax (d.val + 1)).acts = (s.ax (d.val + 1)).acts ++ (if s.flag (DOOR.DRV_CFG_EN d) then [.qstop] else []) ∧
        RegsBut [DOOR.DRV_CFG d, DOOR.DOOR_STS d] s u ∧ SameMem s u)) ∧
    ((∀ j, j < 1023 → s.regN (DOOR.STEP_TBL d j) ≤ s.regN (DOOR.STEP_TBL d (j + 1))) →
      s.commits (exec (.tblSwap d) s) fun u => (u.dr d).swap = true ∧ RegsBut [DOOR.DOOR_CMD d] s u ∧ SameMem s u) ∧
    s.commits (exec (.frClr d) s) (fun u => (u.dr d).frClr = true ∧ (u.dr d).frPre = [] ∧ RegsBut [DOOR.DOOR_CMD d] s u ∧ SameMem s u) ∧
    cmd (.doorClrFlags d) (DOOR.DOOR_FLAGS d) (fun u => bitsOf (u.regN (DOOR.DOOR_FLAGS d)) 0 6 = 0) ∧
    cmd (.clrObs d) (DOOR.DOOR_STS d) (fun u => u.fld (DOOR.DOOR_STS_OBS_CAUSE d) = 0) ∧
    (s.flag (DOOR.DOOR_STS_TRIP_NOW d) = false → s.fld (DOOR.DOOR_STS_TRIP_CAUSE d) ≠ 2 →
      cmd (.clrTrip d) (DOOR.DOOR_STS d) fun u => u.flag (DOOR.DOOR_STS_TRIP d) = false) ∧
    (s.flag (DOOR.DOOR_STS_TRIP_NOW d) = true → s.refuses (exec (.clrTrip d) s) 8 (DOOR.DOOR_CMD d)) ∧
    s.commits (exec (.fricPreload d r i v) s) (fun u => u.reg (DOOR.FRIC d r i) = s.reg (DOOR.FRIC d r i) ∧
      (u.dr d).frPre = ((s.dr d).frPre.filter fun p => p.1 != b) ++ [(b, v)] ∧ RegsBut [DOOR.FRIC d r i] s u ∧ SameMem s u) ∧
    s.commits (exec .adcClrSat s) (fun u => u.fld DOOR.ADC_STS_SAT = 0 ∧ RegsBut [DOOR.ADC_CLR, DOOR.ADC_STS] s u ∧ SameMem s u) ∧
    (s.fld DOOR.PROF_STS_STATE ≠ 1 →
      let went := fun (c : Instr) (load : Bool) (k : Nat) => s.commits (exec c s) fun u => u.fld DOOR.PROF_STS_STATE = 1 ∧
        u.fld DOOR.PROF_STS_REC = rec' ∧ u.door.go = some ⟨load, k, tgt, rec', [], 0, 0⟩ ∧
        RegsBut [DOOR.PROF_CTL, DOOR.PROF_STS] s u ∧ SameMem s u
      (tgt.val ≤ 1 → went (.profileSave 1 tgt rec') false 1 ∧ (k.profStart false 1 tgt rec').door.prof =
        some ⟨false, 1, tgt, rec', (upto 512).map fun j => k.regN (DOOR.FRIC tgt (j / 256) (j % 256)), k.regN (DOOR.STROKE tgt), 0⟩) ∧
      (tgt.val ≤ 11 → went (.profileSave 2 tgt rec') false 2 ∧
        let ks := k.profKeys 2 tgt
        let u := k.profStart false 2 tgt rec'
        (∀ vals : Nat → Word, (∀ j, j < ks.1 → k.cellVote tgt j = some (vals j)) →
          u.door.prof = some ⟨false, 2, tgt, rec', (upto ks.1).map fun j => (vals j).toNat, ks.2.1, ks.2.2⟩ ∧ u.regs = k.regs) ∧
        (∀ j, j < ks.1 → k.cellVote tgt j = none → u.fld DOOR.PROF_STS_STATE = 3 ∧ u.fld DOOR.PROF_STS_CAUSE = 3 ∧ u.door.prof = none)) ∧
      (kind = 1 ∧ tgt.val ≤ 1 ∨ kind = 2 ∧ tgt.val ≤ 11 → went (.profileLoad kind tgt rec') true kind)) ∧
    (s.fld DOOR.PROF_STS_STATE = 1 → kind = 1 → tgt.val ≤ 1 → s.refuses (exec (.profileLoad kind tgt rec') s) 8 DOOR.PROF_CTL)
  )

/-- R51, R316, R317, R319, R325, R327 to R330, R333, R335: the steps of an epoch, each at its instant: E, after the samples of its tick, freezes
the inputs and starts the evaluation, whose costs are shown when it completes; a fragment goes to the idle ports of the networks that NET
selects, 62 ms, 1 ms per car and 150 µs per fragment after E; on a network that is heard a good fragment of a car of the group is kept until
Q and one that is no good bid frame is counted; the resolution at 90 ms leaves the allocation of the next epoch, and its completion at 92 ms
reports each fragment in ring 38. In IDLE the steps go on, this car is no member, and what it holds is let go. What announcements and the
own holds do in the corners that the rules leave open, and the instant that EVAL_US is taken from, are the model's choices (assumptions 37,
70 and 72).
R134, R307 to R309, R313, R334 and the DISPATCH register tables: a call operation of the window, in mode NORMAL with DISPATCH enabled and
space in the announcement queue, is accepted by the commit and takes effect at the next tick: it changes the record of its call and queues
its announcement; car calls change the car calls alone; the enable; the clears. That an announcement is dropped when the queue is full is
the model's choice (assumption 72).
A commit row is the commit of that one command by every voting lane (assumption 4, the model's reading).
An event row happens at the instant it carries, and device time does not go back (assumption 5, the model's choice). -/
def Obligations.DispatchResults : Prop :=
  (
  ∀ (s : State) (f : Fin 3) (np : NetPort) (e : Ecc) (p : List Byte) (t : Nat),
    let c := byteAt p 2
    let k := byteAt p 3 % 16
    let now := s.atTime t
    let at90 := t = s.dsp.e0 + 90000000 ∧ ∀ a, s.dsp.alloc = some a → a.1 ≠ epochNo t
    (now.now = t → t % 100000000 = 0 → s.dsp.e0 ≠ t → s.tickAt ≠ some t →
      exec (.epochStart ⟨t, e⟩) s = .next (now.onDsp fun d => { d with ePend := some ⟨t, e⟩ })) ∧
    (s.dsp.ePend = some ⟨s.now, e⟩ → s.now % 100000000 = 0 → s.dsp.e0 ≠ s.now →
      ∃ v : State, s.dspTick = v.epochStart e ∧ v.dsp.ePend = none) ∧
    (now.now = t → t % 100000000 = 0 → s.dsp.e0 ≠ t → s.tickAt = some t → s.flag DISPATCH.DSP_CFG_EN = true → 4 ≤ s.mode →
      s.dsp.alloc = none → s.ringCnt 37 = 0 →
      ∃ s1, exec (.epochStart ⟨t, e⟩) s = .next (s1.fire 192) ∧ s1.flag DISPATCH.DSP_STS_EVAL_BUSY = true ∧ s1.dsp.e0 = t ∧ s1.dsp.rx = [] ∧
        s1.dsp.closed = s.dsp.closed ∧ s1.dsp.calls = s.dsp.calls ∧ s1.dsp.evalN = s.openCalls.length ∧ SameMem s s1) ∧
    (s.flag DISPATCH.DSP_STS_EVAL_BUSY = true →
      t ≤ s.dsp.e0 + 800000 + 120000 * max (ceilDiv s.dsp.evalN 8) (ceilDiv (3 * s.dsp.evalB.2) 8) →
      ∃ s1, exec (.evaluationComplete t) s = .next (s1.fire 193) ∧ s1.flag DISPATCH.DSP_STS_EVAL_BUSY = false ∧
        s1.fld DISPATCH.DSP_EVAL_N = s.dsp.evalN % 2048 ∧ s1.fld DISPATCH.DSP_EVAL_EVAL_US = min ((t - s.dsp.e0) / 1000) 65535 ∧
        (∀ id cost, s.dsp.costs = [(id, cost)] → s1.call id = { s.call id with cost := cost }) ∧
        RegsBut [DISPATCH.DSP_STS, DISPATCH.DSP_EVAL, DISPATCH.DSP_BANK] s s1 ∧ SameMem s s1) ∧
    (s.gstate = 2 → f.val < s.fragN → s.drives = true → now.now = t → t = s.dsp.e0 + 62000000 + 1000000 * s.me + 150000 * f →
      (∀ x y : Fin 2, (s.port x y).cur = none ∧ (s.port x y).queue = [] ∧ (s.port x y).till ≤ t) →
      Ends (exec (.fragmentSend f t) s) fun u => u.dsp.sent = now.bidPayload f ∧ u.dsp.seq = (s.dsp.seq + 1) % 65536 ∧
        u.dsp.calls = s.dsp.calls ∧ RegsBut [DISPATCH.DSP_STS] s u ∧ SameMem s u ∧
        ∀ x y : Fin 2, (u.port x y).cur.map (·.bytes) =
          if bitB (s.fld DISPATCH.DSP_CFG_NET) x ∧ s.flag (NET.PORT_CFG_EN x y) then some (u.bidFrame x y) else none) ∧
    (s.flag DISPATCH.DSP_CFG_EN = true → s.netHears np = true →
      (p.length = 1380 → byteAt p 0 = 2 → byteAt p 1 = 1 → crc32c (p.take 1376) = leAt p 1376 4 → c ≠ s.me →
      leAt p 8 4 = s.regN DISPATCH.DSP_GROUP →
        c ≤ (if s.straps.variantC then 3 else 15) → bitB (s.fld DISPATCH.DSP_MASK_CARS) c = true → leAt p 4 4 = epochNo t → k < s.fragN →
        t % 100000000 < 90000000 → (∀ x ∈ s.dsp.rx, x.car ≠ c ∨ x.frag ≠ k) →
        Ends (exec (.fragmentReceive np p t) s) fun u => u.dsp.rx = s.dsp.rx ++ [⟨c, k, p, shortOf t, np.k.val + 1⟩] ∧
          u.regs = s.regs ∧ u.dsp.calls = s.dsp.calls ∧ SameMem s u) ∧
      (p.length ≠ 1380 ∨ byteAt p 0 ≠ 2 ∨ byteAt p 1 ≠ 1 ∨ crc32c (p.take 1376) ≠ leAt p 1376 4 →
      ∃ s1, exec (.fragmentReceive np p t) s = .next (s1.fire 197) ∧
        s1.fld DISPATCH.DSP_ERR_CRC = min (s.fld DISPATCH.DSP_ERR_CRC + 1) 63 ∧ s1.dsp = s.dsp ∧ RegsBut [DISPATCH.DSP_ERR] s s1 ∧
        SameMem s s1)) ∧
    (∀ id c, s.gstate = 4 → at90 → s.dsp.rx = [] → s.dsp.calls = [(id, c)] → c.state = 1 → c.holder = s.me →
      Ends (exec (.resolution t) s) fun u => u.dsp.calls = s.dsp.calls ∧ SameMem s u ∧ u.dsp.alloc = some (epochNo t, [⟨id, 255, 0xFFFF, 2⟩])) ∧
    (s.gstate = 2 ∨ s.gstate = 4 → at90 → s.dsp.rx = [] → s.dsp.calls = [] →
      Ends (exec (.resolution t) s) fun u => u.dsp.alloc = some (epochNo t, []) ∧ u.dsp.calls = [] ∧ u.dsp.diverge = false ∧
        bitB (u.fld DISPATCH.DSP_MEMB_MEMBER) s.me = decide (s.gstate = 2) ∧ SameMem s u) ∧
    (∀ x, s.gstate = 2 ∨ s.gstate = 4 → t = s.dsp.e0 + 92000000 → s.dsp.rx = [x] → ∃ e s1, exec (.resolutionComplete t) s =
        .next (s1.onDsp fun d => { d with rx := [] }) ∧ s1 = (s.atTime t).hwPush 38 e ∧ e.length = 24 ∧
        e.getD 0 0 = BitVec.ofNat 8 x.car ∧ e.getD 1 0 = BitVec.ofNat 8 (byteAt x.data 3))
  ) ∧
  (
  ∀ (s v : State) (w : Word) (r : BitVec 10) (en : Bool) (o de di px rc fl : Nat),
    let f := fun (x : Fld) => bitsOf w.toNat x.lo x.width
    let origin := f DISPATCH.CALL_WIN_ORIGIN
    let dest := f DISPATCH.CALL_WIN_DEST
    let dir := f DISPATCH.CALL_WIN_DIR
    let flags := bitsOf w.toNat 24 3
    let maxL := s.fld SYS.CAPS_MAX_LANDING
    let rec' := 256 + r.toNat
    let served := fun l => s.landingFlag l 0 = true
    let posts := fun (c : Instr) (op : Nat) => s.commits (exec c s) fun u =>
      u.dsp = { s.dsp with ops := [⟨op, origin, dest, dir, f DISPATCH.CALL_WIN_PAX, r.toNat, flags⟩] } ∧
      RegsBut [DISPATCH.CALL_WIN, DISPATCH.CALL_REC, DISPATCH.CALL_CMD] s u ∧ SameMem s u
    -- an operation at its tick
    let x := fun (op : Nat) => (⟨op, o, de, di, px, rc, fl⟩ : CallOp)
    let did := fun (op id : Nat) (after : CallRec → CallRec) =>
      let u := v.opDo (x op)
      let q := ((v.call id).seqA + 1) % 256
      u.call id = { after (v.call id) with seqA := q } ∧ (∀ k, k ≠ id → u.call k = v.call k) ∧ u.regs = v.regs ∧ SameMem v u ∧
        (v.dsp.queue.length < 128 → u.dsp.queue = v.dsp.queue ++ [⟨leBytes 1 op ++ leBytes 1 o ++ leBytes 1 (if op ≤ 2 then di else de) ++
          leBytes 1 px ++ leBytes 2 (if op ≤ 2 then 0 else rc) ++ leBytes 1 q ++ leBytes 1 fl, v.fld DISPATCH.DSP_CFG_ANN_REP, false⟩])
    let closed := fun (c : CallRec) => { c with state := 0, bias := 0, veto := false, listed := false }
    let shut := fun (u : State) => u.dsp.calls = v.dsp.calls ∧ u.dsp.queue = v.dsp.queue ∧ u.regs = v.regs ∧ SameMem v u
    ((v.call (2 * o + di)).state = 0 → did 1 (2 * o + di) fun c =>
      { c with state := 1, origin := o, dest := di, flags := fl, epoch := epochNo v.now }) ∧
    did 2 (2 * o + di) closed ∧
    ((v.call (256 + rc)).state = 0 → did 3 (256 + rc) fun c =>
      { c with state := 1, origin := o, dest := de, pax := px, flags := fl, epoch := epochNo v.now }) ∧
    did 4 (256 + rc) closed ∧
    ((v.call (256 + rc)).state ≠ 0 → did 5 (256 + rc) fun c => { c with state := 2 }) ∧
    (mget (fun _ => 256) (v.opDo (x 6)).dsp.cars o = fl ∧ shut (v.opDo (x 6))) ∧
    (mget (fun _ => 256) (v.opDo (x 7)).dsp.cars o = 256 ∧ shut (v.opDo (x 7))) ∧
    ((v.opDo (x 8)).dsp.cars = [] ∧ shut (v.opDo (x 8))) ∧
    (s.dsp.ops = [] → s.flag DISPATCH.DSP_CFG_EN = true → s.mode = 6 → s.dsp.queue.length < 128 → origin ≤ maxL → dest ≤ maxL →
      rec' ≤ s.lastId →
      (served origin → (dir = 0 → s.servedList.getLast? ≠ some origin) → (dir = 1 → s.servedList.head? ≠ some origin) →
        posts (.hallOpen w r) 1 ∧ posts (.hallClose w r) 2) ∧
      (served origin → served dest → dest ≠ origin → f DISPATCH.CALL_WIN_PAX ≠ 0 → r.toNat % (if s.narrow then 4 else 16) = s.me →
        (s.call rec').state = 0 → posts (.destOpen w r) 3) ∧
      posts (.destClose w r) 4 ∧
      ((s.call rec').state ≠ 0 → (s.call rec').holder = s.me → posts (.destPicked w r) 5) ∧
      (served origin → (s.dsp.calls = [] → s.dsp.cars = [] → posts (.carAdd w r) 6) ∧ posts (.carRemove w r) 7) ∧
      posts (.carClear w r) 8) ∧
    (en = false ∨ s.regN DISPATCH.DSP_V ≠ 0 ∧ s.regN DISPATCH.DSP_A ≠ 0 ∧ s.regN DISPATCH.DSP_J ≠ 0 ∧ s.fld DISPATCH.DSP_CFG_NET ≠ 0 ∧
        bitB (s.fld DISPATCH.DSP_MASK_CARS) s.me = true ∧ bitB (s.regN DISPATCH.DSP_MAC_HI) 8 = true →
      s.commits (exec (.dspEn en) s) fun u => u.flag DISPATCH.DSP_CFG_EN = en ∧ (en = false → u.gstate = 0) ∧
        (en = false → s.flag DISPATCH.DSP_CFG_EN = true → u.dsp.queue = []) ∧
        (en = true → s.flag DISPATCH.DSP_CFG_EN = false → ∀ d : Fin 2, u.reg (DISPATCH.DSP_DOORL d) = s.reg DISPATCH.DSP_DOOR_INIT) ∧
        SameMem s u) ∧
    s.commits (exec .dspClrMiss s) (fun u => (∀ c, c < 16 → u.fld (DISPATCH.DSP_MISS_TOTAL c) = 0 ∧
      u.fld (DISPATCH.DSP_MISS_RUN c) = s.fld (DISPATCH.DSP_MISS_RUN c)) ∧ SameMem s u) ∧
    s.commits (exec .dspClrErr s) (fun u => u.regN DISPATCH.DSP_ERR = 0 ∧ RegsBut [DISPATCH.DSP_CLR, DISPATCH.DSP_ERR] s u ∧
      SameMem s u) ∧
    s.commits (exec .dspClrDiverge s) (fun u => u.flag DISPATCH.DSP_STS_DIVERGE = false ∧
      RegsBut [DISPATCH.DSP_CLR, DISPATCH.DSP_STS] s u ∧ SameMem s u)
  )

/-- R340, R344, R345, R356 to R360: a cycle of a monitor that is not armed measures the speed and trips nothing, and within 49 µs of the last no
cycle falls; DOOR_MOVE clears after its rest; ARM, LOCK, RESET and RELEASE at three voting lanes that all fulfil their conditions, and ARM
refused in the modes below SURVEY. The order in which the trips of one cycle are taken, the rounding of the speed and the rest with EN 0 are
the model's choices (assumption 81), and that the SAFE sources follow the majority (assumption 82).
A commit row is the commit of that one command by every voting lane (assumption 4, the model's reading).
An event row happens at the instant it carries, and device time does not go back (assumption 5, the model's choice). -/
def Obligations.SafeResults : Prop :=
  ∀ (s : State) (l : Lane) (broken lv : BitVec 48) (t : Nat),
    let now := s.atTime t
    let shown := fun (s1 : State) => ((s1.gatesShow l).safeShow).readyShow.fieldSettle
    let keys := fun (f : Nat → List Nat) => [0, 1, 2].flatMap f
    let did := fun (c : Instr) (src : Nat) (p : State → Prop) => s.voters = [0, 1, 2] →
      ∃ s1, exec c s = .next (s.settled (s1.fire src).safeShow) ∧ p s1 ∧ s1.sram = s.sram ∧ s1.mram = s.mram ∧
        ∀ k : Lane, s1.lane k = { s.lane k with engDirty := (s1.lane k).engDirty }
    (now.monDue l = true → s.flag (SAFE.STS_ARMED l) = false → ∃ s1, exec (.monitorCycle l broken lv t) s = .next (shown s1) ∧
      s1.reg (SAFE.FIRST l) = s.reg (SAFE.FIRST l) ∧ s1.regN (SAFE.TRIP l) ∈ [s.regN (SAFE.TRIP l), s.regN (SAFE.TRIP l) &&& 0xFFFFFFFB] ∧
      (s1.mon l).at' = some now.now ∧ s1.flag (SAFE.STS_STOP l) = (s1.regN (SAFE.TRIP l) != 0) ∧
      (s.flag (SAFE.SPD_CFG_EN l) = true → (s.mon l).started = true → s.flag (SAFE.SPD_CFG_INV l) = false →
        s.fld (SAFE.SPD_CFG_FILT l) = 1 → s1.reg (SAFE.SPEED l) = lim32 ((now.monSample.mon l).cnt * s.regN (SAFE.SPD_SCALE l) * 20000 / 65536)) ∧
      SameMem (s.setLane l { s.lane l with tally := { (s.lane l).tally with safes := (s.lane l).tally.safes + 1 } }) s1) ∧
    (now.monDue l = false → exec (.monitorCycle l broken lv t) s = .next now) ∧
    (s.monRuns l = true → s.fld (SAFE.REST_REST_T l) * 20 ≤ (s.mon l).cRest → ∃ s1, exec (.restTimeout l t) s = .next (shown s1) ∧
      s1.fld (SAFE.TRIP_DOOR_MOVE l) = 0 ∧
        s1.flag (SAFE.STS_STOP l) = (s1.regN (SAFE.TRIP l) != 0) ∧ RegsBut [SAFE.TRIP l, SAFE.STS l] s s1 ∧ SameMem s s1) ∧
    (4 ≤ s.mode → (∀ k : Lane, s.armOk k = true) → did .arm 207 fun u => (∀ k : Lane, u.flag (SAFE.STS_ARMED k) = true ∧
      (s.flag (SAFE.STS_ARMED k) = false → (u.mon k).released = false)) ∧ RegsBut (keys fun k => [SAFE.CTL k, SAFE.STS k]) s u) ∧
    (s.mode ≤ 3 → s.voters = [0, 1, 2] → s.refuses (exec .arm s) 7 (keyAddr (SAFE.CTL 0))) ∧
    (s.mode = 6 → (∀ k : Lane, s.flag (SAFE.STS_ARMED k) = true) → did .lock 207 fun u =>
      (∀ k : Lane, u.flag (SAFE.STS_LOCKED k) = true) ∧ RegsBut (keys fun k => [SAFE.CTL k, SAFE.STS k]) s u) ∧
    ((∀ k : Lane, s.safeResetOk k = true) → did .reset 206 fun u => (∀ k : Lane, u.regN (SAFE.FIRST k) = 0 ∧
        u.regN (SAFE.FIRST_STAMP k) = 0 ∧ u.regN (SAFE.TRIP k) = bitsOf (s.regN (SAFE.TRIP k)) 2 1 * 4 ∧
        u.flag (SAFE.STS_STOP k) = (u.regN (SAFE.TRIP k) != 0)) ∧
      RegsBut (keys fun k => [SAFE.CTL k, SAFE.STS k, SAFE.TRIP k, SAFE.FIRST k, SAFE.FIRST_STAMP k]) s u) ∧
    ((∀ k : Lane, s.releaseOk k = true) → did .release 206 fun u => (∀ k : Lane, (u.mon k).released = true ∧
        bitB (u.fld (SAFE.STS_GATE k)) 0 = !s.flag (SAFE.STS_STOP k) ∧ bitB (u.fld (SAFE.STS_GATE k)) 1 = !s.flag (SAFE.STS_STOP k)) ∧
      RegsBut (keys fun k => [SAFE.CTL k, SAFE.STS k]) s u)

/-- R365, R366, R370 to R376, R379: the slot of this device sends the HEART out of every port that is on; a copy with a bad CRC is counted; an
accepted copy, the first of its stream or one whose SEQ is 1 to 32 767 after the last, waits for its twin, or with it is delivered as BOTH;
a late or an old one is counted; a wait that ends delivers single-light; a stream past its age is LOST; the clear of the error counters.
That the first copy of a stream is accepted, that the wait ends at its exact instant, that STREAM_LOST judges every stream of its node while
NODE shows the main one, and the upper seconds of a stamp are the model's choices (assumption 83).
A commit row is the commit of that one command by every voting lane (assumption 4, the model's reading).
An event row happens at the instant it carries, and device time does not go back (assumption 5, the model's choice). -/
def Obligations.LlpResults : Prop :=
  ∀ (s : State) (np : NetPort) (e : Ecc) (p : List Byte) (node : Fin 136) (ty : Fin 4) (t : Nat),
    let net := np.k == 1
    let n := byteAt p 3
    let body := p.take (16 + n)
    let now := s.atTime t
    let src := byteAt p 2
    let y := byteAt p 0
    let stamp := now.pduStamp p
    let on := s.flag LLP.CFG_EN = true ∧ s.flag LLP.STS_TIME_OK = true
    let hears := on ∧ s.netHears np = true
    let good := 20 + n ≤ p.length ∧ s.llpCrc net body = leAt p (16 + n) 4
    (s.now ≤ t → now.llpSlotNow = true → s.flag LLP.CFG_EN = true → s.flag LLP.STS_TIME_OK = true → s.fld SYS.PWR_STS_STATE ≤ 2 →
      s.flag LLP.CFG_HEART_EN = true → s.ringCnt 10 = 0 → (∀ k q : Fin 2, s.flag (NET.PORT_CFG_EN k q) = true →
        (s.port k q).cur = none ∧ (s.port k q).queue = [] ∧ (s.port k q).till ≤ t) → Ends (exec (.llpSlot ⟨t, e⟩) s) fun u =>
        u.llp.sent = [now.pdu 2 s.llp.hSeq now.heartPayload] ∧ u.llp.hSeq = (s.llp.hSeq + 1) % 65536 ∧ u.regs = s.regs ∧ SameMem s u ∧
        ∀ k q : Fin 2, if s.flag (NET.PORT_CFG_EN k q) then
          (u.port k q).cur.map (·.bytes) = some (now.llpFrame k q (now.pdu 2 s.llp.hSeq now.heartPayload)) else u.port k q = s.port k q) ∧
    (hears → 20 + n ≤ p.length → s.llpCrc net body ≠ leAt p (16 + n) 4 →
      ∃ s1, exec (.llpCopyReceive np p t) s = .next (s1.fire 213) ∧
        (let f := if net then LLP.ERR0_CRC_B else LLP.ERR0_CRC_A
         s1.fld f = min (s.fld f + 1) (2 ^ f.width - 1)) ∧ RegsBut [LLP.ERR0] s s1 ∧ s1.llp = s.llp ∧ SameMem s s1) ∧
    (hears → s.flag LLP.CFG_RAW_EN = false → good →
      (y = 1 ∧ n = 8 ∧ src < 128 ∨ y = 2 ∧ n = 16 ∧ 128 ≤ src ∨ y = 3 ∧ 8 ≤ n ∧ n ≤ 64 ∧ n % 4 = 0) → byteAt p 1 = 1 →
      leAt p 6 2 = s.fld LLP.CYCLE_CYCLE → src < 136 → s.nodeOn src = true → src ≠ 128 + s.fld LLP.CFG_NODE →
      now.now ≤ stamp + s.fld LLP.AGE_MAX_AGE * 1000 → stamp ≤ now.now + 200000 →
      let gap := fun (a : Nat) => (leAt p 4 2 + 65536 - a % 65536) % 65536
      let counts := fun (f : Fld) => ∃ s1, exec (.llpCopyReceive np p t) s = .next (s1.fire 213) ∧
        s1.fld f = min ((now.fire 215).fld f + 1) (2 ^ f.width - 1) ∧ s1.llp = s.llp ∧ SameMem s s1
      (∀ a, (s.stream src y).last = some a → (s.stream src y).held = none →
        (gap a = 0 → counts LLP.ERR1_LATE) ∧ (32768 ≤ gap a → counts LLP.ERR1_OLD)) ∧
      ((∀ a, (s.stream src y).last = some a → 1 ≤ gap a ∧ gap a ≤ 32767) →
        ((s.stream src y).held = none → exec (.llpCopyReceive np p t) s = .next ((now.fire 215).onStream src y fun x =>
          { x with held := some ⟨leAt p 4 2, net, body, now.now, now.now + s.fld LLP.TIMING_SKEW_WIN * 1000⟩ })) ∧
        (∀ h, (s.stream src y).held = some h → now.now < h.expiry → h.seq = leAt p 4 2 → h.net ≠ net → h.data = body →
          exec (.llpCopyReceive np p t) s = .next ((now.fire 215).llpDeliver src y body 1 h.arrival)))) ∧
    (∀ h, (s.stream node ty).held = some h →
      (on → h.expiry ≤ now.now → exec (.llpHoldExpiry node ty t) s =
        .next (now.llpDeliver node ty h.data (if h.net then 3 else 2) h.arrival)) ∧
      (now.now < h.expiry → exec (.llpHoldExpiry node ty t) s = .next now)) ∧
    (let x := s.stream node ty
      let expired := fun (k : Nat) => ((s.stream node k).prev ≠ none ∨ (s.stream node k).past = true) ∧ (s.stream node k).lost = false ∧
        (s.stream node k).stamp + s.lostAfter < now.now
      s.nodeOn node = true → 1 ≤ ty.val → expired ty → (∀ k : Fin 4, k ≠ ty → ¬expired k) →
      ∃ s1, exec (.streamLost node t) s = .next (s1.fire 208) ∧ s1.stream node ty = { x with lost := true } ∧
        s1.fld (LLP.NODE_STATE node) = (if ty.val = mainType node then 4 else s.fld (LLP.NODE_STATE node)) ∧
        RegsBut [LLP.NODE node, LLP.STS] s s1 ∧ SameMem s s1) ∧
    s.commits (exec .llpClr s) (fun u => u.regN LLP.ERR0 = 0 ∧ u.regN LLP.ERR1 = 0 ∧ RegsBut [LLP.CLR, LLP.ERR0, LLP.ERR1] s u ∧
      SameMem s u)

/-- R383 to R388, R391 to R393, R399, R400: what an input, a counter, a wire break, a short, a thermal shutdown, a diagnosis period and VFIELD
do to the registers of their channel or die once their time has passed; each flag that is set makes its ring entry. `u` is the state with
the VFIELD watch of the die begun (R537). That a row gives the supply, the temperature and the instant from which it has held, and that an
input changes by its filter's row alone, is the model's choice (assumption 92); so is which flags make entries when they clear (assumption
91).
R395 to R398, R404 to R406, R408: an off-pulse of the one channel that is due, the end of an off-pulse, the admission of the one waiting
request that fits at a start slot, a bad frame of a lane's link, and a link's fault and its sixteenth good frame. When the first test of a
channel is due, and that the row TEST_SLOT starts it, is the model's choice (assumption 90).
An event row happens at the instant it carries, and device time does not go back (assumption 5, the model's choice). -/
def Obligations.FieldEvents : Prop :=
  (
  ∀ (s : State) (n : Fin 48) (c : Fin 32) (k : Fin 2) (lvl : Bool) (mv temp : Int) (stamp t : Nat),
    let now := s.atTime t
    let u := now.dieSync k
    let active := lvl != s.flag (FIELD.CH_CFG_POL n)
    let from' := min now.now (max stamp ((u.die k).up.getD 0))
    let sts := fun (s1 : State) => RegsBut [FIELD.CH_STS c] s s1 ∧ SameMem s s1
    (s.chMode n = 1 → now.dieUp (dieOf n) = true → stamp + s.fld (FIELD.CH_CFG_FILT n) * 10000 ≤ now.now →
      s.flag (FIELD.CH_STS_VALID n) = true → active ≠ s.flag (FIELD.CH_STS_IN n) → s.fld (FIELD.CH_CFG_CAP n) = 0 →
      ∃ s1, exec (.filteredChange n lvl stamp t) s =
          .next (if s.flag (FIELD.CH_CFG_CHG_EV n) then s1.chEventAt stamp n 1 (b2n active) else s1) ∧
        s1.flag (FIELD.CH_STS_IN n) = active ∧ RegsBut [FIELD.CH_STS n, FIELD.IN_LVL0, FIELD.IN_LVL1] s s1 ∧ SameMem s s1) ∧
    (s.flag (FIELD.CH_STS_VALID n) = true → now.dieUp (dieOf n) = true → stamp + s.fld (FIELD.CH_CFG_CFILT n) * 25 ≤ now.now →
      Ends (exec (.counterEdge n lvl stamp t) s) fun u =>
      u.regN (FIELD.CH_CNT n) = (s.regN (FIELD.CH_CNT n) +
        b2n (bitB (s.fld (FIELD.CH_CFG_CNT n)) (if active then 0 else 1) && decide ((s.ch n).clrAt ≤ stamp))) % 2 ^ 32 ∧
      (s.flag (FIELD.CH_CFG_PER_EN n) = true → active = true → (s.ch n).perAt ≤ stamp → (u.ch n).edge = some stamp ∧
        ∀ e, (s.ch n).edge = some e → u.regN (FIELD.CH_PER n) = min ((stamp - e) / 25) 0xFFFFFFFF) ∧
      (s.flag (FIELD.CH_CFG_PER_EN n) = false ∨ active = false → u.reg (FIELD.CH_PER n) = s.reg (FIELD.CH_PER n)) ∧
      RegsBut [FIELD.CH_CNT n, FIELD.CH_PER n] s u ∧ SameMem s u) ∧
    (s.chMode n = 1 → s.flag (FIELD.CH_CFG_WB_EN n) = true → s.flag (FIELD.CH_STS_WB n) ≠ lvl → now.dieUp (dieOf n) = true →
      stamp + 20000000 ≤ now.now → ∃ s1, exec (.wireBreak n lvl ⟨stamp, t⟩) s = .next (s1.chEvent n 2 (b2n lvl)) ∧
      s1.flag (FIELD.CH_STS_WB n) = lvl ∧
        (lvl = true → s1.flag (FIELD.CH_STS_VALID n) = false) ∧ RegsBut [FIELD.CH_STS n] s s1 ∧ SameMem s s1) ∧
    (s.chMode c = 2 → s.flag (FIELD.CH_STS_SW c) = true → s.flag (FIELD.CH_STS_STG c) = false → now.dieUp (dieOf c) = true →
      stamp + 1000000 ≤ now.now → (s.ch c).swAt + 1000000 ≤ now.now →
      (∀ a, (s.ch (s.headOf c)).adm = some a → a +
        s.fld (LEDGER.DECL_T_T (if s.pairKind (s.headOf c) = 1 then s.headOf c else c)) * 250000 + 1000000 ≤ now.now) →
      ∃ s1, exec (.stg c false ⟨stamp, t⟩) s = .next (s1.chEvent c 0xA 1) ∧ s1.flag (FIELD.CH_STS_STG c) = true ∧
        s1.flag (FIELD.CH_STS_RB c) = false ∧ sts s1) ∧
    (s.flag (FIELD.CH_STS_SW c) = true → (s.ch (s.testHead c)).pulse = none → s.fld (FIELD.CH_STS_TCYC c) < 7 →
      ∃ s1, exec (.thermalShutdown c t) s = .next (((s1.chEvent c 5 (s.fld (FIELD.CH_STS_TCYC c) + 1)).ledgerShow (dieOf c)).swShow) ∧
        s1.flag (FIELD.CH_STS_THERM c) = true ∧ s1.fld (FIELD.CH_STS_TCYC c) = s.fld (FIELD.CH_STS_TCYC c) + 1 ∧ sts s1) ∧
    (s.flag (FIELD.CH_STS_SW c) = true → s.fld (FIELD.CH_STS_TCYC c) = 7 → Ends (exec (.thermalShutdown c t) s) fun v =>
      v.flag (FIELD.CH_STS_LATCHED c) = true ∧ v.fld (FIELD.CH_STS_TCYC c) = 8) ∧
    (∃ s1, exec (.thermalRecovery c t) s = .next s1.swShow ∧ s1.flag (FIELD.CH_STS_THERM c) = false ∧ sts s1) ∧
    (s.flag (FIELD.CH_STS_SW c) = true → (s.ch c).swAt + 1000000000 ≤ now.now →
      Ends (exec (.thermalCycleClear c t) s) fun u => u.fld (FIELD.CH_STS_TCYC c) = 0 ∧ sts u) ∧
    (s.chMode c = 2 → s.flag (FIELD.CH_STS_SW c) = false → s.isQueued (s.headOf c) = false → s.fld SYS.PWR_STS_STATE < 3 →
      (s.ch c).swAt + 15000000 ≤ now.now → (now.now - (s.ch c).swAt) % 5000000 = 0 → (s.ch c).source = false → (s.ch c).hi = 1 →
      (s.ch c).hit < 2 → (s.ch c).miss < 2 → s.flag (FIELD.CH_STS_STV c) = false →
      s.flag (FIELD.CH_STS_STG c) = false → ∃ s1, exec (.diagnosisPeriod c true t) s = .next (s1.chEvent c 4 1) ∧
        s1.flag (FIELD.CH_STS_STV c) = true ∧ s1.flag (FIELD.CH_STS_RB c) = true ∧ sts s1) ∧
    (now.dieUp k = true → -500 ≤ mv → ∃ s1, exec (.vfieldChange k mv temp stamp t) s = .next s1.swShow ∧ s1.flag (FIELD.DIE_STS_REV k) = false ∧
      s1.flag (FIELD.DIE_STS_WARN k) = (decide (mv < 19200) || (decide (mv ≤ 19700) && u.flag (FIELD.DIE_STS_WARN k))) ∧
      s1.flag (FIELD.DIE_STS_VF_OK k) = (u.flag (FIELD.DIE_STS_VF_OK k) && decide (17000 < mv)) ∧
      s1.flag (FIELD.DIE_STS_IN_INV k) = (decide (mv < 15000) || (u.flag (FIELD.DIE_STS_IN_INV k) &&
        !(decide (15500 < mv) && decide ((u.die k).hi15.getD from' + 1000000 ≤ now.now)))) ∧
      s1.regN (FIELD.DIE_VF k) = mv.toNat % 65536 * 65536 + (temp % 65536).toNat ∧ SameMem u s1) ∧
    (now.dieUp k = false → ∃ s1, exec (.vfieldChange k mv temp stamp t) s = .next s1 ∧ s1.regs = s.regs ∧ (k.val, mv) ∈ s1.field.ball ∧
      (k.val, temp) ∈ s1.field.temp) ∧
    (∀ a, now.dieUp k = true → u.flag (FIELD.DIE_STS_UVL k) = false → (u.die k).low = some a → a + 2000000 < now.now →
      ∃ s1, exec (.uvl k t) s = .next (((s1.dieStop k).fire (216 + k.val)).fire (218 + k.val)) ∧
      s1.flag (FIELD.DIE_STS_UVL k) = true ∧ s1.fld (FIELD.DIE_ERR_UVL_CNT k) = min (u.fld (FIELD.DIE_ERR_UVL_CNT k) + 1) 255 ∧
      RegsBut [FIELD.DIE_STS k, FIELD.DIE_ERR k] u s1 ∧ SameMem u s1) ∧
    (∀ a, now.dieUp k = true → u.flag (FIELD.DIE_STS_VF_OK k) = false → (u.die k).hi17 = some a → a + 20000000 ≤ now.now →
      ∃ s1, exec (.vfOk k t) s = .next (s1.fire (216 + k.val)) ∧ s1.flag (FIELD.DIE_STS_VF_OK k) = true ∧
      RegsBut [FIELD.DIE_STS k] u s1 ∧ SameMem u s1)
  ) ∧
  (
  ∀ (s : State) (n : Fin 32) (l : Lane) (k : Fin 2) (held : Bool) (p : Pulse) (d e t : Nat),
    let now := s.atTime t
    let sl := t - 100000
    let h := s.testHead n
    let u0 := now.dieSync k
    let faulty := fun (u : State) => bitB (u.fld (FIELD.DIE_STS_LINK k)) l
    (s.fld SYS.PWR_STS_STATE < 3 → t % 1000000 = 100000 → (∀ m, m < 32 → m ≠ n.val → (s.ch m).due = none) → (s.ch n).due = some d →
      d ≤ sl → now.dieUp (dieOf n) = true → s.isQueued (s.headOf n) = false → now.testKind n t = some false →
      ∃ s1, exec (.testSlot t) s = .next s1.swShow ∧ s1.regs = s.regs ∧ SameMem s s1 ∧
        (∀ c ∈ s.testSet n, (s1.ch c).pulse = some ⟨false, t, t + s.fld (FIELD.CH_TEST_OFF_W n) * 10000⟩) ∧
        (s1.ch n).due = some (sl + s.fld (FIELD.CH_TEST_INTERVAL n) * 1000000000)) ∧
    ((s.ch h).pulse = some p → p.on = false → p.stop ≤ now.now →
      ∃ s1, exec (.testPulseEnd n held 0 t) s = .next (((s1.chEvent h 7 (if held then 1 else 2)).ledgerShow (dieOf h)).swShow) ∧
        s1.fld (FIELD.CH_STS_TRES h) = (if held then 1 else 2) ∧
        (∀ c ∈ s.testSet h, (s1.ch c).pulse = none ∧ (s1.ch c).offEnd = some now.now) ∧
        (held = false → s1.flag (FIELD.CH_STS_TEST_FAIL h) = true) ∧ RegsBut [FIELD.CH_STS h] s s1 ∧ SameMem s s1) ∧
    (s.now ≤ t → t % 250000 = 0 → s.field.slotAt ≠ some t → now.edgeWaits = false → now.dieUp (dieOf n) = true → s.fld SYS.PWR_STS_STATE ≠ 3 → (s.die (dieOf n)).qs = [(n.val, e)] →
      (∀ j : Fin 2, (s.die j).qo = [] ∧ s.admitted j = [] ∧ (j.val ≠ dieOf n → (s.die j).qs = [])) → s.fld LEDGER.CFG_WAIT_MAX = 0 →
      now.fits n (s.members n) t = true →
      Ends (exec (.startSlot t) s) fun u => (u.ch n).adm = some t ∧ u.isQueued n = false ∧ u.mram = s.mram) ∧
    (now.dieUp k = true → Ends (exec (.commandFrame l k false t) s) fun u => u.fld (linkErr k l) = min (u0.fld (linkErr k l) + 1) 255 ∧
      mget zeroNat (u.die k).good l = 0 ∧ RegsBut [FIELD.DIE_ERR k] u0 u ∧ SameMem u0 u) ∧
    (now.dieUp k = true → faulty u0 = true → mget zeroNat (u0.die k).good l = 15 →
      ∃ s1, exec (.commandFrame l k true t) s = .next (s1.fire 223).fieldSettle ∧
      faulty s1 = false ∧ mget zeroNat (s1.die k).good l = 0 ∧ mget zeroNat (s1.die k).heard l = now.now ∧
      RegsBut [FIELD.DIE_STS k] u0 s1 ∧ SameMem u0 s1) ∧
    (now.dieUp k = true → s.fld SYS.PWR_STS_STATE ≠ 3 → faulty u0 = false →
      max (mget zeroNat (u0.die k).heard l) ((u0.die k).up.getD 0) + 1000000 ≤ now.now →
      ∃ s1, exec (.linkFault l k t) s = .next (s1.fire 223).fieldSettle ∧ faulty s1 = true ∧
      s1.fld (linkErr k l) = min (u0.fld (linkErr k l) + 1) 255 ∧ RegsBut [FIELD.DIE_STS k, FIELD.DIE_ERR k] u0 s1 ∧ SameMem u0 s1)
  )

/-- R380, R388, R392, R397, R400, R406: the command of an OUTPUT channel, the clears of a channel, the restart of a die whose supply is good,
and the clear of the ledger's counters; FAULT is refused while the channel is commanded on with its gate open.
A commit row is the commit of that one command by every voting lane (assumption 4, the model's reading). -/
def Obligations.FieldCommits : Prop :=
  ∀ (s : State) (c : Fin 32) (n : Fin 48) (k : Fin 2) (on : Bool),
    (s.isSecond c = false → s.chMode c = 2 → s.commits (exec (.chOut c on) s) fun u => u.flag (FIELD.CH_OUT_ON c) = on ∧
      u.flag (FIELD.CH_STS_HELD c) = false ∧ RegsBut [FIELD.CH_OUT c, FIELD.CH_STS c, FIELD.CH_STS (c.val + 1)] s u ∧ SameMem s u) ∧
    (s.isSecond c = false → s.commits (exec (.req c) s) fun u => u.flag (FIELD.CH_STS_DENIED c) = false ∧ (u.ch c).barred = false ∧
      RegsBut [FIELD.CH_CLR c, FIELD.CH_STS c, FIELD.CH_STS (c.val + 1)] s u ∧ SameMem s u) ∧
    ((s.ch (s.headOf c)).gate = false ∨ s.flag (FIELD.CH_OUT_ON (s.headOf c)) = false → s.commits (exec (.chClrFault c) s) fun u =>
      u.flag (FIELD.CH_STS_LATCHED c) = false ∧ u.fld (FIELD.CH_STS_TCYC c) = 0 ∧ RegsBut [FIELD.CH_CLR c, FIELD.CH_STS c] s u ∧
      SameMem s u) ∧
    (s.isSecond c = false → (s.ch c).gate = true → s.flag (FIELD.CH_OUT_ON c) = true →
      s.refuses (exec (.chClrFault c) s) 8 (FIELD.CH_CLR c)) ∧
    s.commits (exec (.chClrCnt n) s) (fun u => u.regN (FIELD.CH_CNT n) = 0 ∧ (u.ch n).clrAt = s.now ∧
      RegsBut [FIELD.CH_CLR n, FIELD.CH_CNT n] s u ∧ SameMem s u) ∧
    s.commits (exec (.chClrFlags n) s) (fun u => u.flag (FIELD.CH_STS_XSHORT n) = false ∧ u.flag (FIELD.CH_STS_TEST_FAIL n) = false ∧
      RegsBut [FIELD.CH_CLR n, FIELD.CH_STS n] s u ∧ SameMem s u) ∧
    (s.flag (FIELD.DIE_STS_VF_OK k) = true → s.flag (FIELD.DIE_STS_REV k) = false → s.commits (exec (.dieRestart k) s) fun u =>
      u.flag (FIELD.DIE_STS_UVL k) = false ∧ SameMem s u) ∧
    (s.flag (FIELD.DIE_STS_VF_OK k) = false → s.refuses (exec (.dieRestart k) s) 8 (FIELD.DIE_CTL k)) ∧
    s.commits (exec .ledgerClrCnt s) (fun u => u.regN (LEDGER.CNT 0) = 0 ∧ u.regN (LEDGER.CNT 1) = 0 ∧
      RegsBut [LEDGER.CLR, LEDGER.CNT 0, LEDGER.CNT 1] s u ∧ SameMem s u)

/-- R424, R427, R430: the slave's messages. A two-step Sync waits for its Follow_Up; a one-step Sync, or the matching Follow_Up, gives the
offset t2 - t1 - corrections - path delay - asymmetry; a Follow_Up that does not match counts; malformed messages count; an Announce is
remembered and the choice of a master runs; missed Sync and Announce messages count a timeout. A port whose EN is 0 hears nothing (R438). A
master whose Announce messages end is lost, and the source of time goes to HOLDOVER even where another master is left (R425). The choice of
a master, the port states and the messages are those of IEEE 1588-2019 as the model takes them, which the manual names and does not repeat
(assumption 102, PRESUMED); when PTP starts anew is the model's choice (assumption 105).
R424, R430: a Delay_Resp or a Pdelay_Resp within PD_JUMP of the filtered delay moves it by an eighth and shows it; one without its request
counts in SEQ; requests without an answer after 4 intervals count in LOST.
An event row happens at the instant it carries, and device time does not go back (assumption 5, the model's choice). -/
def Obligations.PtpReceiveResults : Prop :=
  (
  ∀ (s : State) (k p : Fin 2) (domain : BitVec 8) (src : BitVec 80) (gm : BitVec 64) (p1 cls acc p2 : BitVec 8) (var' steps : BitVec 16)
    (seq : BitVec 16) (two : Bool) (t1 corr log f t2' c : Int) (q t : Nat) (m : Master),
    let now := s.atTime t
    let x := s.ptp k
    let t2 : Int := ((now.now : Int) - s.fld (NET.LAT_INGRESS k p)) * 65536
    let counted := fun (c : Instr) (g : Fld) => ∃ s1 : State, exec c s = .next (s1.fire (231 + k)) ∧
      s1.fld g = min (s.fld g + 1) 255 ∧ RegsBut [g.addr] s s1 ∧ SameMem s s1
    (s.flag (NET.PORT_CFG_EN k p) = false → exec (.syncReceive k p true domain src seq two t1 corr log t) s = .next now ∧
      exec (.pdelayRespReceive k p seq c t) s = .next now ∧ exec (.delayReqReceive k p domain ⟨src, seq⟩ corr t) s = .next now ∧
      exec (.announceReceive ⟨k, p⟩ true domain src gm p1 cls acc p2 var' steps log t) s = .next now ∧
      exec (.followUpReceive ⟨k, p⟩ src seq t1 corr t) s = .next now ∧ exec (.delayRespReceive ⟨k, p⟩ seq c corr t) s = .next now) ∧
    (s.ptpOn k = true → s.flag (NET.PORT_CFG_EN k p) = true →
    counted (.syncReceive k p false domain src seq two t1 corr log t) (NET.PTP_ERR_BADMSG k) ∧
    counted (.announceReceive ⟨k, p⟩ false domain src gm p1 cls acc p2 var' steps log t) (NET.PTP_ERR_BADMSG k) ∧
    (domain.toNat = s.fld (NET.PTP_CFG_DOMAIN k) → src.toNat / 65536 ≠ s.clockId k →
      ∃ s1 : State, exec (.announceReceive ⟨k, p⟩ true domain src gm p1 cls acc p2 var' steps log t) s = .next (s1.bmca k) ∧ s1.regs = s.regs ∧
        (s1.ptp k).foreign = x.foreign.filter (fun y => y.src != src.toNat) ++ [⟨src.toNat, p1.toNat, cls.toNat, acc.toNat, var'.toNat,
          p2.toNat, gm.toNat, steps.toNat, now.now, (x.foreign.find? fun y => y.src == src.toNat).map (·.last), logNs log⟩]) ∧
    (x.foreign.find? (fun y => some y.src == x.parent) = some m → m.last + s.fld (NET.PTP_CFG_ANN_TO k) * m.annNs ≤ now.now →
      ∃ s1 : State, exec (.masterLoss k false t) s = .next (let v := s1.bmca k
          let u := if s1.wantSrc = some k.val ∧ v.wantSrc.isSome = true ∧ v.flag TIME.STS_STEPPED = true then v.timeTo 3 else v
          if (u.ptp k).parent.isNone ∧ u.portState k = 4 ∧ u.fld (NET.PTP_CFG_ROLE k) = 2 then u.portTo k 6 else u) ∧
        s1.fld (NET.PTP_ERR_TIMEOUT k) = min (s.fld (NET.PTP_ERR_TIMEOUT k) + 1) 255 ∧ (s1.ptp k).parent = none ∧ SameMem s s1) ∧
    (s.follows k = true →
      (x.syncNs ≠ 0 → x.syncAt + 4 * x.syncNs ≤ now.now → ∃ s1 : State, exec (.masterLoss k true t) s =
          .next (if s1.wantSrc = some k.val ∧ s1.flag TIME.STS_STEPPED then s1.timeTo 3 else s1) ∧
        s1.fld (NET.PTP_ERR_TIMEOUT k) = min (s.fld (NET.PTP_ERR_TIMEOUT k) + 1) 255 ∧ (s1.ptp k).syncNs = 0 ∧ SameMem s s1) ∧
      (x.parent = some src.toNat →
        (domain.toNat = s.fld (NET.PTP_CFG_DOMAIN k) →
          Ends (exec (.syncReceive k p true domain src seq true t1 corr log t) s) (fun u =>
            (u.ptp k).wait = some (seq.toNat, t2, corr, p.val) ∧ (u.ptp k).syncAt = now.now ∧
            u.flag (NET.PORT_STS_MASTER k p) = true ∧ u.flag (NET.PORT_STS_MASTER k (1 - p.val)) = false ∧
            RegsBut [NET.PORT_STS k 0, NET.PORT_STS k 1] s u ∧ SameMem s u) ∧
          (s.pathFor k p = ⟨some f, none⟩ → ∃ s1 : State, exec (.syncReceive k p true domain src seq false t1 corr log t) s =
              .next (s1.offsetNow k (t2 - t1 * 65536 - corr - f - s.regI (NET.ASYM k p) * 65536) false) ∧
            (s1.ptp k).sync = some (t1 * 65536, t2, corr, p.val) ∧ RegsBut [NET.PORT_STS k 0, NET.PORT_STS k 1] s s1 ∧ SameMem s s1)) ∧
        (x.wait = some (seq.toNat, t2', c, q) → s.pathFor k q = ⟨some f, none⟩ →
        ∃ s1 : State, exec (.followUpReceive ⟨k, p⟩ src seq t1 corr t) s =
            .next (s1.offsetNow k (t2' - t1 * 65536 - (c + corr) - f - s.regI (NET.ASYM k q) * 65536) false) ∧
          (s1.ptp k).wait = none ∧ s1.regs = s.regs ∧ SameMem s s1) ∧
        ((∀ w, x.wait = some w → w.1 ≠ seq.toNat) → counted (.followUpReceive ⟨k, p⟩ src seq t1 corr t) (NET.PTP_ERR_SEQ k)))))
  ) ∧
  (
  ∀ (s : State) (k p : Fin 2) (seq : BitVec 16) (t1 t2 t3 t4 cs corr turn f : Int) (q at' t : Nat),
    let now := s.atTime t
    let x := s.ptp k
    let jump : Nat := s.fld TIME.CFG2_PD_JUMP * 65536
    let d : Int := ((t2 - t1) + (t4 * 65536 - t3) - cs - corr) / 2
    let e : Int := (((now.now : Int) - s.fld (NET.LAT_INGRESS k p)) * 65536 - t3 - turn) / 2
    let miss := fun (c : Instr) => ∃ s1 : State, exec c s = .next (s1.fire (231 + k)) ∧
      s1.fld (NET.PTP_ERR_SEQ k) = min (s.fld (NET.PTP_ERR_SEQ k) + 1) 255 ∧ RegsBut [NET.PTP_ERR k] s s1 ∧ SameMem s s1
    let late := x.reqs.filter fun r => decide (r.2.2 + 4 * logNs (s.sfld (NET.PTP_CFG_LOG_DELAY k)) ≤ now.now)
    (s.ptpOn k = true → s.flag (NET.PORT_CFG_EN k p) = true → s.follows k = true → s.fld (NET.PTP_CFG_TCMODE k) ≠ 2 →
      (x.reqs.find? (fun r => r.1 == seq.toNat) = some (seq.toNat, t3, at') → x.sync = some (t1, t2, cs, q) →
        x.path = ⟨some f, none⟩ → (d - f).natAbs ≤ jump → Ends (exec (.delayRespReceive ⟨k, p⟩ seq t4 corr t) s) fun u =>
          (u.ptp k).path = ⟨some (f + (d - f) / 8), none⟩ ∧ u.regI (NET.MPD k) = satInt 32 (asr (f + (d - f) / 8) 16) ∧
          RegsBut [NET.MPD k, TIME.STS] s u ∧ SameMem s u) ∧
      (x.reqs.find? (fun r => r.1 == seq.toNat) = none → miss (.delayRespReceive ⟨k, p⟩ seq t4 corr t))) ∧
    (s.fld (NET.PTP_CFG_TCMODE k) = 2 → s.flag (NET.PORT_CFG_EN k p) = true →
      (mget (fun _ => (65536, 0)) x.preqs p = (seq.toNat, t3) → mget (fun _ => PathSt.reset) x.peer p = ⟨some f, none⟩ →
        (e - f).natAbs ≤ jump → Ends (exec (.pdelayRespReceive k p seq turn t) s) fun u =>
          mget (fun _ => PathSt.reset) (u.ptp k).peer p = ⟨some (f + (e - f) / 8), none⟩ ∧
          u.regI (NET.PDELAY k p) = satInt 32 (asr (f + (e - f) / 8) 16) ∧ u.flag (NET.PORT_STS_PD_VALID k p) = true ∧
          RegsBut [NET.PDELAY k p, NET.PORT_STS k p, TIME.STS] s u ∧ SameMem s u) ∧
      ((mget (fun _ => (65536, 0)) x.preqs p).1 ≠ seq.toNat → miss (.pdelayRespReceive k p seq turn t))) ∧
    (late ≠ [] → ∃ s1 : State, exec (.delayReqLost k t) s = .next (s1.fire (231 + k)) ∧
      s1.fld (NET.PTP_ERR_LOST k) = min (s.fld (NET.PTP_ERR_LOST k) + late.length) 255 ∧
      (s1.ptp k).reqs = x.reqs.filter (fun r => decide (now.now < r.2.2 + 4 * logNs (s.sfld (NET.PTP_CFG_LOG_DELAY k)))) ∧
      RegsBut [NET.PTP_ERR k] s s1 ∧ SameMem s s1)
  )

/-- R424, R427, R430, R431: what the device sends when its interval has passed: a Delay_Req at the port of the master's Sync, Pdelay messages
under P2P, Sync, Announce and Delay_Resp as a master, with their ports and sequenceIds; a request that leaves an idle port at once keeps its
egress stamp. Before the interval nothing goes out. The layout of the messages is that of IEEE 1588-2019 as the model takes it (assumption
102, PRESUMED).
R417, R418, R423: LOCKED falls after HOLD_MAX in HOLDOVER; RESTEP steps device time by the median of the last 8 offsets in a mode and state
that allow it and is refused in the others; RATE_INIT within ±500 ppm is taken, and beyond is refused; the clear of the counters. RESTEP is
refused with STATE while an axis moves or is about to by a commit that waits. LOCKED in HOLDOVER until HOLD_MAX is the model's choice
(assumption 100).
A commit row is the commit of that one command by every voting lane (assumption 4, the model's reading).
An event row happens at the instant it carries, and device time does not go back (assumption 5, the model's choice). -/
def Obligations.PtpSendAndTimeResults : Prop :=
  (
  ∀ (s : State) (k p : Fin 2) (domain : BitVec 8) (src : BitVec 80) (seq : BitVec 16) (corr : Int) (t : Nat),
    let now := s.atTime t
    let x := s.ptp k
    let q := s.syncPort k
    let body := leBytes 10 0
    let atIn : Nat := now.now - s.fld (NET.LAT_INGRESS k p)
    let sends := fun (c : Instr) (ports : Nat) (msg : List Byte) (f : PtpSt → Prop) =>
      ∃ s1 : State, exec c s = .next (s1.ptpSend k ports msg) ∧ f (s1.ptp k) ∧ s1.regs = s.regs ∧ SameMem s s1
    let peer := s.fld (NET.PTP_CFG_TCMODE k) = 2 ∧ s.flag (NET.PORT_CFG_EN k p) = true
    let follows := s.ptpOn k = true ∧ s.follows k = true ∧ x.sync.isSome = true ∧ s.fld (NET.PTP_CFG_TCMODE k) ≠ 2 ∧
      s.flag (NET.PORT_CFG_EN k q) = true
    let delayDue := now.ptpDue k 1 (logNs (s.sfld (NET.PTP_CFG_LOG_DELAY k)))
    (follows → delayDue = true → sends (.delayReqSend k t) (2 ^ q) (now.ptpMsg k 1 x.seqReq 0 0x7F body)
      fun y => y.seqReq = (x.seqReq + 1) % 65536 ∧ (1, now.now) ∈ y.sentAt) ∧
    (delayDue = false → exec (.delayReqSend k t) s = .next now) ∧
    (follows → delayDue = true → s.flag (NET.PTP_CFG_UDP k) = false → s.portMac k q ≠ 0 → (s.port k q).cur = none →
      (s.port k q).queue = [] → (s.port k q).till ≤ now.now → x.seqReq < 65536 → Ends (exec (.delayReqSend k t) s) fun u =>
        (u.ptp k).reqs = x.reqs ++ [(x.seqReq, ((now.now + s.fld (NET.LAT_EGRESS k q) : Nat) : Int) * 65536, now.now)] ∧
        (u.port k q).cur.isSome = true) ∧
    (peer → exec (.pdelayReqReceive k p ⟨⟨src, seq⟩, corr⟩ t) s =
      .next (now.ptpSend k (2 ^ p.val) (now.ptpMsg k 3 seq.toNat (corr - ((now.now : Int) - s.fld (NET.LAT_INGRESS k p)) * 65536) 0x7F
        (body ++ beBytes 10 src.toNat)))) ∧
    (peer → now.ptpDue k (2 + 16 * p) (logNs (s.sfld (NET.PTP_CFG_LOG_DELAY k))) = true →
      sends (.pdelayReqSend k p t) (2 ^ p.val) (now.ptpMsg k 2 x.seqPeer 0 0x7F (leBytes 20 0)) fun y =>
        y.seqPeer = (x.seqPeer + 1) % 65536 ∧ (2 + 16 * p.val, now.now) ∈ y.sentAt) ∧
    (s.portState k = 6 → s.flag (NET.PORT_CFG_EN k p) = true →
      (now.ptpDue k 0 (logNs (s.sfld (NET.PTP_CFG_LOG_SYNC k))) = true → sends (.syncSend k t) (s.portsOn k)
        (now.ptpMsg k 0 x.seqSync 0 (s.logByte (NET.PTP_CFG_LOG_SYNC k)) body) fun y => y.seqSync = (x.seqSync + 1) % 65536) ∧
      (now.ptpDue k 11 (logNs (s.sfld (NET.PTP_CFG_LOG_ANN k))) = true → ∃ ann : List Byte, ann.length = 30 ∧
        byteAt ann 13 = s.fld (NET.PTP_PRIO_PRIORITY1 k) ∧ byteAt ann 14 = s.fld (NET.PTP_PRIO_CLASS k) ∧
        byteAt ann 15 = s.fld (NET.PTP_PRIO_ACCURACY k) ∧ byteAt ann 18 = s.fld (NET.PTP_PRIO_PRIORITY2 k) ∧
        sends (.announceSend k t) (s.portsOn k) (now.ptpMsg k 11 x.seqAnn 0 (s.logByte (NET.PTP_CFG_LOG_ANN k)) ann)
          fun y => y.seqAnn = (x.seqAnn + 1) % 65536) ∧
      (domain.toNat = s.fld (NET.PTP_CFG_DOMAIN k) → s.fld (NET.PTP_CFG_TCMODE k) ≠ 2 →
        exec (.delayReqReceive k p domain ⟨src, seq⟩ corr t) s = .next (now.ptpSend k (s.portsOn k)
          (now.ptpMsg k 9 seq.toNat corr (s.logByte (NET.PTP_CFG_LOG_DELAY k)) (ptpTime atIn ++ beBytes 10 src.toNat)))))
  ) ∧
  (
  ∀ (s : State) (v : Word) (t : Nat),
    let l := s.net.servo.offs.take 8
    let new := ((s.now : Int) - medianOf l).toNat
    let d : Int := (new : Int) - s.now
    (s.timeState = 3 → s.net.servo.holdAt + s.fld TIME.CFG2_HOLD_MAX * 100000000 ≤ (s.atTime t).now →
      Ends (exec (.holdMax t) s) fun u => u.flag TIME.STS_LOCKED = false ∧ u.timeState = 3 ∧ u.img = s.img) ∧
    (s.mode = 0 ∨ s.mode = 2 ∨ s.mode = 11 → (∀ a, a < 4 → s.axSoon a ≤ 1) → l.length = 8 → spreadOf l ≤ 2000 →
      s.commits (exec .restep s) fun u => u.now = new ∧ u.flag TIME.STS_STEPPED = true ∧ u.timeState = 2 ∧
        u.reg TIME.STEP_S = wordOfInt (d / 1000000000) ∧ u.regN TIME.STEP_NS = (d % 1000000000).toNat ∧
        u.fld TIME.CNT_STEPS = min (s.fld TIME.CNT_STEPS + 1) 255 ∧ u.net.servo.offs = [] ∧ u.mram = s.mram ∧
        u.laneA = { s.laneA with eng := u.laneA.eng }) ∧
    (s.mode = 0 ∨ s.mode = 2 ∨ s.mode = 11 → (∃ a, a < 4 ∧ 1 < s.axSoon a) → s.refuses (exec .restep s) 8 TIME.CTL) ∧
    (s.mode ≠ 0 → s.mode ≠ 2 → s.mode ≠ 11 → s.refuses (exec .restep s) 7 TIME.CTL) ∧
    s.commits (exec .timeClrCnt s) (fun u => u.regN TIME.CNT = 0 ∧ RegsBut [TIME.CTL, TIME.CNT] s u ∧ SameMem s u) ∧
    (v.toInt.natAbs ≤ 2147483 → s.commits (exec (.rateInit v) s) fun u => u.reg TIME.RATE_INIT = v ∧
      (s.timeState = 0 → u.reg TIME.RATE = v) ∧ RegsBut [TIME.RATE_INIT, TIME.RATE] s u ∧ SameMem s u) ∧
    (2147483 < v.toInt.natAbs → s.refuses (exec (.rateInit v) s) 1 TIME.RATE_INIT)
  )

/-- R433 to R438: a received frame counts, is dropped when its source is the device, is relayed through an idle port, or is delivered; the
oldest transmit entry leaves an idle port or, invalid, is popped and counted; a frame that has been read is counted and popped. How a frame
is given and counted (assumption 103), which receiver and which class a frame has and who wins a tie (assumption 104), and that the tail
moves when a frame is complete (assumption 105) are the model's choices.
R432, R438: EN of a port with an address, without one, and its fall, which empties the transmit ring; the poll shows the links; an MDIO
access, whose command goes out as it is written, is refused while one runs, sets BUSY, and ends with DONE, its data and source 237; the
clears of a network. What the fall of EN leaves of the frame in flight is the model's choice (assumption 105).
A commit row is the commit of that one command by every voting lane (assumption 4, the model's reading).
An event row happens at the instant it carries, and device time does not go back (assumption 5, the model's choice). -/
def Obligations.NetworkResults : Prop :=
  (
  ∀ (s : State) (k p : Fin 2) (f : List Byte) (fcs : Bool) (x : TxCur) (e : Ecc) (sfd t : Nat),
    let now := s.atTime t
    let tx := 4 * k.val + 2 * p.val + 1
    let own := s.ownMac k (beNat (f.take 6))
    let counted := fun (u : State) => u.regN (NET.RXCNT k p) = min (s.regN (NET.RXCNT k p) + 1) 0xFFFFFFFF
    let d := s.ringEntry tx (s.ringTail tx)
    let addr := leNat (d.take 4)
    let len := leNat ((d.drop 4).take 2)
    let tag := leNat ((d.drop 8).take 2)
    let valid := 14 ≤ len ∧ len ≤ 1518 ∧ 0x20100000 ≤ addr ∧ addr + len ≤ 0x20200000
    let b := rdBytes s.sram (addr - 0x20000000) len
    let popped := fun (u : State) => u.ringTail tx = (s.ringTail tx + 1) % 65536
    now.coreUp = true → 14 ≤ f.length →
    (s.ownMac k (beNat ((f.drop 6).take 6)) = true → ∃ s1 : State, exec (.relayFrame k p f fcs sfd t) s = .next (s1.fire (231 + k)) ∧
      counted s1 ∧ s1.fld (NET.ERRCNT_LOOP k p) = min (s.fld (NET.ERRCNT_LOOP k p) + 1) (2 ^ (NET.ERRCNT_LOOP k p).width - 1) ∧
      RegsBut [NET.RXCNT k p, NET.ERRCNT k p] s s1 ∧ SameMem s s1) ∧
    (s.ownMac k (beNat ((f.drop 6).take 6)) = false → f.length ≤ 1518 → frPtpKind f = 16 →
      (own = true → s.flag (NET.PORT_CFG_EN k p) = true → s.flag (NET.PORT_CFG_RXRING k p) = true → frType f ≠ 0x88B5 →
        frType f ≠ 0x88B6 → ∃ s1 : State, exec (.relayFrame k p f true sfd t) s =
            .next (s1.rxDeliver k p f false (sfd - s.fld (NET.LAT_INGRESS k p))) ∧
          counted s1 ∧ RegsBut [NET.RXCNT k p] s s1 ∧ SameMem s s1) ∧
      (own = false → frGroup f = false → s.flag (NET.PORT_CFG_RELAY k p) = true → s.port k (1 - p.val) = PortSt.reset →
        Ends (exec (.relayFrame k p f true sfd t) s) fun u => counted u ∧ (u.port k (1 - p.val)).cur = some ⟨f,
            s.frameClass k p f none, false, false, false, 0, shortOf (sfd + 2400 + s.fld (NET.LAT_EGRESS k (1 - p.val)))⟩ ∧
          RegsBut [NET.RXCNT k p] s u ∧ SameMem s u)) ∧
    (s.port k p = PortSt.reset → s.flag (NET.PORT_CFG_EN k p) = true → s.ringCnt tx ≠ 0 →
      (valid → bitB (frByte d 6) 1 = false → Ends (exec (.txFrame k p ⟨t, .clean⟩) s) fun u =>
        (u.port k p).cur = some ⟨b ++ List.replicate (60 - len) 0, s.frameClass k p b (some (frByte d 7 % 4)), false, true,
          bitB (frByte d 6) 0, tag, shortOf (now.now + s.fld (NET.LAT_EGRESS k p))⟩ ∧ u.regs = s.regs ∧ SameMem s u) ∧
      (¬ valid → ∃ s1 : State, exec (.txFrame k p ⟨t, e⟩) s =
          .next (if bitB (frByte d 6) 0 then (s1.fire (231 + k)).txReport k p 2 tag 0 else s1.fire (231 + k)) ∧
        popped s1 ∧ s1.fld (NET.ERRCNT_ABORT k p) = min (s.fld (NET.ERRCNT_ABORT k p) + 1) (2 ^ (NET.ERRCNT_ABORT k p).width - 1) ∧
        SameMem s s1)) ∧
    ((s.port k p).cur = some x → (s.port k p).till ≤ now.now + 1920 → ∃ s1 : State, exec (.txComplete k p t) s =
        .next (if x.report then s1.txReport k p 0 x.tag x.stamp else s1) ∧ (s1.port k p).cur = none ∧
      s1.regN (NET.TXCNT k p) = min (s.regN (NET.TXCNT k p) + 1) 0xFFFFFFFF ∧ (x.ring = true → popped s1) ∧ SameMem s s1)
  ) ∧
  (
  ∀ (s : State) (k p : Fin 2) (write up0 up1 : Bool) (phy r : Fin 32) (data : BitVec 16) (t : Nat),
    let now := s.atTime t
    let tx := 4 * k.val + 2 * p.val + 1
    (s.flag (NET.PORT_CFG_RXRING k p) = false →
      (s.portMac k p ≠ 0 → bitB (s.portMac k p) 40 = false → s.commits (exec (.portEn k p true) s) fun u =>
        u.flag (NET.PORT_CFG_EN k p) = true ∧ RegsBut [NET.PORT_CFG k p] s u ∧ SameMem s u) ∧
      (s.flag (NET.PORT_CFG_EN k p) = false → s.portMac k p = 0 →
        s.refuses (exec (.portEn k p true) s) 1 (NET.PORT_CFG k p)) ∧
      (s.flag (NET.PORT_CFG_EN k p) = true → s.commits (exec (.portEn k p false) s) fun u =>
        u.flag (NET.PORT_CFG_EN k p) = false ∧ u.ringCnt tx = 0 ∧ u.mram = s.mram)) ∧
    (now.coreUp = true → s.flag (NET.MDIO_CFG_POLL k) = true → mget zeroNat s.net.poll k + 10000000 ≤ now.now →
      s.flag (NET.PORT_STS_LINK k 0) ≠ up0 →
      s.flag (NET.PORT_STS_LINK k 1) = up1 → up0 = true ∨ (s.port k 0).cur = none →
      ∃ s1 : State, exec (.mdioPoll k up0 up1 t) s = .next (s1.fire (229 + k)) ∧ s1.flag (NET.PORT_STS_LINK k 0) = up0 ∧
        RegsBut [NET.PORT_STS k 0] s s1 ∧ SameMem s s1) ∧
    (s.flag (NET.MDIO_STS_BUSY k) = false → s.commits (exec (.mdioGo k write phy r data) s) fun u =>
      u.flag (NET.MDIO_STS_BUSY k) = true ∧ u.flag (NET.MDIO_STS_DONE k) = false ∧ mget (fun _ => MdioCmd.none) u.net.mdio k = ⟨write, phy.val, r.val, data.toNat, s.now⟩ ∧
      RegsBut [NET.MDIO_CMD k, NET.MDIO_STS k] s u ∧ SameMem s u) ∧
    (s.flag (NET.MDIO_STS_BUSY k) = true → s.refuses (exec (.mdioGo k write phy r data) s) 8 (NET.MDIO_CMD k)) ∧
    (s.flag (NET.MDIO_STS_BUSY k) = true → (mget (fun _ => MdioCmd.none) s.net.mdio k).at' + 25600 ≤ now.now →
      ∃ s1 : State, exec (.mdioComplete k data t) s = .next (s1.fire 237) ∧ s1.flag (NET.MDIO_STS_BUSY k) = false ∧
        s1.flag (NET.MDIO_STS_DONE k) = true ∧ mget (fun _ => MdioCmd.none) s1.net.mdio k = MdioCmd.none ∧
        ((mget (fun _ => MdioCmd.none) s.net.mdio k).write = false → s1.fld (NET.MDIO_STS_DATA k) = data.toNat) ∧
        RegsBut [NET.MDIO_STS k] s s1 ∧ SameMem s s1) ∧
    s.commits (exec (.netClrCnt k) s) (fun u => (∀ q : Fin 2, u.regN (NET.RXCNT k q) = 0 ∧ u.regN (NET.TXCNT k q) = 0) ∧
      RegsBut [NET.NET_CLR k, NET.RXCNT k 0, NET.TXCNT k 0, NET.RXCNT k 1, NET.TXCNT k 1] s u ∧ SameMem s u) ∧
    s.commits (exec (.netClrErr k) s) (fun u => u.regN (NET.ERRCNT k 0) = 0 ∧ u.regN (NET.ERRCNT k 1) = 0 ∧ u.regN (NET.PTP_ERR k) = 0 ∧
      RegsBut [NET.NET_CLR k, NET.ERRCNT k 0, NET.ERRCNT k 1, NET.PTP_ERR k] s u ∧ SameMem s u)
  )

/-- R440, R441: an accepted frame enters its ring as the spec lays it out; an attempt takes the oldest entry, counts a lost arbitration or an
error, and gives a one-shot entry up; the acknowledgement; the error counters and the state they make. What a status entry reports of an
aborted frame and what EN leaves of the counters is the model's choice (assumption 106).
An event row happens at the instant it carries, and device time does not go back (assumption 5, the model's choice). -/
def Obligations.CanResults : Prop :=
  ∀ (s : State) (c : Fin 2) (id : BitVec 29) (ide rtr fdf brs esi : Bool) (dlc : BitVec 4) (data e : List Byte) (lec : Fin 7)
    (tec rec' sof t : Nat) (x : Ecc),
    let now := s.atTime t
    let f := s.canFilter c id.toNat ide
    let any := (upto 16).any fun i => s.flag (LINK.CAN_FLT_ID_EN c i)
    let tx := 13 + 2 * c.val
    let on := s.flag (LINK.CAN_CFG_EN c) = true ∧ s.fld (LINK.CAN_CFG_MODE c) ≠ 1 ∧ s.fld (LINK.CAN_STS_STATE c) ≠ 2 ∧ now.coreUp = true
    let st := if 256 ≤ tec then 2 else if 128 ≤ tec ∨ 128 ≤ rec' then 1 else 0
    let shown := fun (u : State) => u.fld (LINK.CAN_STS_TEC c) = min tec 255 ∧ u.fld (LINK.CAN_STS_REC c) = min rec' 255 ∧
      u.flag (LINK.CAN_STS_WARN c) = decide (96 ≤ tec ∨ 96 ≤ rec') ∧ u.fld (LINK.CAN_STS_LEC c) = lec
    let plus := fun (g : Fld) (u : State) => u.fld g = min (s.fld g + 1) (2 ^ g.width - 1)
    (now.coreUp = true → s.flag (LINK.CAN_CFG_EN c) = true → s.fld (LINK.CAN_STS_STATE c) ≠ 2 →
      fdf = false ∨ s.flag (LINK.CAN_CFG_FD_EN c) = true →
      (f ≠ none ∨ any = false → exec (.canFrameReceive c id ide rtr fdf brs esi dlc data sof t) s = .next (now.hwPush (12 + 2 * c)
        (leBytes 4 (sof % 2 ^ 32) ++ leBytes 4 (id.toNat + 2 ^ 29 * b2n ide + 2 ^ 30 * b2n rtr) ++ leBytes 1 dlc.toNat ++
          leBytes 1 (b2n fdf + 2 * b2n brs + 4 * b2n esi) ++ leBytes 1 0 ++ leBytes 1 (f.getD 255) ++ leBytes 4 0 ++
          padTo (canLen fdf rtr dlc.toNat) data))) ∧
      (f = none → any = true → exec (.canFrameReceive c id ide rtr fdf brs esi dlc data sof t) s = .next now)) ∧
    (on → (s.can c).cur = none → s.ringCnt tx ≠ 0 → Ends (exec (.canFrameSend c 0 lec ⟨t, .clean⟩) s) fun u =>
      (u.can c).cur = some (s.ringEntry tx (s.ringTail tx)) ∧ u.ringTail tx = (s.ringTail tx + 1) % 65536 ∧
      u.flag (LINK.CAN_STS_TX_BUSY c) = true ∧ SameMem s u) ∧
    (on → s.can c = ⟨some e, false, (s.can c).rec'⟩ →
      (bitB (frByte e 9) 3 = false →
        Ends (exec (.canFrameSend c 1 lec ⟨t, x⟩) s) (fun u => plus (LINK.CAN_ERR_RETX c) u ∧ u.flag (LINK.CAN_STS_TX_BUSY c) = true ∧
          (u.can c).cur = some e ∧ RegsBut [LINK.CAN_STS c, LINK.CAN_ERR c] s u ∧ SameMem s u) ∧
        Ends (exec (.canFrameSend c 2 lec ⟨t, x⟩) s) (fun u => plus (LINK.CAN_ERR_RETX c) u ∧ plus (LINK.CAN_ERR_ERRFR c) u ∧
          u.fld (LINK.CAN_STS_LEC c) = lec ∧ (u.can c).cur = some e ∧ RegsBut [LINK.CAN_STS c, LINK.CAN_ERR c] s u ∧ SameMem s u)) ∧
      (bitB (frByte e 9) 3 = true → ∃ s1 : State, exec (.canFrameSend c 1 lec ⟨t, x⟩) s = .next (s1.canAbort c e) ∧ (s1.can c).cur = none ∧
        s1.flag (LINK.CAN_STS_TX_BUSY c) = false ∧ RegsBut [LINK.CAN_STS c] s s1 ∧ SameMem s s1)) ∧
    ((s.can c).cur = some e → ∃ s1 : State, exec (.txDone c sof t) s = .next (if bitB (frByte e 9) 4
        then s1.canStatus c 2 (leNat ((e.drop 12).take 2)) (sof % 2 ^ 32) else s1) ∧ (s1.can c).cur = none ∧
      s1.flag (LINK.CAN_STS_TX_BUSY c) = false ∧ RegsBut [LINK.CAN_STS c] s s1 ∧ SameMem s s1) ∧
    (s.flag (LINK.CAN_CFG_EN c) = true → s.fld (LINK.CAN_STS_STATE c) ≠ 2 →
      (st = s.fld (LINK.CAN_STS_STATE c) → Ends (exec (.canStateChange c tec rec' lec t) s) fun u => shown u ∧
        RegsBut [LINK.CAN_STS c] s u ∧ SameMem s u) ∧
      (st ≠ s.fld (LINK.CAN_STS_STATE c) → ∃ s1 : State, exec (.canStateChange c tec rec' lec t) s =
          .next ((s1.canStatus c 1 (min tec 255 + 256 * min rec' 255) (now.now % 2 ^ 32)).fire (233 + c)) ∧ shown s1 ∧
        s1.fld (LINK.CAN_STS_STATE c) = st ∧ (st = 2 → plus (LINK.CAN_ERR_BUSOFF c) s1 ∧ s1.flag (LINK.CAN_STS_TX_BUSY c) = false) ∧
        RegsBut [LINK.CAN_STS c, LINK.CAN_ERR c] s s1 ∧ SameMem s s1))

/-- R442 to R445: a character joins the open receive entry, which closes on an error, at its third character or after an idle gap; the oldest
transmit entry starts when the characters before it have gone, and ends after DE_LAG; an SPI transfer ends with its bytes in SPI_RX. How a
break is counted and that DE stays high between entries (assumption 107), and that the bytes of SPI_RX beyond LEN stay (assumption 108), are
the model's choices.
R441, R444, R445: the enables of CAN and UART, whose fall empties the transmit ring, their clears, bus-off recovery and its refusal in
another state, and SPI_CMD.GO with its refusals. What EN leaves of a CAN's counters (assumption 106) and of a UART's open entry (assumption
107) is the model's choice.
A commit row is the commit of that one command by every voting lane (assumption 4, the model's reading).
An event row happens at the instant it carries, and device time does not go back (assumption 5, the model's choice). -/
def Obligations.SerialResults : Prop :=
  (
  ∀ (s : State) (u : Fin 4) (ch : Byte) (cs rx bs : List Byte) (a cs' len at' stamp t : Nat) (x : Ecc),
    let now := s.atTime t
    let got := if s.flag (LINK.UART_CFG_BITS7 u) then ch &&& 0x7F else ch
    let tx := 17 + 2 * u.val
    let e := s.ringEntry tx (s.ringTail tx)
    let n := frByte e 0
    let gapEnd := (s.uart u).rxAt + s.bitNs u (16 * s.fld (LINK.UART_CFG_IDLE u))
    let lag := if s.flag (LINK.UART_CFG_RS485 u) then s.bitNs u (s.fld (LINK.UART_CFG_DE_LAG u)) else 0
    (now.coreUp = true → s.flag (LINK.UART_CFG_EN u) = true → s.flag (LINK.UART_STS_DE u) = false →
      ((s.uart u).rx = none → Ends (exec (.uartCharacterReceive u ch false false false stamp t) s) fun w =>
        (w.uart u).rx = some (stamp % 2 ^ 32, [got]) ∧ w.flag (LINK.UART_STS_BREAK u) = false ∧
        RegsBut [LINK.UART_STS u] s w ∧ SameMem s w) ∧
      ((s.uart u).rx = some (a, cs) → cs.length = 1 → Ends (exec (.uartCharacterReceive u ch false false false stamp t) s) fun w =>
        (w.uart u).rx = some (a, cs ++ [got]) ∧ RegsBut [LINK.UART_STS u] s w ∧ SameMem s w) ∧
      ((s.uart u).rx = some (a, cs) → cs.length = 2 → ∃ s1 : State, exec (.uartCharacterReceive u ch false false false stamp t) s =
        .next (s1.uartClose u 0) ∧ (s1.uart u).rx = some (a, cs ++ [got]) ∧ RegsBut [LINK.UART_STS u] s s1 ∧ SameMem s s1) ∧
      ((s.uart u).rx = some (a, cs) → ∃ s1 : State, exec (.uartCharacterReceive u ch false true false stamp t) s =
        .next (s1.uartClose u 8) ∧ (s1.uart u).rx = some (a, cs ++ [got]) ∧
        s1.fld (LINK.UART_ERR_FRAMING u) = min (s.fld (LINK.UART_ERR_FRAMING u) + 1) 255 ∧ SameMem s s1)) ∧
    ((s.uart u).rx = none ∨ now.now < gapEnd → exec (.uartIdleGap u t) s = .next now) ∧
    (gapEnd ≤ now.now → (s.uart u).rx = some (a, cs) → s.ringCnt (16 + 2 * u.val) < s.ringSize (16 + 2 * u.val) → ∃ s1 : State,
      exec (.uartIdleGap u t) s = .next (s1.hwPush (16 + 2 * u.val) (leBytes 4 a ++ leBytes 1 (cs.length + 32) ++ padTo 3 cs)) ∧
      (s1.uart u).rx = none ∧ s1.regs = s.regs ∧ SameMem s s1) ∧
    ((s.uart u).tx = some cs → s.charsEnd u cs.length + lag ≤ now.now → Ends (exec (.uartSend u true ⟨t, x⟩) s) fun w => (w.uart u).tx = none ∧
      w.flag (LINK.UART_STS_TX_BUSY u) = false ∧ w.flag (LINK.UART_STS_DE u) = false ∧ RegsBut [LINK.UART_STS u] s w ∧ SameMem s w) ∧
    ((∀ ds, (s.uart u).tx = some ds → s.charsEnd u ds.length ≤ now.now) → s.flag (LINK.UART_CFG_EN u) = true → now.coreUp = true →
      s.ringCnt tx ≠ 0 → 1 ≤ n → n ≤ 7 →
      Ends (exec (.uartSend u false ⟨t, .clean⟩) s) fun w => (w.uart u).tx = some ((e.drop 1).take n) ∧
        w.ringTail tx = (s.ringTail tx + 1) % 65536 ∧ w.flag (LINK.UART_STS_TX_BUSY u) = true ∧
        (w.uart u).txAt = (if (s.uart u).tx.isSome ∨ s.flag (LINK.UART_CFG_RS485 u) = false then now.now
          else now.now + s.bitNs u (s.fld (LINK.UART_CFG_DE_LEAD u))) ∧
        w.flag (LINK.UART_STS_DE u) = s.flag (LINK.UART_CFG_RS485 u) ∧ SameMem s w) ∧
    (s.link.spi = some (cs', len, bs, at') → at' + 1000 + (16 * len + 3) * 5 * (s.fld LINK.SPI_CFG_DIV + 1) ≤ now.now → len ≤ 8 →
      rx.length = len → ∃ s1 : State, exec (.spiComplete rx t) s = .next (s1.fire 236) ∧
      leBytes 4 (s1.regN LINK.SPI_RX0) ++ leBytes 4 (s1.regN LINK.SPI_RX1) =
        rx ++ (leBytes 4 (s.regN LINK.SPI_RX0) ++ leBytes 4 (s.regN LINK.SPI_RX1)).drop len ∧
      s1.flag LINK.SPI_STS_BUSY = false ∧ s1.flag LINK.SPI_STS_DONE = true ∧ s1.link.spi = none ∧
      s1.fld LINK.SPI_STS_COUNT = (s.fld LINK.SPI_STS_COUNT + 1) % 2 ^ LINK.SPI_STS_COUNT.width ∧
      RegsBut [LINK.SPI_RX0, LINK.SPI_RX1, LINK.SPI_STS] s s1 ∧ SameMem s s1)
  ) ∧
  (
  ∀ (s : State) (c : Fin 2) (u : Fin 4) (sel : Fin 4) (len : Fin 16),
    (s.flag (LINK.CAN_CFG_FD_EN c) = false → s.commits (exec (.canEn c true) s) fun w => w.flag (LINK.CAN_CFG_EN c) = true ∧
      RegsBut [LINK.CAN_CFG c] s w ∧ SameMem s w) ∧
    (s.flag (LINK.CAN_CFG_FD_EN c) = false → s.flag (LINK.CAN_CFG_EN c) = true → s.commits (exec (.canEn c false) s) fun w =>
      w.flag (LINK.CAN_CFG_EN c) = false ∧ w.ringCnt (13 + 2 * c.val) = 0 ∧ w.mram = s.mram) ∧
    (s.fld (LINK.CAN_STS_STATE c) = 2 → s.commits (exec (.canClrRec c) s) fun w => (w.can c).rec' = true ∧
      RegsBut [LINK.CAN_CLR c] s w ∧ SameMem s w) ∧
    (s.fld (LINK.CAN_STS_STATE c) ≠ 2 → s.refuses (exec (.canClrRec c) s) 8 (LINK.CAN_CLR c)) ∧
    s.commits (exec (.canClrErr c) s) (fun w => w.regN (LINK.CAN_ERR c) = 0 ∧ RegsBut [LINK.CAN_CLR c, LINK.CAN_ERR c] s w ∧
      SameMem s w) ∧
    s.commits (exec (.uartEn u true) s) (fun w => w.flag (LINK.UART_CFG_EN u) = true ∧ RegsBut [LINK.UART_CFG u] s w ∧ SameMem s w) ∧
    (s.flag (LINK.UART_CFG_EN u) = true → s.commits (exec (.uartEn u false) s) fun w => w.flag (LINK.UART_CFG_EN u) = false ∧
      w.ringCnt (17 + 2 * u.val) = 0 ∧ w.mram = s.mram) ∧
    s.commits (exec (.uartClr u) s) (fun w => w.regN (LINK.UART_ERR u) = 0 ∧ RegsBut [LINK.UART_CLR u, LINK.UART_ERR u] s w ∧
      SameMem s w) ∧
    (1 ≤ len.val → len.val ≤ 8 → sel ≠ 3 →
      (s.flag LINK.SPI_STS_BUSY = false → s.commits (exec (.spiGo sel len) s) fun w => w.flag LINK.SPI_STS_BUSY = true ∧
        w.flag LINK.SPI_STS_DONE = false ∧
        w.link.spi = some (sel.val, len.val, (leBytes 4 (s.regN LINK.SPI_TX0) ++ leBytes 4 (s.regN LINK.SPI_TX1)).take len, s.now) ∧
        RegsBut [LINK.SPI_CMD, LINK.SPI_STS] s w ∧ SameMem s w) ∧
      (s.flag LINK.SPI_STS_BUSY = true → s.refuses (exec (.spiGo sel len) s) 8 LINK.SPI_CMD)) ∧
    (len.val = 0 ∨ 8 < len.val → s.refuses (exec (.spiGo sel len) s) 1 LINK.SPI_CMD)
  )

/-- R446 to R448: a read answers every word, 0 for one that the host may not read, which counts and sets ERR; an unaligned access does nothing
else; the status byte, whose read clears ERR; on four lines the same. That every word denied counts once, and that the status byte's READY
is RANGE.STS.READY, is the model's choice (assumption 109).
An event row happens at the instant it carries, and device time does not go back (assumption 5, the model's choice). -/
def Obligations.HostReadResults : Prop :=
  ∀ (s : State) (a : BitVec 24) (ws : List Word) (part : Bool) (n t : Nat) (x : Ecc),
    let word := fun (i : Nat) => s.hostWord ((a.toNat + 4 * i) % 2 ^ 24)
    let bad := ((List.range n).filter fun i => (word i).isNone).length
    let trans := fun (u : State) => u.fld HOSTIF.HSTS_TRANS = (s.fld HOSTIF.HSTS_TRANS + 1) % 65536
    (s.atTime t).coreUp = true →
    (a.toNat % 4 = 0 → Ends (exec (.hostRead a n ⟨t, .clean⟩) s) fun u => u.host.out = (List.range n).map (fun i => (word i).getD 0 % 2 ^ 32) ∧
      u.host.err = decide (bad ≠ 0) ∧ u.fld HOSTIF.HERR_DENIED = min (s.fld HOSTIF.HERR_DENIED + bad) 255 ∧ trans u ∧
      RegsBut [HOSTIF.HSTS, HOSTIF.HERR] s u ∧ SameMem s u) ∧
    (a.toNat % 4 ≠ 0 →
      Ends (exec (.hostRead a n ⟨t, x⟩) s) (fun u => u.host.err = true ∧ u.host.out = [] ∧ trans u ∧
        u.fld HOSTIF.HERR_ALIGN = min (s.fld HOSTIF.HERR_ALIGN + 1) 255 ∧ RegsBut [HOSTIF.HSTS, HOSTIF.HERR] s u ∧ SameMem s u) ∧
      Ends (exec (.hostWrite a ws part t) s) (fun u => u.host.err = true ∧ trans u ∧
        u.fld HOSTIF.HERR_ALIGN = min (s.fld HOSTIF.HERR_ALIGN + 1) 255 ∧ RegsBut [HOSTIF.HSTS, HOSTIF.HERR] s u ∧ SameMem s u)) ∧
    Ends (exec (.hostStatus t) s) (fun u => u.host.out = [b2n s.host.err + 2 * b2n s.host.cmd.isSome +
      4 * b2n (s.flag RANGE.STS_READY) + 128 * b2n (s.flag HOSTIF.HSTS_HIRQ)] ∧ u.host.err = false ∧ trans u ∧
      RegsBut [HOSTIF.HSTS] s u ∧ SameMem s u) ∧
    (∃ u, exec (.hostQuadRead a n ⟨t, x⟩) s = .next u ∧ exec (.hostRead a n ⟨t, x⟩) s = .next u) ∧
    (∃ u, exec (.hostQuadWrite a ws part t) s = .next u ∧ exec (.hostWrite a ws part t) s = .next u)

/-- R9, R447 to R449: what the host may write: LTR, HEAD and TAIL of its rings, the provisioning buffer; a move that the ring cannot take, a
ring that is not the host's and a place outside the windows count in HERR and write nothing; a head beyond the free entries also sets OVF
and counts in DROPS, and a BLOCK ring then waits. Which error each of these counts is the model's choice (assumption 109).
R103, R450: a provisioning command that may run is taken and runs; one that may not leaves FAILED with its cause; the end of a command
writes its key, revocation, block or active bank and nothing else of MRAM, or fails with WRITE; the clear of HERR. What a command reports
outside provisioning is the model's choice (assumption 110).
A commit row is the commit of that one command by every voting lane (assumption 4, the model's reading).
An event row happens at the instant it carries, and device time does not go back (assumption 5, the model's choice). -/
def Obligations.HostWriteResults : Prop :=
  (
  ∀ (s : State) (a : BitVec 24) (v : Word) (r : BitVec 6) (j t : Nat),
    let n := r.toNat
    let w := v.toNat % 65536
    let one := fun (c : Instr) (p : State → Prop) => Ends (exec c s) fun u => p u ∧
      u.fld HOSTIF.HSTS_TRANS = (s.fld HOSTIF.HSTS_TRANS + 1) % 65536 ∧ SameMem s u
    let failed := fun (c : Instr) (f : Fld) => one c fun u => u.host.err = true ∧ u.fld f = min (s.fld f + 1) 255 ∧
      RegsBut [HOSTIF.HSTS, HOSTIF.HERR] s u
    (s.atTime t).coreUp = true →
    (exitUs s.power ≤ v.toNat → one (.hostLtrWrite v t) fun u => u.reg SYS.LTR = v ∧ u.host.ltr = some v.toNat ∧ u.host.err = false ∧
      RegsBut [SYS.LTR, HOSTIF.HSTS] s u) ∧
    (a.toNat = 0x2000 + 4 * j → j < 64 → s.provOn = true → one (.hostWrite a [v] false t) fun u =>
      u.host.buf = wrLE s.host.buf (4 * j) 4 v.toNat ∧ u.host.err = false ∧ RegsBut [HOSTIF.HSTS] s u) ∧
    (a.toNat % 4 = 0 → a.toNat < 8 → failed (.hostWrite a [v] false t) HOSTIF.HERR_DENIED) ∧
    (isHostRing n = true →
      (s.hostProduces n = true → s.flag (RINGS.RING_CFG_EN n) = true → ringDiff w (s.ringHead n) < 32768 →
        ringDiff w (s.ringTail n) ≤ s.ringSize n → ∃ s1 : State, exec (.hostHeadWrite r v t) s =
            .next ((s1.ringSet n w (s.ringTail n)).hirqShow) ∧ s1.host.err = false ∧ RegsBut [HOSTIF.HSTS] s s1 ∧ SameMem s s1) ∧
      (s.hostProduces n = true → s.flag (RINGS.RING_CFG_EN n) = true → ringDiff w (s.ringHead n) < 32768 →
        s.ringSize n < ringDiff w (s.ringTail n) → ∃ s1 : State, exec (.hostHeadWrite r v t) s = .next s1.hirqShow ∧ s1.host.err = true ∧
          s1.fld HOSTIF.HERR_RING = min (s.fld HOSTIF.HERR_RING + 1) 255 ∧ s1.regN (RINGS.RING_DROPS n) = min (s.regN (RINGS.RING_DROPS n) + 1) (2 ^ 32 - 1) ∧
          s1.flag (RINGS.RING_STS_OVF n) = true ∧ s1.ringHead n = s.ringHead n ∧ s1.ringTail n = s.ringTail n ∧
          s1.flag (RINGS.RING_STS_WAITING n) = (decide (s.fld (RINGS.RING_CFG_POLICY n) = 2) || s.flag (RINGS.RING_STS_WAITING n)) ∧ SameMem s s1) ∧
      (s.hostProduces n = true → 32768 ≤ ringDiff w (s.ringHead n) → failed (.hostHeadWrite r v t) HOSTIF.HERR_RING) ∧
      (s.hostConsumes n = true → ringDiff w (s.ringTail n) ≤ s.ringCnt n → ∃ s1 : State, exec (.hostTailWrite r v t) s =
            .next ((s1.ringSet n (s.ringHead n) w).hirqShow.hirqShow) ∧ s1.host.err = false ∧ RegsBut [HOSTIF.HSTS] s s1 ∧
          SameMem s s1) ∧
      (s.hostConsumes n = true → s.ringCnt n < ringDiff w (s.ringTail n) → failed (.hostTailWrite r v t) HOSTIF.HERR_RING)) ∧
    (isHostRing n = false → failed (.hostHeadWrite r v t) HOSTIF.HERR_DENIED ∧ failed (.hostTailWrite r v t) HOSTIF.HERR_DENIED)
  ) ∧
  (
  ∀ (s : State) (sel : Fin 4) (off : BitVec 22) (op x o t : Nat),
    let ks := rdLE s.mram 8 4
    let taken := fun (c : Instr) (e : Nat × Nat × Nat) => Ends (exec c s) fun u => u.host.cmd = some e ∧ u.host.psts = 1 ∧
      u.host.pcause = 0 ∧ RegsBut [HOSTIF.HSTS] s u ∧ SameMem s u
    let fails := fun (c : Instr) (cause : Nat) => Ends (exec c s) fun u => u.host.cmd = none ∧ u.host.psts = 3 ∧ u.host.pcause = cause ∧
      RegsBut [HOSTIF.HSTS] s u ∧ SameMem s u
    let ends := fun (ok : Bool) (psts cause : Nat) (m : List Host.Cell) => Ends (exec (.provisioningComplete ok t) s) fun u =>
      u.host.cmd = none ∧ u.host.psts = psts ∧ u.host.pcause = cause ∧ u.mram = m ∧ u.regs = s.regs ∧ u.sram = s.sram
    ((s.atTime t).coreUp = true → s.host.cmd = none →
      (s.provOn = true →
        (bitB ks (8 + sel) = false → bitB ks sel = false → taken (.keyWrite sel t) (1, sel.val, 0)) ∧
        (bitB ks (8 + sel) = true → fails (.keyWrite sel t) 3) ∧
        (bitB ks (8 + sel) = false → bitB ks sel = true → fails (.keyWrite sel t) 2) ∧
        taken (.keyRevoke sel t) (2, sel.val, 0) ∧
        (sel.val < 2 → off.toNat % 256 = 0 → taken (.bankWrite sel off t) (3, sel.val, off.toNat)) ∧
        (sel.val < 2 → taken (.bankCheck sel t) (4, sel.val, 0)) ∧
        (sel.val < 2 → bitB s.host.checked sel = true → taken (.setActive sel t) (5, sel.val, 0)) ∧
        (sel.val < 2 → bitB s.host.checked sel = false → fails (.setActive sel t) 5) ∧
        (2 ≤ sel.val → fails (.bankWrite sel off t) 4 ∧ fails (.bankCheck sel t) 4 ∧ fails (.setActive sel t) 4)) ∧
      (s.provOn = false → fails (.keyRevoke sel t) 1)) ∧
    (s.host.cmd = some (op, x, o) →
      (op = 1 → ends true 2 0 (wrLE (wrBytes s.mram (0x40 + 64 * (x % 4)) (rdBytes s.host.buf 0 64)) 8 4 (setBits ks x 1 1))) ∧
      (op = 2 → ends true 2 0 (wrLE s.mram 8 4 (setBits ks (8 + x) 1 1))) ∧
      (op = 3 → ends true 2 0 (wrBytes s.mram (imgBase x + blockOff o) (rdBytes s.host.buf 0 256))) ∧
      (op = 4 → ends true (if s.bankOk x then 2 else 3) (if s.bankOk x then 0 else 5) s.mram) ∧
      (op = 5 → ends true 2 0 (wrLE s.mram 0 4 x)) ∧
      (op ≠ 4 → ends false 3 6 s.mram)) ∧
    s.commits (exec .hclr s) (fun u => u.regN HOSTIF.HERR = 0 ∧ RegsBut [HOSTIF.HCLR, HOSTIF.HERR] s u ∧ SameMem s u)
  )

/-- R457, R458, R461, R463, R464, R471: a CLAIM round that fails is counted and lost, and one that completes is won by the greater claim; take,
pass, idle and partner pulses on HOLDFAST; heartbeats sent and heard; isolation 6 ms after an abrupt takeover. How long a failed round
lasts, which pulses are contention, that the lines show nothing in SOLO and when a take word has ended are the model's choices (assumptions
38, 120 and 121).
An event row happens at the instant it carries, and device time does not go back (assumption 5, the model's choice). -/
def Obligations.ClaimResults : Prop :=
  ∀ (s : State) (rival : BitVec 8) (base : BitVec 7) (good ready : Bool) (a t : Nat),
    let now := s.atTime t
    let own := if s.claims' then s.claimNo else 0
    let st := fun (u : State) => RegsBut [RANGE.STS] s u ∧ SameMem s u
    let settles := fun (c : Instr) (p : State → Prop) => ∃ s1 : State, exec c s = .next s1.fieldSettle ∧ p s1 ∧ SameMem s s1
    (s.rangeState ≠ 0 → (∀ r, s.range.roundAt = some r → r + 50000 ≤ now.now) →
      settles (.claimRound rival false t) (fun u => u.fld RANGE.ERR_ROUND = min (s.fld RANGE.ERR_ROUND + 1) 255 ∧
        u.flag RANGE.STS_HOLDS_CLAIM = false ∧ u.fld RANGE.STS_BUS = s.fld RANGE.STS_BUS) ∧
      settles (.claimRound rival true t) (fun u => u.fld RANGE.STS_BUS = max own rival.toNat ∧
        u.flag RANGE.STS_HOLDS_CLAIM = (s.claims' && decide (rival.toNat ≤ own)))) ∧
    (s.rangeState ≠ 0 →
      (s.flag RANGE.STS_HOLDS_HF = false → Ends (exec (.holdPatternPulse t) s) fun u => u.flag RANGE.STS_HF_SEEN = true ∧
        u.range.idle = false ∧ st u) ∧
      (s.flag RANGE.STS_HOLDS_HF = true → s.rangeState ≠ 3 → s.range.passed = false → s.range.passEnd < now.now →
      settles (.holdPatternPulse t) fun u =>
        u.fld RANGE.ERR_HF = min (s.fld RANGE.ERR_HF + 1) 255 ∧ u.flag RANGE.STS_HOLDS_HF = false ∧ u.range.idle = false)) ∧
    (s.rangeState = 0 → exec (.claimRound rival good t) s = .next now) ∧
    (s.rangeState = 4 → s.range.idle = true → s.flag RANGE.STS_HOLDS_HF = false → s.hoistGates = true → s.range.lowAt + 116000 ≤ now.now →
      s.range.stAt + 16000 ≤ now.now → (∀ b, s.range.takeAt = some b → t ≤ b + 6000000) →
      (base.toNat ≤ s.fld RANGE.STS_BASE → settles (.holdfastTake base t) fun u => u.flag RANGE.STS_HOLDS_HF = true ∧
        u.range.idle = false) ∧
      (s.fld RANGE.STS_BASE < base.toNat → Ends (exec (.holdfastTake base t) s) fun u => u.flag RANGE.STS_HOLDS_HF = false ∧
        u.flag RANGE.STS_HF_SEEN = true ∧ u.range.idle = false ∧ st u)) ∧
    (s.rangeState = 5 → s.range.quit = true → s.flag RANGE.STS_HOLDS_HF = true → Ends (exec (.holdfastPass t) s) fun u =>
      u.range.passed = true ∧ u.regs = s.regs ∧ SameMem s u) ∧
    (s.rangeState = 3 → s.flag RANGE.STS_HOLDS_HF = false → settles (.holdfastPass t) fun u => u.flag RANGE.STS_HOLDS_HF = true ∧
      u.range.idle = false) ∧
    (s.rangeState ≠ 0 → s.flag RANGE.STS_HOLDS_HF = false → s.range.lowAt + 100000 ≤ now.now →
      Ends (exec (.holdfastIdle t) s) fun u => u.range.idle = true ∧
      u.flag RANGE.STS_HF_SEEN = false ∧ st u) ∧
    (s.paired = true → (∀ b, s.range.beat = some b → b.1 + 50000 ≤ now.now) →
      Ends (exec (.rangeHeartbeat t) s) fun u => u.range.beat = some (now.now, s.flag RANGE.STS_READY) ∧
        u.regs = s.regs ∧ SameMem s u) ∧
    (s.paired = true →
      Ends (exec (.linkHeartbeatReceive false ready t) s) fun u => u.fld RANGE.ERR_CRC = min (s.fld RANGE.ERR_CRC + 1) 255 ∧
        RegsBut [RANGE.ERR] s u ∧ u.range = s.range ∧ SameMem s u) ∧
    (s.rangeState = 2 → s.flag RANGE.STS_LINK_LOST = false → Ends (exec (.linkHeartbeatReceive true ready t) s) fun u =>
      u.flag RANGE.STS_P_READY = ready ∧ u.range.wasReady = u.flag RANGE.STS_READY ∧ u.range.linkAt = some now.now ∧
      u.range.heard = true ∧ st u) ∧
    (s.range.takeAt = some a → s.rangeState = 4 → s.flag RANGE.STS_HOLDS_HF = false → a + 6000000 ≤ now.now →
      ∃ s1 : State, exec (.isolated t) s = .next ((s1.rangeTo 6 4).fieldSettle) ∧ s1.range.takeAt = none ∧ s1.regs = s.regs ∧ SameMem s s1)

/-- R456, R462 to R464, R467, R484: a stream record is shown, counted against its predecessor and entered in ring 28, its XFER words in ring 29;
a lost path makes its entry, and both are partner loss; equal base claims lead to DUP; TAKE, which sets CH_OUT to the partner's mirror,
HANDOVER and CLR with their refusals, that of TAKE within 100 ms of a HEART that reports duty among them. That the exchange of base claims
is a good word, that TAKE uses the mirror at its item and that a loss of the link makes the last records incomplete are the model's choices
(assumptions 38, 120 and 121).
A commit row is the commit of that one command by every voting lane (assumption 4, the model's reading).
An event row happens at the instant it carries, and device time does not go back (assumption 5, the model's choice). -/
def Obligations.RangeStreamResults : Prop :=
  ∀ (s : State) (tide mirror hash : Word) (outcome mode st : BitVec 8) (hand : Bool) (digest : List Byte) (mask : BitVec 14)
    (words : List Word) (base : BitVec 7) (d t : Nat),
    let now := s.atTime t
    let heartLim := (s.fld RANGE.CFG_HB_LLP_N * s.fld LLP.CYCLE_CYCLE + s.fld LLP.TIMING_TRANSIT + s.fld LLP.TIMING_SKEW_WIN) * 1000
    let heart := s.stream (128 + s.fld RANGE.CFG_PARTNER) 2
    let late := fun (path : Fin 2) => if path.val = 0 then (s.range.linkAt.getD s.range.enAt) + 250000 ≤ now.now
      else (if heart.last.isSome then heart.stamp else s.range.enAt) + heartLim < now.now
    let lost := fun (path : Fin 2) => if path.val = 0 then RANGE.STS_LINK_LOST else RANGE.STS_LLP_LOST
    (s.paired = true →
      Ends (exec (.streamRecord false tide outcome mode st hand mirror digest mask words t) s) (fun u =>
        u.fld RANGE.ERR_CRC = min (s.fld RANGE.ERR_CRC + 1) 255 ∧ u.range.recs = 0 ∧ RegsBut [RANGE.ERR, RANGE.STS] s u ∧ SameMem s u) ∧
      (s.rangeState ≠ 1 → ∃ (s1 : State) (e : List Byte), exec (.streamRecord true tide outcome mode st hand mirror digest mask words t) s =
          .next (let u := s1.hwPush 28 (leBytes 4 tide.toNat ++ leBytes 1 outcome.toNat ++ leBytes 1 mode.toNat ++ leBytes 1 st.toNat ++
            leBytes 1 (b2n hand) ++ leBytes 4 mirror.toNat ++ leBytes 4 (now.now % 2 ^ 32) ++ padTo 32 digest)
          (if mask = 0 then u else u.hwPush 29 e).readyShow) ∧ e.take 8 = leBytes 4 tide.toNat ++ leBytes 4 mask.toNat ∧
        s1.reg RANGE.PTIDE = tide ∧ s1.reg RANGE.MIRROR = mirror ∧ s1.range.pSt = st.toNat % 16 ∧ s1.range.pMode = mode.toNat % 16 ∧
        s1.range.linkAt = some now.now ∧
        s1.fld RANGE.ERR_GAP = (if s.range.recSeen then min (s.fld RANGE.ERR_GAP + (tide - s.reg RANGE.PTIDE - 1).toNat) 255
          else s.fld RANGE.ERR_GAP) ∧ RegsBut [RANGE.PTIDE, RANGE.MIRROR, RANGE.ERR] s s1 ∧ SameMem s s1) ∧
      (∀ path : Fin 2, late path → s.flag (lost path) = false → s.flag (lost (1 - path)) = false → ∃ s1 : State,
        exec (.pathLost path t) s = .next ((s1.hwPush 30 (leBytes 4 (now.now % 2 ^ 32) ++ leBytes 1 path.val ++ leBytes 1 1)).fire 241) ∧
        s1.flag (lost path) = true ∧ (path.val = 0 → s1.range.recs = 0 ∧ s1.flag RANGE.STS_READY = false) ∧ RegsBut [RANGE.STS] s s1 ∧ SameMem s s1) ∧
      (∀ path : Fin 2, late path → s.flag (lost path) = false → s.flag (lost (1 - path)) = true → s.range.heard = true →
        Ends (exec (.pathLost path t) s) fun u => u.range.loss = some now.now ∧ u.flag (lost path) = true) ∧
      (s.range.swapped = false →
        (base.toNat = s.fld RANGE.STS_BASE → ∃ s1 : State, exec (.baseClaimExchange base hash t) s = .next ((s1.rangeTo 7 6).fieldSettle) ∧
          s1.range.hash = some hash.toNat ∧ s1.regs = s.regs ∧ SameMem s s1) ∧
        (base.toNat ≠ s.fld RANGE.STS_BASE → Ends (exec (.baseClaimExchange base hash t) s) fun u => u.range.hash = some hash.toNat ∧
          u.range.swapped = true ∧ u.range.linkAt = some now.now ∧ (s.rangeState = 1 → u.rangeState = 2) ∧
          (s.rangeState ≠ 1 → RegsBut [RANGE.STS] s u ∧ SameMem s u)))) ∧
    (s.rangeState = 1 ∨ s.rangeState = 2 → (∀ d, s.dutyAt = some d → d + 100000000 < s.now) →
      s.commits (exec .take s) fun u => u.rangeState = 4 ∧ u.range.latch = none ∧ u.mram = s.mram ∧
        (∀ n : Fin 32, u.flag (FIELD.CH_OUT_ON n) = (match s.mirrorOf with
          | some m => bitB m n
          | none => s.flag (FIELD.CH_OUT_ON n)))) ∧
    (s.dutyAt = some d → s.now ≤ d + 100000000 → s.refuses (exec .take s) 8 RANGE.CTL) ∧
    (s.rangeState = 0 ∨ 3 ≤ s.rangeState → s.refuses (exec .take s) 8 RANGE.CTL) ∧
    (s.rangeState = 4 → s.flag RANGE.STS_P_READY = true → s.commits (exec .handover s) fun u => u.rangeState = 5 ∧
      u.range.latch = some s.chOuts ∧ u.range.quit = false ∧ u.mram = s.mram) ∧
    (s.rangeState ≠ 4 ∨ s.flag RANGE.STS_P_READY = false → s.refuses (exec .handover s) 8 RANGE.CTL) ∧
    (s.rangeState ≠ 6 → s.commits (exec .rangeClr s) fun u => u.regN RANGE.ERR = 0 ∧ RegsBut [RANGE.CTL, RANGE.ERR] s u ∧ SameMem s u) ∧
    (s.rangeState = 6 → s.commits (exec .rangeClr s) fun u => u.regN RANGE.ERR = 0 ∧ u.rangeState = 2 ∧ u.mram = s.mram)

/-- R474 to R478, R480 to R482: a segment that completes in its slot is counted in the pass or the request, and one that fails reports; the
scrub, the hash of the body, a late pass; a request for a test with its refusals; the clears and the snapshot of counters.
A commit row is the commit of that one command by every voting lane (assumption 4, the model's reading).
An event row happens at the instant it carries, and device time does not go back (assumption 5, the model's choice). -/
def Obligations.HealthResults : Prop :=
  ∀ (s : State) (l : Lane) (area : Fin 7) (kind : BitVec 3) (r : BitVec 2) (m : Word) (i : Fin 32) (t : Nat),
    let now := s.atTime t
    let key := 16 * l.val + area.val
    let n := mget zeroNat s.tests.segs key
    let b := imgBase s.img.bank
    let failed := fun (c : Instr) (lane ar seg : Nat) (p : State → Prop) => ∃ s1 : State, exec c s =
        .next ((s1.ring49 lane ar 1 seg).fire 245) ∧ s1.fld HEALTH.ST_FAIL_CNT = min (s.fld HEALTH.ST_FAIL_CNT + 1) 255 ∧
      s1.fld HEALTH.ST_FAIL_AREA = ar ∧ s1.fld HEALTH.ST_FAIL_LANE = lane ∧ p s1 ∧ SameMem s s1
    let sumIs := sha256 (rdBytes s.mram (b + 0x100) (s.hdr s.img.bank 0x24 4)) = beNat (rdBytes s.mram (b + 0x40) 32)
    (s.tests.slot = some l.val → now.segDue = true → area.val ≠ 0 → s.tests.req = none → s.flag HEALTH.ST_CFG_EN = true →
      n < areaSegs area →
      (n + 1 < areaSegs area → Ends (exec (.segmentComplete l area true t) s) fun u => mget zeroNat u.tests.segs key = n + 1 ∧ u.tests.segAt = now.now ∧
        RegsBut [HEALTH.ST_STS] s u ∧ SameMem s u) ∧
      ∃ s1 : State, exec (.segmentComplete l area false t) s = .next ((((s1.ring49 l area 1 n).fire 245).onTests fun x =>
          { x with failed := setBits x.failed l 1 1 })) ∧
        s1.fld HEALTH.ST_FAIL_CNT = min (s.fld HEALTH.ST_FAIL_CNT + 1) 255 ∧ s1.fld HEALTH.ST_FAIL_AREA = area ∧
        s1.fld HEALTH.ST_FAIL_LANE = l ∧ RegsBut [HEALTH.ST_FAIL] s s1 ∧ SameMem s s1) ∧
    (now.coreUp = true → s.tests.scrubAt + 600000000000 ≤ now.now →
      Ends (exec (.sramScrub 0 true t) s) (fun u => u.tests = { s.tests with scrubAt := now.now } ∧ u.regs = s.regs ∧ SameMem s u) ∧
      (∃ s1 : State, exec (.sramScrub 1 true t) s = .next (s1.fire 183) ∧ s1.tests.ecc = s.tests.ecc + 1 ∧ s1.regs = s.regs ∧
      SameMem s s1) ∧
      failed (.sramScrub 0 false t) 3 8 0 (fun u => RegsBut [HEALTH.ST_FAIL] s u)) ∧
    (now.now < s.tests.scrubAt + 600000000000 → exec (.sramScrub 0 true t) s = .next now) ∧
    (now.coreUp = true → s.img.valid = true → s.tests.hashAt + 3600000000000 ≤ now.now →
      (sumIs → Ends (exec (.mramHash t) s) fun u => u.tests = { s.tests with hashAt := now.now } ∧ u.regs = s.regs ∧ SameMem s u) ∧
      (¬ sumIs → failed (.mramHash t) 3 9 0 fun u => u.flag HEALTH.ST_STS_IMG_BAD = true ∧
        RegsBut [HEALTH.ST_FAIL, HEALTH.ST_STS] s u)) ∧
    (s.tests.passAt + 3600000000000 ≤ now.now → s.sys.phase = 2 → Ends (exec (.selftestLate t) s) fun u =>
      u.flag HEALTH.ST_STS_LATE = true ∧ RegsBut [HEALTH.ST_STS] s u ∧ SameMem s u) ∧
    (1 ≤ kind.toNat → kind.toNat ≤ 3 → r ≠ 3 →
      (s.tests.req = none → s.commits (exec (.stReq kind r) s) fun u => u.tests.req = some (kind.toNat, r.toNat) ∧
        u.flag HEALTH.ST_STS_QUEUED = true ∧ u.flag HEALTH.ST_STS_DEFERRED = s.anyOut ∧
        RegsBut [HEALTH.ST_REQ, HEALTH.ST_STS] s u ∧ SameMem s u) ∧
      (s.tests.req ≠ none → s.refuses (exec (.stReq kind r) s) 8 HEALTH.ST_REQ)) ∧
    (kind.toNat = 0 ∨ 3 < kind.toNat ∨ r = 3 → s.refuses (exec (.stReq kind r) s) 1 HEALTH.ST_REQ) ∧
    s.commits (exec (.cntClr m) s) (fun u => u.cnt48 (HEALTH.CNT_LO i) = (if m.getLsbD i then 0 else s.cnt48 (HEALTH.CNT_LO i)) ∧
      SameMem s u) ∧
    (∀ k : Fin 24, m.getLsbD k = true → s.commits (exec (.lcntClr m) s) fun u => u.cnt48 (HEALTH.LCNT_LO (k / 8) (k % 8)) = 0 ∧
      u.sram = s.sram ∧ u.mram = s.mram) ∧
    s.commits (exec (.cntSnap 0) s) (fun u => RegsBut [HEALTH.CNT_SNAP] s u ∧ SameMem s u) ∧
    s.commits (exec (.cntSnap (BitVec.twoPow 32 i)) s) (fun u => ∃ s1 : State, RegsBut [HEALTH.CNT_SNAP] s s1 ∧ SameMem s s1 ∧
      u = s1.hwPush 50 (leBytes 4 (s.now % 2 ^ 32) ++ leBytes 1 i ++ leBytes 3 0 ++ leBytes 6 (s.cnt48 (HEALTH.CNT_LO i))))

/-- R486 to R490, R493 to R496: a mode that may be committed is entered with PREV and CAUSE, one beyond the table or not reachable is refused;
an event, LTR, the WAKE ball and the alarm wake from P2, PWR_STS.SRC being that of the last event wake, and the ball and the alarm start up
from P4, where the straps are latched anew (the model's choice, assumption 132); the lanes after P3.
A commit row is the commit of that one command by every voting lane (assumption 4, the model's reading).
An event row happens at the instant it carries, and device time does not go back (assumption 5, the model's choice). -/
def Obligations.ModeAndWakeResults : Prop :=
  ∀ (s : State) (v : BitVec 4) (bad : BitVec 3) (x : Strapped) (n t : Nat),
    let now := s.atTime t
    let nowX := s.atTime x.t
    let kept := s.fld SYS.PWR_STS_SRC
    let woken := fun (c : Instr) (cause src : Nat) => Ends (exec c s) fun u => u.power = 0 ∧ u.fld SYS.PWR_STS_CAUSE = cause ∧
      u.fld SYS.PWR_STS_SRC = src ∧ u.sys.woke = true ∧ u.sram = s.sram ∧ u.mram = s.mram ∧
      ∀ l : Lane, u.lane l = { s.lane l with eng := (u.lane l).eng }
    let started := fun (c : Instr) (cause : Nat) => Ends (exec c s) fun u => u.sys.phase = 1 ∧ u.fld SYS.RST_STS_CAUSE = 4 ∧
      u.fld SYS.PWR_STS_CAUSE = cause ∧ u.mram = s.mram ∧ u.pending = s.pending ∧ u.sys.start = nowX.now ∧
      u.straps = { s.straps with bootSel := x.sel.toNat, base := x.base.toNat }
    let rung := s.flag KEEPER.CFG_ALARM_EN = true ∧ s.regN KEEPER.ALARM_LO + 2 ^ 32 * (s.regN KEEPER.ALARM_HI % 65536) ≤ nowX.rtcSec
    (v.toNat ≠ s.mode → s.modeCheck v.toNat = 0 → s.commits (exec (.mode v) s) fun u => u.mode = v.toNat ∧
      u.fld SYS.MODE_PREV = s.mode ∧ u.fld SYS.MODE_CAUSE = 0) ∧
    (v.toNat = 0 → s.mode ≠ 0 → s.commits (exec (.mode v) s) fun u => u.mode = 0 ∧ u.fld SYS.MODE_PREV = s.mode) ∧
    (v.toNat = s.mode → s.mode < 12 → s.commits (exec (.mode v) s) fun u => u.mode = s.mode ∧
      u.fld SYS.MODE_PREV = s.fld SYS.MODE_PREV ∧ u.fld SYS.MODE_CAUSE = s.fld SYS.MODE_CAUSE ∧ RegsBut [SYS.MODE] s u ∧ SameMem s u) ∧
    (12 ≤ v.toNat → s.refuses (exec (.mode v) s) 1 SYS.MODE) ∧
    (v.toNat < 12 → v.toNat ≠ s.mode → v.toNat ≠ 0 → v.toNat ∉ modeNext s.mode → s.refuses (exec (.mode v) s) 7 SYS.MODE) ∧
    (s.power = 2 →
      (s.wakeSource = some n → woken (.wakeCause t) 1 n) ∧
      (s.wakeSource = none → s.regN SYS.LTR < 40 → woken (.wakeCause t) 2 kept) ∧
      (s.wakeSource = none → 40 ≤ s.regN SYS.LTR → exec (.wakeCause t) s = .next now) ∧
      (s.flag SYS.PWR_CFG_WAKE_BALL = true → woken (.wakeBall x) 3 kept) ∧
      (s.flag SYS.PWR_CFG_WAKE_BALL = false → exec (.wakeBall x) s = .next nowX) ∧
      (rung → woken (.alarm x) 4 kept)) ∧
    (s.power = 4 → s.keep.lost = false → started (.wakeBall x) 3 ∧ (rung → started (.alarm x) 4)) ∧
    (¬ rung → exec (.alarm x) s = .next nowX) ∧
    (s.power ≤ 1 → s.wakeSource = none → exitUs s.power ≤ s.regN SYS.LTR → exec (.wakeCause t) s = .next now) ∧
    (s.sys.phase ≠ 3 ∨ now.now < s.gal.edge.due → exec (.p3ExitComplete bad t) s = .next now) ∧
    (s.sys.phase = 3 → s.gal.edge.due ≤ now.now → Ends (exec (.p3ExitComplete bad t) s) fun u => u.sys.phase = 2 ∧ u.mram = s.mram ∧
      ∀ l : Lane, u.mon l = s.mon l ∧ (bad.getLsbD l = true → s.votes l = true → u.laneState l = 3) ∧
      (bad.getLsbD l = false → u.laneState l = s.laneState l))

/-- R14, R106 to R109, R497 to R501, R516: a reset holds the device with MODE at its reset value, and its end starts up with its cause, the
straps latched; nothing of MRAM and of the waiting commands is lost; boot loads the bank that passes, or goes dark; the start of device time
and WAKE after the start-up self-test. Which bank an ACTIVE other than 0 and 1 names (assumption 27), that a start waits for the rise of
NRST, and which start a return of a supply or of NRST makes in P4 (assumption 132), are the model's choices.
An event row happens at the instant it carries, and device time does not go back (assumption 5, the model's choice). -/
def Obligations.ResetResults : Prop :=
  ∀ (s : State) (sel : BitVec 2) (base : BitVec 7) (cal : Bool) (differs fails : BitVec 3) (io : Bool) (a t : Nat),
    let now := s.atTime t
    let kept := fun (u : State) => u.mram = s.mram ∧ u.pending = s.pending ∧ u.reg SYS.MODE = resetWord SYS.MODE ∧
      ∀ l : Lane, (u.lane l).run = false ∧ (u.lane l).g = [] ∧ (u.lane l).acc = []
    let starts := fun (c : Instr) (cause : Nat) => Ends (exec c s) fun u => kept u ∧ u.sys.phase = 1 ∧ u.fld SYS.RST_STS_CAUSE = cause ∧
      u.fld SYS.RST_STS_SEL = sel.toNat ∧ u.fld RANGE.STS_BASE = base.toNat ∧ u.sys.start = now.now
    let first := if s.straps.bootSel = 0 then rdLE s.mram 0 4 % 2 else s.straps.bootSel - 1
    let sec := if s.flag KEEPER.STS_RTC_VALID then now.rtcSec else 0
    (s.sys.nrstAt = none → starts (.powerOn sel base t) 1) ∧
    (s.sys.nrstAt ≠ none → Ends (exec (.powerOn sel base t) s) fun u => kept u ∧ u.sys.phase = 0 ∧ u.sys.supplyOut = false ∧
      u.sys.nrstAt = s.sys.nrstAt) ∧
    (s.keeperDead = false → Ends (exec (.nrstAssert t) s) fun u => kept u ∧ u.sys.phase = 0 ∧ u.sys.nrstAt = some now.now) ∧
    (s.keeperDead = true → Ends (exec (.nrstAssert t) s) fun u => u.sys = { s.sys with nrstAt := some now.now } ∧ u.regs = s.regs ∧
      SameMem s u) ∧
    Ends (exec (.supplyFall ⟨io, t⟩) s) (fun u => kept u ∧ u.sys.phase = 0 ∧ u.sys.supplyOut = true ∧
      u.keep.lost = (s.keep.lost || (io && !s.flag KEEPER.STS_VBAT_OK))) ∧
    (s.sys.supplyOut = true ∨ s.keeperDead = true → Ends (exec (.nrstRelease sel base t) s) fun u =>
      u.sys = { s.sys with nrstAt := none } ∧ u.regs = s.regs ∧ SameMem s u) ∧
    (s.sys.phase = 0 →
      (s.sys.nrstAt ≠ none → s.sys.supplyOut = false → s.keeperDead = false → starts (.nrstRelease sel base t) 2) ∧
      (s.sys.nrstAt = some a → s.sys.stuck = false → a + 9999990000 < now.now → ∃ s1 : State, exec (.resetStuck t) s =
        .next (s1.logHw 4 0) ∧ s1.sys.stuck = true ∧ s1.flag KEEPER.STS_STUCK = true ∧ RegsBut [KEEPER.STS] s s1 ∧ SameMem s s1)) ∧
    (s.sys.phase = 1 → s.sys.booted = false →
      (s.straps.bootSel = 3 → ∃ s1 : State, exec (.boot true differs t) s = .next (s1.darkEntry 1) ∧ s1.mram = s.mram ∧ s1.img = s.img) ∧
      (s.straps.bootSel < 3 → s.bankOk first = true → Ends (exec (.boot true differs t) s) fun u => u.mram = s.mram ∧
        u.img = ⟨true, first, s.hdr first 0x28 4, s.hdr first 0x2C 4, s.hdr first 0x30 4, s.hdr first 8 4, bitB (s.hdr first 7 1) 0⟩ ∧
        u.regN GALLERY.TIDE_CFG = s.hdr first 0x34 4 ∧ u.fld SYS.RST_STS_BANK = first ∧ u.flag SYS.RST_STS_FALLBACK = false ∧
        ∀ l : Lane, (u.lane l).iram = s.imgRam first (s.hdr first 0x14 4) (s.hdr first 0x18 4) ∧
          (u.lane l).dram = s.imgRam first (s.hdr first 0x1C 4) (s.hdr first 0x20 4) ∧
          (differs.getLsbD l = true → u.laneState l = 3)) ∧
      (s.straps.bootSel = 0 → s.bankOk first = false → s.bankOk (1 - first) = true → Ends (exec (.boot true differs t) s) fun u =>
        u.img.valid = true ∧ u.img.bank = 1 - first ∧ u.flag SYS.RST_STS_FALLBACK = true ∧ u.mram = s.mram) ∧
      (s.img.valid = false → cal = false ∨ (s.straps.bootSel < 3 ∧ s.bankOk 0 = false ∧ s.bankOk 1 = false) →
        ∃ s1 : State, exec (.boot cal differs t) s = .next ((s1.logHw 7 0).darkEntry 7) ∧ s1.mram = s.mram ∧ s1.img = s.img)) ∧
    (s.sys.phase = 1 → s.sys.booted = true →
      (s.mode ≠ 0 → 1 < s.voters.length → (∀ l : Lane, (s.lane l).railHeld = false) → fails = 0 →
      Ends (exec (.startupSelftestComplete fails t) s) fun u =>
        u.sys.phase = 2 ∧ u.mode = 2 ∧ u.fld SYS.MODE_CAUSE = 1 ∧ u.now = sec * 1000000000 ∧ u.reg TIME.RATE = s.reg TIME.RATE_INIT ∧
        u.mram = s.mram))

/-- R503 to R507, R510: what a loss, a low and a return of VBAT show; the clock that RTC_SET sets; the clear; a record of the program; arming
the fog signal, feeding it right, wrong and before MIN, its bite with ACT EVENT and with ACT RESET, and half of T without a feed.
R508: GO starts an operation of the image writer and is refused while one runs; its end writes the block, checks the bank or makes it
active, or fails with its cause, and source 251 fires; no other byte of MRAM changes.
A commit row is the commit of that one command by every voting lane (assumption 4, the model's reading).
An event row happens at the instant it carries, and device time does not go back (assumption 5, the model's choice). -/
def Obligations.KeeperResults : Prop :=
  (
  ∀ (s : State) (mv key : BitVec 16) (sec : BitVec 48) (v : Word) (t : Nat),
    let now := s.atTime t
    let volts := fun (u : State) => u.fld KEEPER.STS_VBAT = mv.toNat ∧ u.flag KEEPER.STS_VBAT_OK = decide (2000 ≤ mv.toNat) ∧
      u.flag KEEPER.STS_VBAT_LOW = decide (mv.toNat < 2200) ∧ SameMem s u
    let want := match s.keep.fogKey with | none => 0x5AC3 | some k => 65535 - k
    let T := bitsOf v.toNat 0 12
    (mv.toNat < 2000 →
      (s.power ≠ 4 → Ends (exec (.vbatLoss mv true t) s) fun u => u.flag KEEPER.STS_VBAT_LOST = true ∧
        u.flag KEEPER.STS_RTC_VALID = false ∧ u.flag KEEPER.STS_VBAT_OK = false ∧ u.pos.ckpt = [] ∧ u.keep.nrec = 1 ∧ u.mram = s.mram) ∧
      Ends (exec (.vbatLoss mv false t) s) (fun u => u.keep.lost = true ∧ volts u)) ∧
    (2000 ≤ mv.toNat → mv.toNat < 2200 → s.flag KEEPER.STS_VBAT_LOW = false → ∃ s1 : State, exec (.vbatLow mv t) s =
      .next (s1.fire 252) ∧ volts s1 ∧ RegsBut [KEEPER.STS] s s1) ∧
    (2200 ≤ mv.toNat → Ends (exec (.vbatReturn mv t) s) fun u => volts u ∧ RegsBut [KEEPER.STS] s u) ∧
    s.commits (exec (.rtcSet sec) s) (fun u => u.rtcSec = sec.toNat ∧ u.rtcSub = 0 ∧ u.regN KEEPER.RTC_SUB = 0 ∧ u.flag KEEPER.STS_RTC_VALID = true ∧
      u.regN KEEPER.RTC_SEC_LO + 2 ^ 32 * u.regN KEEPER.RTC_SEC_HI = sec.toNat ∧
      RegsBut [KEEPER.RTC_SET_LO, KEEPER.RTC_SET_HI, KEEPER.CTL, KEEPER.STS, KEEPER.RTC_SEC_LO, KEEPER.RTC_SEC_HI, KEEPER.RTC_SUB] s u ∧
      SameMem s u) ∧
    s.commits (exec .keeperClr s) (fun u => u.flag KEEPER.STS_VBAT_LOST = false ∧ u.flag KEEPER.STS_STUCK = false ∧
      RegsBut [KEEPER.CTL, KEEPER.STS] s u ∧ SameMem s u) ∧
    s.commits (exec (.logProg v) s) (fun u => ∃ s1 : State, u = s1.logRec 0xF 0 v.toNat false ∧ RegsBut [KEEPER.LOG_PROG] s s1 ∧
      SameMem s s1) ∧
    (s.flag KEEPER.STS_FOG_ARMED = false → s.flag KEEPER.STS_FOG_BITE = false → s.flag KEEPER.STS_VBAT_OK = true → v.getLsbD 31 = true →
      bitsOf v.toNat 29 2 ≤ 1 → bitsOf v.toNat 16 12 < T → s.keep.paused = false → s.commits (exec (.fogCfg v) s) fun u =>
        u.flag KEEPER.STS_FOG_ARMED = true ∧ u.fld KEEPER.FOG_CFG_T = T ∧ u.fld KEEPER.FOG_STS_LEFT = T ∧ u.keep.fogKey = none ∧
        RegsBut [KEEPER.FOG_CFG, KEEPER.FOG_STS, KEEPER.STS] s u ∧ SameMem s u) ∧
    (s.fogOn = false → s.commits (exec (.fogFeed key) s) fun u => RegsBut [KEEPER.FOG_FEED] s u ∧ SameMem s u) ∧
    (s.fogOn = true →
      (key.toNat = want → s.fld KEEPER.FOG_CFG_MIN * 1000000 ≤ s.fogAge → s.commits (exec (.fogFeed key) s) fun u =>
        u.keep.fogKey = some key.toNat ∧ u.fld KEEPER.FOG_STS_FEEDS = (s.fld KEEPER.FOG_STS_FEEDS + 1) % 65536 ∧
        u.flag KEEPER.STS_FOG_BITE = false ∧ RegsBut [KEEPER.FOG_FEED, KEEPER.FOG_STS] s u ∧ SameMem s u) ∧
      (key.toNat ≠ want ∨ s.fogAge < s.fld KEEPER.FOG_CFG_MIN * 1000000 → s.fld KEEPER.FOG_CFG_ACT ≠ 1 → s.commits (exec (.fogFeed key) s) fun u => u.keep.bite = true ∧
        u.flag KEEPER.STS_FOG_BITE = true ∧ u.mram = s.mram) ∧
      (key.toNat ≠ want ∨ s.fogAge < s.fld KEEPER.FOG_CFG_MIN * 1000000 → s.fld KEEPER.FOG_CFG_ACT = 1 → s.sys.phase = 2 → Ends (exec (.fogFeed key) s) fun u => u.sys.phase = 1 ∧
        u.fld SYS.RST_STS_CAUSE = 3 ∧ u.mram = s.mram) ∧
      (s.keep.paused = false → s.fld KEEPER.FOG_CFG_T * 1000000 ≤ now.fogAge →
        now.fogAge ≠ s.fld KEEPER.FOG_CFG_T * 1000000 ∨ s.gal.edge.due ≠ now.now →
        (s.fld KEEPER.FOG_CFG_ACT ≠ 1 → Ends (exec (.fogBite t) s) fun u => u.keep.bite = true ∧ u.flag KEEPER.STS_FOG_BITE = true ∧
          u.mram = s.mram) ∧
        (s.fld KEEPER.FOG_CFG_ACT = 1 → Ends (exec (.fogBite t) s) fun u => u.sys.phase = 1 ∧ u.fld SYS.RST_STS_CAUSE = 3 ∧
          u.mram = s.mram)) ∧
      (s.keep.paused = false → s.keep.half = false → s.fld KEEPER.FOG_CFG_T * 500000 ≤ now.fogAge →
        ∃ s1 : State, exec (.fogHalfT t) s = .next (s1.fire 253) ∧ s1.keep.half = true ∧
        s1.fld KEEPER.FOG_STS_LEFT = s.fld KEEPER.FOG_CFG_T - now.fogAge / 1000000 ∧ RegsBut [KEEPER.FOG_STS] s s1 ∧ SameMem s s1))
  ) ∧
  (
  ∀ (s : State) (off : BitVec 22) (src : BitVec 21) (ok : Bool) (op o t : Nat),
    let bank := s.fld SYS.IMG_STS_BANK
    let from' := s.fld SYS.IMG_SRC_SRC
    let goes := fun (c : Instr) (e : Nat × Nat) (ks : List Nat) => s.commits (exec c s) fun u => u.fld SYS.IMG_STS_STATE = 1 ∧
      u.fld SYS.IMG_STS_CAUSE = 0 ∧ u.sys.img = some e ∧ RegsBut (SYS.IMG_CTL :: SYS.IMG_STS :: ks) s u ∧ SameMem s u
    let ends := fun (ok : Bool) (st cause : Nat) (checked : Bool) (m : List Host.Cell) => ∃ s1 : State, exec (.imgComplete ok ⟨t, .clean⟩) s =
        .next (s1.fire 251) ∧ s1.fld SYS.IMG_STS_STATE = st ∧ s1.fld SYS.IMG_STS_CAUSE = cause ∧ s1.flag SYS.IMG_STS_CHECKED = checked ∧
      s1.sys.img = none ∧ s1.mram = m
    (s.fld SYS.IMG_STS_STATE ≠ 1 →
      goes (.imgWrite off src) (1, off.toNat) [SYS.IMG_SRC] ∧ goes .imgCheck (2, 0) [] ∧ goes .imgActivate (3, 0) []) ∧
    (s.fld SYS.IMG_STS_STATE = 1 →
      exec (.imgWrite off src) s = .next (((s.stickyKeep s).settle s).refusedShow ⟨1, 8, 1, SYS.IMG_CTL, 0⟩) ∧
      s.refuses (exec .imgCheck s) 8 SYS.IMG_CTL ∧ s.refuses (exec .imgActivate s) 8 SYS.IMG_CTL) ∧
    (s.sys.img = some (op, o) →
      (op = 1 → o % 256 = 0 → from' % 256 = 0 → 0x100000 ≤ from' →
        ends true 2 0 false (wrBytes s.mram (imgBase bank + blockOff o) (rdBytes s.sram from' 256)) ∧ ends false 3 2 false s.mram) ∧
      (op = 1 → o % 256 ≠ 0 ∨ from' % 256 ≠ 0 ∨ from' < 0x100000 → ends ok 3 1 false s.mram) ∧
      (op = 2 → s.bankOk bank = true → ends ok 2 0 true s.mram) ∧
      (op = 2 → s.bankOk bank = false → ends ok 3 3 false s.mram) ∧
      (op = 3 → s.flag SYS.IMG_STS_CHECKED = false → ends ok 3 4 false s.mram) ∧
      (op = 3 → s.flag SYS.IMG_STS_CHECKED = true → ends true 2 0 true (wrLE s.mram 0 4 bank) ∧ ends false 3 2 true s.mram))
  )

/-- R90: TNOW and TNOW.L trap with REGPAIR, the instruction word in tv, unless gd is one of g4, g8 to g28; TEXT unless gd is an even register
from g2 to g30. A word of OP 0x02 with the L bit is illegal unless its FN is 0x018 or 0x019. -/
def Obligations.TimePairTraps : Prop :=
  (∀ (s : State) (l : Lane) (gd gs : GReg) (t frac waitNs : Nat), s.runs l → (s.lane l).tc = 0 →
    (¬(gd.val % 4 = 0 ∧ 4 ≤ gd.val ∧ gd.val ≤ 28) →
      s.traps (exec (.tnow l gd) s) l 9 (BitVec.ofNat 32 (0x08000018 + gd.val * 2 ^ 21)) ∧
      ∃ v : State, v.regs = s.regs ∧ SameMem s v ∧
        v.traps (exec (.tnowL l gd t frac waitNs) s) l 9 (BitVec.ofNat 32 (0x08000418 + gd.val * 2 ^ 21))) ∧
    (¬(gd.val % 2 = 0 ∧ 2 ≤ gd.val ∧ gd.val ≤ 30) →
      s.traps (exec (.text l gd gs) s) l 9 (BitVec.ofNat 32 (0x0800001A + gd.val * 2 ^ 21 + gs.val * 2 ^ 16)))) ∧
  ∀ w : Word, w.toNat / 2 ^ 26 = 2 → w.getLsbD 10 = true → w.toNat % 2 ^ 11 ≠ 0x418 → w.toNat % 2 ^ 11 ≠ 0x419 → legalWord w = false
end

