-- ==== Sys2Proof/Laws/Bits.lean ====
section
/-! SUPPORT. Sparse maps and memories: what a write leaves to be read, and that every operation keeps the canonical form. -/

namespace Sys2Proof.Machine

variable {α : Type}

/-! ### Reading after writing -/

theorem mget_mdel (d : Nat → α) (m : List (Nat × α)) (a b : Nat) :
    mget d (mdel m a) b = if b = a then d a else mget d m b := by
  induction m with
  | nil => by_cases h : b = a <;> simp [mdel, mget, h]
  | cons p m ih =>
    obtain ⟨k, v⟩ := p
    by_cases hk : k = a
    · subst hk
      have : mdel ((k, v) :: m) k = mdel m k := by simp [mdel]
      rw [this, ih, mget]
      by_cases h : b = k
      · simp [h]
      · simp [h, Ne.symm h]
    · have : mdel ((k, v) :: m) a = (k, v) :: mdel m a := by simp [mdel, hk]
      rw [this, mget, mget, ih]
      by_cases h : k = b
      · subst h; simp [hk]
      · simp [h]

/-- A map reads what was last written to a key, and elsewhere what it read before. -/
theorem mget_mput [DecidableEq α] (d : Nat → α) (m : List (Nat × α)) (a b : Nat) (v : α) :
    mget d (mput d m a v) b = if b = a then v else mget d m b := by
  induction m with
  | nil =>
    by_cases h : v = d a
    · by_cases hb : b = a <;> simp [mput, mget, h, hb]
    · by_cases hb : b = a
      · simp [mput, mget, h, hb]
      · simp [mput, mget, h, hb, Ne.symm hb]
  | cons p m ih =>
    obtain ⟨k, w⟩ := p
    by_cases h1 : k < a
    · rw [mput, if_pos h1, mget, mget, ih]
      by_cases h : k = b
      · subst h; simp [Nat.ne_of_lt h1]
      · simp [h]
    · by_cases h2 : v = d a
      · rw [mput, if_neg h1, if_pos h2, mget_mdel, h2]
      · rw [mput, if_neg h1, if_neg h2]
        by_cases h3 : k = a
        · subst h3
          by_cases h : b = k
          · simp [mget, h]
          · simp [mget, h, Ne.symm h]
        · by_cases h : b = a
          · simp [mget, h, h3]
          · simp [mget, h, h3, Ne.symm h]

@[simp] theorem mget_mput_self [DecidableEq α] (d : Nat → α) (m : List (Nat × α)) (a : Nat) (v : α) :
    mget d (mput d m a v) a = v := by simp [mget_mput]

theorem mget_mput_ne [DecidableEq α] (d : Nat → α) (m : List (Nat × α)) {a b : Nat} (v : α) (h : b ≠ a) :
    mget d (mput d m a v) b = mget d m b := by simp [mget_mput, h]

@[simp] theorem mget_nil (d : Nat → α) (a : Nat) : mget d [] a = d a := rfl

theorem mget_append (d : Nat → α) (m n : List (Nat × α)) (a : Nat) :
    mget d (m ++ n) a = if m.any (fun p => p.1 == a) then mget d m a else mget d n a := by
  induction m with
  | nil => simp
  | cons p m ih =>
    obtain ⟨k, v⟩ := p
    by_cases h : k = a
    · simp [mget, h]
    · have h' : (k == a) = false := by simpa using h
      simp only [List.cons_append, mget, if_neg h, ih, List.any_cons, h', Bool.false_or]

/-- Reading a map from which the entries outside a set of keys are dropped. -/
theorem mget_filter (d : Nat → α) (m : List (Nat × α)) (f : Nat → Bool) (a : Nat) :
    mget d (m.filter fun p => f p.1) a = if f a then mget d m a else d a := by
  induction m with
  | nil => simp
  | cons p m ih =>
    obtain ⟨k, v⟩ := p
    by_cases hf : f k
    · simp only [List.filter_cons, hf, if_true, mget, ih]
      by_cases h : k = a
      · subst h; simp [hf]
      · simp [h]
    · have e : List.filter (fun p : Nat × α => f p.1) ((k, v) :: m) = List.filter (fun p => f p.1) m := by simp [hf]
      rw [e, ih, mget]
      by_cases h : k = a
      · subst h; simp [hf]
      · simp [h]

theorem mget_merase (d : Nat → α) (m : List (Nat × α)) (a b k : Nat) :
    mget d (merase m a b) k = if a ≤ k ∧ k < b then d k else mget d m k := by
  have := mget_filter d m (fun p => !(decide (a ≤ p) && decide (p < b))) k
  unfold merase
  rw [this]
  by_cases h1 : a ≤ k <;> by_cases h2 : k < b <;> simp [h1, h2]

/-! ### Bytes -/

theorem rdByte_wrByte (m : List Host.Cell) (a b : Nat) (v : Byte) :
    rdByte (wrByte m a v) b = if b = a then v else rdByte m b := mget_mput _ m a b v

theorem cellsFrom_key (bs : List Byte) (a b : Nat) (h : b < a ∨ a + bs.length ≤ b) :
    (cellsFrom a bs).any (fun p => p.1 == b) = false := by
  induction bs generalizing a with
  | nil => simp [cellsFrom]
  | cons x bs ih =>
    simp only [List.length_cons] at h
    have h1 := ih (a + 1) (by omega)
    have h2 : a ≠ b := by omega
    unfold cellsFrom
    split
    · exact h1
    · simp [h1, h2]

theorem rdByte_cellsFrom (bs : List Byte) (a k : Nat) : rdByte (cellsFrom a bs) (a + k) = bs.getD k 0 := by
  induction bs generalizing a k with
  | nil => simp [cellsFrom, rdByte, zeroByte]
  | cons x bs ih =>
    cases k with
    | zero =>
      unfold cellsFrom
      split
      · have := cellsFrom_key bs (a + 1) a (by omega)
        have h0 : rdByte (cellsFrom (a + 1) bs) a = 0 := by
          have h := mget_append zeroByte (cellsFrom (a + 1) bs) [] a
          simp only [this, List.append_nil] at h
          simpa [rdByte, zeroByte] using h
        simp_all
      · simp [rdByte, mget]
    | succ k =>
      have h := ih (a + 1) k
      have e : a + (k + 1) = a + 1 + k := by omega
      unfold cellsFrom
      split
      · rw [e, h]; simp
      · rw [e]
        have hne : a ≠ a + 1 + k := by omega
        simpa [rdByte, mget, hne] using h

/-- A read after a write of bytes: inside, the byte written; outside, what was there. -/
theorem rdByte_wrBytes (m : List Host.Cell) (a b : Nat) (bs : List Byte) :
    rdByte (wrBytes m a bs) b = if a ≤ b ∧ b < a + bs.length then bs.getD (b - a) 0 else rdByte m b := by
  have key : ∀ (f : Nat → Bool), (m.filter fun p => f p.1).any (fun p => p.1 == b) = true → f b = true := by
    intro f h
    simp only [List.any_eq_true, List.mem_filter, beq_iff_eq] at h
    obtain ⟨p, ⟨_, h2⟩, h3⟩ := h
    rwa [h3] at h2
  unfold wrBytes rdByte
  rw [mget_append, mget_append]
  by_cases h1 : b < a
  · have h0 : ¬(a ≤ b ∧ b < a + bs.length) := by omega
    rw [if_neg h0, cellsFrom_key bs a b (Or.inl h1)]
    have e1 := mget_filter zeroByte m (fun p => decide (p < a)) b
    have e2 := mget_filter zeroByte m (fun p => decide (a + bs.length ≤ p)) b
    split
    · rw [e1]; simp [h1]
    · rename_i hn
      rw [e2]
      have : ¬ a + bs.length ≤ b := by omega
      simp only [this, decide_false, Bool.false_eq_true, if_false]
      have h := mget_append zeroByte (m.filter fun c => decide (c.1 < a)) [] b
      simp only [Bool.not_eq_true] at hn
      rw [hn] at h
      rw [List.append_nil, e1] at h
      simpa [h1] using h.symm
  · have hA : (m.filter fun c => decide (c.1 < a)).any (fun p => p.1 == b) = false := by
      cases hh : (m.filter fun c => decide (c.1 < a)).any (fun p => p.1 == b)
      · rfl
      · exact absurd (key (fun k => decide (k < a)) hh) (by simpa using h1)
    rw [hA]
    have e2 := mget_filter zeroByte m (fun p => decide (a + bs.length ≤ p)) b
    by_cases h2 : a + bs.length ≤ b
    · rw [cellsFrom_key bs a b (Or.inr h2), e2]
      have : ¬(a ≤ b ∧ b < a + bs.length) := by omega
      simp [h2, this]
    · have hin : a ≤ b ∧ b < a + bs.length := by omega
      have hr := rdByte_cellsFrom bs a (b - a)
      rw [show a + (b - a) = b by omega] at hr
      rw [if_pos hin]
      simp only [Bool.false_eq_true, if_false]
      split
      · simpa [rdByte] using hr
      · rename_i hn
        rw [e2]
        simp only [h2, decide_false, Bool.false_eq_true, if_false]
        have h := mget_append zeroByte (cellsFrom a bs) [] b
        simp only [Bool.not_eq_true] at hn
        rw [hn, List.append_nil] at h
        rw [← hr]
        simpa [rdByte] using h.symm

@[simp] theorem leBytes_length (n x : Nat) : (leBytes n x).length = n := by
  induction n generalizing x with
  | zero => rfl
  | succ n ih => simp [leBytes, ih]

@[simp] theorem rdBytes_length (m : List Host.Cell) (a n : Nat) : (rdBytes m a n).length = n := by
  induction n generalizing a with
  | zero => rfl
  | succ n ih => simp [rdBytes, ih]

@[simp] theorem padTo_length (n : Nat) (bs : List Byte) : (padTo n bs).length = n := by
  simp [padTo]; omega

/-! ### The canonical form -/

variable [DecidableEq α]

theorem mwfFrom_mono (d : Nat → α) (m : List (Nat × α)) (lo hi : Nat) (h : lo ≤ hi) :
    mwfFrom d (some hi) m = true → mwfFrom d (some lo) m = true := by
  cases m with
  | nil => simp [mwfFrom]
  | cons p m =>
    obtain ⟨k, v⟩ := p
    simp only [mwfFrom, Bool.and_eq_true, decide_eq_true_eq, and_imp]
    intro a b c
    exact ⟨⟨by omega, b⟩, c⟩

theorem mwf_of_some (d : Nat → α) (m : List (Nat × α)) (lo : Nat) (h : mwfFrom d (some lo) m = true) : mwf d m = true := by
  cases m with
  | nil => rfl
  | cons p m =>
    obtain ⟨k, v⟩ := p
    simp only [mwfFrom, Bool.and_eq_true, decide_eq_true_eq] at h
    simp [mwf, mwfFrom, h.1.2, h.2]

/-- Dropping entries keeps the form. -/
theorem mwfFrom_filter (d : Nat → α) (m : List (Nat × α)) (f : Nat × α → Bool) (lo : Nat) :
    mwfFrom d (some lo) m = true → mwfFrom d (some lo) (m.filter f) = true := by
  induction m generalizing lo with
  | nil => simp
  | cons p m ih =>
    obtain ⟨k, v⟩ := p
    intro h
    simp only [mwfFrom, Bool.and_eq_true, decide_eq_true_eq] at h
    rw [List.filter_cons]
    split
    · simp [mwfFrom, h.1, ih k h.2]
    · exact mwfFrom_mono d _ lo k (by omega) (ih k h.2)

theorem mwf_filter (d : Nat → α) (m : List (Nat × α)) (f : Nat × α → Bool) (h : mwf d m = true) : mwf d (m.filter f) = true := by
  cases m with
  | nil => simpa using h
  | cons p m =>
    obtain ⟨k, v⟩ := p
    simp only [mwf, mwfFrom, Bool.true_and, Bool.and_eq_true] at h
    have h2 := mwfFrom_filter d m f k h.2
    rw [List.filter_cons]
    split
    · simp [mwf, mwfFrom, h.1, h2]
    · exact mwf_of_some d _ k h2

theorem mwfFrom_mput (d : Nat → α) (m : List (Nat × α)) (a : Nat) (v : α) (lo : Nat) (hlo : lo < a) :
    mwfFrom d (some lo) m = true → mwfFrom d (some lo) (mput d m a v) = true := by
  induction m generalizing lo with
  | nil =>
    intro _
    unfold mput
    split <;> simp_all [mwfFrom]
  | cons p m ih =>
    obtain ⟨k, w⟩ := p
    intro h
    have h' := h
    simp only [mwfFrom, Bool.and_eq_true, decide_eq_true_eq] at h'
    unfold mput
    split
    · rename_i hk
      simp [mwfFrom, h'.1, ih k hk h'.2]
    · split
      · exact mwfFrom_filter d _ _ lo h
      · split
        · rename_i hk hv he
          subst he
          simp [mwfFrom, h'.1.1, hv, h'.2]
        · rename_i hk hv he
          have : a < k := by omega
          simp [mwfFrom, hv, hlo, this, h'.1.2, h'.2]

/-- A write keeps the canonical form. -/
theorem mwf_mput (d : Nat → α) (m : List (Nat × α)) (a : Nat) (v : α) (h : mwf d m = true) : mwf d (mput d m a v) = true := by
  cases m with
  | nil =>
    unfold mput
    split <;> simp_all [mwf, mwfFrom]
  | cons p m =>
    obtain ⟨k, w⟩ := p
    have h' := h
    simp only [mwf, mwfFrom, Bool.true_and, Bool.and_eq_true] at h'
    unfold mput
    split
    · rename_i hk
      simp [mwf, mwfFrom, h'.1, mwfFrom_mput d m a v k hk h'.2]
    · split
      · exact mwf_filter d _ _ h
      · split
        · rename_i hk hv he
          subst he
          simp [mwf, mwfFrom, hv, h'.2]
        · rename_i hk hv he
          have : a < k := by omega
          simp [mwf, mwfFrom, hv, this, h'.1, h'.2]

theorem mwf_merase (d : Nat → α) (m : List (Nat × α)) (a b : Nat) (h : mwf d m = true) : mwf d (merase m a b) = true :=
  mwf_filter d m _ h

/-- Joining maps whose keys lie below and above a bound. -/
theorem mwfFrom_append (d : Nat → α) (m n : List (Nat × α)) (lo : Option Nat) (b : Nat)
    (hm : mwfFrom d lo m = true) (hk : ∀ p ∈ m, p.1 < b) (hn : ∀ c, c < b → mwfFrom d (some c) n = true)
    (hl : ∀ c, lo = some c → c < b) (h0 : lo = none → mwfFrom d none n = true) : mwfFrom d lo (m ++ n) = true := by
  induction m generalizing lo with
  | nil =>
    cases lo with
    | none => exact h0 rfl
    | some c => exact hn c (hl c rfl)
  | cons p m ih =>
    obtain ⟨k, v⟩ := p
    have hkb : k < b := hk (k, v) (by simp)
    simp only [mwfFrom, Bool.and_eq_true] at hm
    have := ih (some k) hm.2 (fun q hq => hk q (by simp [hq])) (fun c hc => by cases hc; exact hkb) (fun hc => by cases hc)
    simp [mwfFrom, hm.1, this]

theorem mwfFrom_keys (d : Nat → α) (m : List (Nat × α)) (lo : Nat) (h : mwfFrom d (some lo) m = true) : ∀ p ∈ m, lo < p.1 := by
  induction m generalizing lo with
  | nil => simp
  | cons p m ih =>
    obtain ⟨k, v⟩ := p
    simp only [mwfFrom, Bool.and_eq_true, decide_eq_true_eq] at h
    intro q hq
    rcases List.mem_cons.mp hq with rfl | hq
    · exact h.1.1
    · have := ih k h.2 q hq
      have := h.1.1
      omega

omit [DecidableEq α] in
theorem filter_ge_nil_or (m : List (Nat × α)) (b : Nat) : ∀ p ∈ m.filter (fun c => decide (b ≤ c.1)), b ≤ p.1 := by
  intro p hp
  simpa using (List.mem_filter.mp hp).2

theorem mwfFrom_of_ge (d : Nat → α) (m : List (Nat × α)) (lo : Nat) (h : mwf d m = true) (hk : ∀ p ∈ m, lo < p.1) :
    mwfFrom d (some lo) m = true := by
  cases m with
  | nil => rfl
  | cons p m =>
    obtain ⟨k, v⟩ := p
    simp only [mwf, mwfFrom, Bool.true_and, Bool.and_eq_true] at h
    have := hk (k, v) (by simp)
    simp [mwfFrom, h.1, h.2, this]

theorem cellsFrom_keys (bs : List Byte) (a : Nat) : ∀ p ∈ cellsFrom a bs, a ≤ p.1 ∧ p.1 < a + bs.length := by
  induction bs generalizing a with
  | nil => simp [cellsFrom]
  | cons x bs ih =>
    intro p hp
    unfold cellsFrom at hp
    have step : p ∈ cellsFrom (a + 1) bs → a ≤ p.1 ∧ p.1 < a + (x :: bs).length := by
      intro h
      have := ih (a + 1) p h
      simp only [List.length_cons]
      omega
    split at hp
    · exact step hp
    · rcases List.mem_cons.mp hp with rfl | h
      · simp
      · exact step h

theorem mwf_cellsFrom (bs : List Byte) (a lo : Nat) (h : lo < a) : mwfFrom zeroByte (some lo) (cellsFrom a bs) = true := by
  induction bs generalizing a lo with
  | nil => rfl
  | cons x bs ih =>
    unfold cellsFrom
    split
    · exact ih (a + 1) lo (by omega)
    · rename_i hx
      have hx' : (x = zeroByte a) = False := by simpa [zeroByte] using hx
      simp only [mwfFrom, hx', h, ih (a + 1) a (by omega), decide_true, decide_false, Bool.not_false, Bool.and_self]

theorem mwf_cellsFrom' (bs : List Byte) (a : Nat) : mwf zeroByte (cellsFrom a bs) = true := by
  cases a with
  | succ a => exact mwf_of_some _ _ a (mwf_cellsFrom bs (a + 1) a (by omega))
  | zero =>
    cases bs with
    | nil => rfl
    | cons x bs =>
      unfold cellsFrom
      split
      · exact mwf_of_some _ _ 0 (mwf_cellsFrom bs 1 0 (by omega))
      · rename_i hx
        have hx' : (x = zeroByte 0) = False := by simpa [zeroByte] using hx
        simp only [mwf, mwfFrom, hx', mwf_cellsFrom bs 1 0 (by omega), decide_false, Bool.not_false, Bool.and_self]

/-- Replacing a region of a memory by cells that lie in it, in the form, keeps the form. -/
theorem mwf_region (m cs : List Host.Cell) (a b : Nat) (hab : a ≤ b) (h : mwf zeroByte m = true) (hc : mwf zeroByte cs = true)
    (hk : ∀ p ∈ cs, a ≤ p.1 ∧ p.1 < b) :
    mwf zeroByte (m.filter (fun c => decide (c.1 < a)) ++ (cs ++ m.filter (fun c => decide (b ≤ c.1)))) = true := by
  have hge := filter_ge_nil_or m b
  have hw := mwf_filter zeroByte m (fun c => decide (b ≤ c.1)) h
  have inner : ∀ lo : Option Nat, (∀ c, lo = some c → c < a) →
      mwfFrom zeroByte lo (cs ++ m.filter (fun c => decide (b ≤ c.1))) = true := by
    intro lo hlo
    refine mwfFrom_append zeroByte cs _ lo b ?_ (fun p hp => (hk p hp).2) ?_ (fun c hc => by have := hlo c hc; omega) (fun _ => hw)
    · cases lo with
      | none => exact hc
      | some c => exact mwfFrom_of_ge zeroByte cs c hc (fun p hp => by have := hlo c rfl; have := (hk p hp).1; omega)
    · intro c hc
      exact mwfFrom_of_ge zeroByte _ c hw (fun p hp => by have := hge p hp; omega)
  refine mwfFrom_append zeroByte _ _ none a (mwf_filter zeroByte m _ h) ?_ ?_ (fun c hc => by cases hc) (fun _ => inner none (by simp))
  · intro p hp
    simpa using (List.mem_filter.mp hp).2
  · intro c hc
    exact inner (some c) (fun e he => by cases he; exact hc)

/-- Every write of bytes keeps the canonical form of a memory. -/
theorem mwf_wrBytes (m : List Host.Cell) (a : Nat) (bs : List Byte) (h : mwf zeroByte m = true) : mwf zeroByte (wrBytes m a bs) = true :=
  mwf_region m (cellsFrom a bs) a (a + bs.length) (by omega) h (mwf_cellsFrom' bs a) (cellsFrom_keys bs a)

theorem mwf_wrLE (m : List Host.Cell) (a n v : Nat) (h : mwf zeroByte m = true) : mwf zeroByte (wrLE m a n v) = true :=
  mwf_wrBytes m a _ h

end Sys2Proof.Machine
end

