-- ==== Sys2Proof/Laws/State.lean ====
section
/-! SUPPORT. What each update of the state leaves in each field: one lemma per field and update. -/

namespace Sys2Proof.Machine

variable (s : State)

/-! ### setReg -/

@[simp] theorem State.setReg_pending (k : Nat) (v : Word) : (s.setReg k v).pending = s.pending := rfl
@[simp] theorem State.setReg_now (k : Nat) (v : Word) : (s.setReg k v).now = s.now := rfl
@[simp] theorem State.setReg_osc (k : Nat) (v : Word) : (s.setReg k v).osc = s.osc := rfl
@[simp] theorem State.setReg_stepped (k : Nat) (v : Word) : (s.setReg k v).stepped = s.stepped := rfl
@[simp] theorem State.setReg_regs0 (k : Nat) (v : Word) : (s.setReg k v).regs0 = s.regs0 := rfl
@[simp] theorem State.setReg_again (k : Nat) (v : Word) : (s.setReg k v).again = s.again := rfl
@[simp] theorem State.setReg_snap (k : Nat) (v : Word) : (s.setReg k v).snap = s.snap := rfl
@[simp] theorem State.setReg_laneA (k : Nat) (v : Word) : (s.setReg k v).laneA = s.laneA := rfl
@[simp] theorem State.setReg_laneB (k : Nat) (v : Word) : (s.setReg k v).laneB = s.laneB := rfl
@[simp] theorem State.setReg_laneC (k : Nat) (v : Word) : (s.setReg k v).laneC = s.laneC := rfl
@[simp] theorem State.setReg_sram (k : Nat) (v : Word) : (s.setReg k v).sram = s.sram := rfl
@[simp] theorem State.setReg_mram (k : Nat) (v : Word) : (s.setReg k v).mram = s.mram := rfl
@[simp] theorem State.setReg_gal (k : Nat) (v : Word) : (s.setReg k v).gal = s.gal := rfl
@[simp] theorem State.setReg_ringWait (k : Nat) (v : Word) : (s.setReg k v).ringWait = s.ringWait := rfl
@[simp] theorem State.setReg_ringOff (k : Nat) (v : Word) : (s.setReg k v).ringOff = s.ringOff := rfl
@[simp] theorem State.setReg_ringPre (k : Nat) (v : Word) : (s.setReg k v).ringPre = s.ringPre := rfl
@[simp] theorem State.setReg_tickAt (k : Nat) (v : Word) : (s.setReg k v).tickAt = s.tickAt := rfl
@[simp] theorem State.setReg_img (k : Nat) (v : Word) : (s.setReg k v).img = s.img := rfl
@[simp] theorem State.setReg_straps (k : Nat) (v : Word) : (s.setReg k v).straps = s.straps := rfl
@[simp] theorem State.setReg_pos (k : Nat) (v : Word) : (s.setReg k v).pos = s.pos := rfl
@[simp] theorem State.setReg_mot (k : Nat) (v : Word) : (s.setReg k v).mot = s.mot := rfl
@[simp] theorem State.setReg_door (k : Nat) (v : Word) : (s.setReg k v).door = s.door := rfl
@[simp] theorem State.setReg_dsp (k : Nat) (v : Word) : (s.setReg k v).dsp = s.dsp := rfl
@[simp] theorem State.setReg_safe (k : Nat) (v : Word) : (s.setReg k v).safe = s.safe := rfl
@[simp] theorem State.setReg_llp (k : Nat) (v : Word) : (s.setReg k v).llp = s.llp := rfl
@[simp] theorem State.setReg_field (k : Nat) (v : Word) : (s.setReg k v).field = s.field := rfl
@[simp] theorem State.setReg_range (k : Nat) (v : Word) : (s.setReg k v).range = s.range := rfl
@[simp] theorem State.setReg_net (k : Nat) (v : Word) : (s.setReg k v).net = s.net := rfl
@[simp] theorem State.setReg_link (k : Nat) (v : Word) : (s.setReg k v).link = s.link := rfl
@[simp] theorem State.setReg_host (k : Nat) (v : Word) : (s.setReg k v).host = s.host := rfl
@[simp] theorem State.setReg_tests (k : Nat) (v : Word) : (s.setReg k v).tests = s.tests := rfl
@[simp] theorem State.setReg_keep (k : Nat) (v : Word) : (s.setReg k v).keep = s.keep := rfl
@[simp] theorem State.setReg_sys (k : Nat) (v : Word) : (s.setReg k v).sys = s.sys := rfl
@[simp] theorem State.setReg_freeCtr (k : Nat) (v : Word) : (s.setReg k v).freeCtr = s.freeCtr := rfl

/-! ### setN -/

@[simp] theorem State.setN_pending (k v : Nat) : (s.setN k v).pending = s.pending := rfl
@[simp] theorem State.setN_now (k v : Nat) : (s.setN k v).now = s.now := rfl
@[simp] theorem State.setN_osc (k v : Nat) : (s.setN k v).osc = s.osc := rfl
@[simp] theorem State.setN_stepped (k v : Nat) : (s.setN k v).stepped = s.stepped := rfl
@[simp] theorem State.setN_regs0 (k v : Nat) : (s.setN k v).regs0 = s.regs0 := rfl
@[simp] theorem State.setN_again (k v : Nat) : (s.setN k v).again = s.again := rfl
@[simp] theorem State.setN_snap (k v : Nat) : (s.setN k v).snap = s.snap := rfl
@[simp] theorem State.setN_laneA (k v : Nat) : (s.setN k v).laneA = s.laneA := rfl
@[simp] theorem State.setN_laneB (k v : Nat) : (s.setN k v).laneB = s.laneB := rfl
@[simp] theorem State.setN_laneC (k v : Nat) : (s.setN k v).laneC = s.laneC := rfl
@[simp] theorem State.setN_sram (k v : Nat) : (s.setN k v).sram = s.sram := rfl
@[simp] theorem State.setN_mram (k v : Nat) : (s.setN k v).mram = s.mram := rfl
@[simp] theorem State.setN_gal (k v : Nat) : (s.setN k v).gal = s.gal := rfl
@[simp] theorem State.setN_ringWait (k v : Nat) : (s.setN k v).ringWait = s.ringWait := rfl
@[simp] theorem State.setN_ringOff (k v : Nat) : (s.setN k v).ringOff = s.ringOff := rfl
@[simp] theorem State.setN_ringPre (k v : Nat) : (s.setN k v).ringPre = s.ringPre := rfl
@[simp] theorem State.setN_tickAt (k v : Nat) : (s.setN k v).tickAt = s.tickAt := rfl
@[simp] theorem State.setN_img (k v : Nat) : (s.setN k v).img = s.img := rfl
@[simp] theorem State.setN_straps (k v : Nat) : (s.setN k v).straps = s.straps := rfl
@[simp] theorem State.setN_pos (k v : Nat) : (s.setN k v).pos = s.pos := rfl
@[simp] theorem State.setN_mot (k v : Nat) : (s.setN k v).mot = s.mot := rfl
@[simp] theorem State.setN_door (k v : Nat) : (s.setN k v).door = s.door := rfl
@[simp] theorem State.setN_dsp (k v : Nat) : (s.setN k v).dsp = s.dsp := rfl
@[simp] theorem State.setN_safe (k v : Nat) : (s.setN k v).safe = s.safe := rfl
@[simp] theorem State.setN_llp (k v : Nat) : (s.setN k v).llp = s.llp := rfl
@[simp] theorem State.setN_field (k v : Nat) : (s.setN k v).field = s.field := rfl
@[simp] theorem State.setN_range (k v : Nat) : (s.setN k v).range = s.range := rfl
@[simp] theorem State.setN_net (k v : Nat) : (s.setN k v).net = s.net := rfl
@[simp] theorem State.setN_link (k v : Nat) : (s.setN k v).link = s.link := rfl
@[simp] theorem State.setN_host (k v : Nat) : (s.setN k v).host = s.host := rfl
@[simp] theorem State.setN_tests (k v : Nat) : (s.setN k v).tests = s.tests := rfl
@[simp] theorem State.setN_keep (k v : Nat) : (s.setN k v).keep = s.keep := rfl
@[simp] theorem State.setN_sys (k v : Nat) : (s.setN k v).sys = s.sys := rfl
@[simp] theorem State.setN_freeCtr (k v : Nat) : (s.setN k v).freeCtr = s.freeCtr := rfl

/-! ### setI -/

@[simp] theorem State.setI_pending (k : Nat) (v : Int) : (s.setI k v).pending = s.pending := rfl
@[simp] theorem State.setI_now (k : Nat) (v : Int) : (s.setI k v).now = s.now := rfl
@[simp] theorem State.setI_osc (k : Nat) (v : Int) : (s.setI k v).osc = s.osc := rfl
@[simp] theorem State.setI_stepped (k : Nat) (v : Int) : (s.setI k v).stepped = s.stepped := rfl
@[simp] theorem State.setI_regs0 (k : Nat) (v : Int) : (s.setI k v).regs0 = s.regs0 := rfl
@[simp] theorem State.setI_again (k : Nat) (v : Int) : (s.setI k v).again = s.again := rfl
@[simp] theorem State.setI_snap (k : Nat) (v : Int) : (s.setI k v).snap = s.snap := rfl
@[simp] theorem State.setI_laneA (k : Nat) (v : Int) : (s.setI k v).laneA = s.laneA := rfl
@[simp] theorem State.setI_laneB (k : Nat) (v : Int) : (s.setI k v).laneB = s.laneB := rfl
@[simp] theorem State.setI_laneC (k : Nat) (v : Int) : (s.setI k v).laneC = s.laneC := rfl
@[simp] theorem State.setI_sram (k : Nat) (v : Int) : (s.setI k v).sram = s.sram := rfl
@[simp] theorem State.setI_mram (k : Nat) (v : Int) : (s.setI k v).mram = s.mram := rfl
@[simp] theorem State.setI_gal (k : Nat) (v : Int) : (s.setI k v).gal = s.gal := rfl
@[simp] theorem State.setI_ringWait (k : Nat) (v : Int) : (s.setI k v).ringWait = s.ringWait := rfl
@[simp] theorem State.setI_ringOff (k : Nat) (v : Int) : (s.setI k v).ringOff = s.ringOff := rfl
@[simp] theorem State.setI_ringPre (k : Nat) (v : Int) : (s.setI k v).ringPre = s.ringPre := rfl
@[simp] theorem State.setI_tickAt (k : Nat) (v : Int) : (s.setI k v).tickAt = s.tickAt := rfl
@[simp] theorem State.setI_img (k : Nat) (v : Int) : (s.setI k v).img = s.img := rfl
@[simp] theorem State.setI_straps (k : Nat) (v : Int) : (s.setI k v).straps = s.straps := rfl
@[simp] theorem State.setI_pos (k : Nat) (v : Int) : (s.setI k v).pos = s.pos := rfl
@[simp] theorem State.setI_mot (k : Nat) (v : Int) : (s.setI k v).mot = s.mot := rfl
@[simp] theorem State.setI_door (k : Nat) (v : Int) : (s.setI k v).door = s.door := rfl
@[simp] theorem State.setI_dsp (k : Nat) (v : Int) : (s.setI k v).dsp = s.dsp := rfl
@[simp] theorem State.setI_safe (k : Nat) (v : Int) : (s.setI k v).safe = s.safe := rfl
@[simp] theorem State.setI_llp (k : Nat) (v : Int) : (s.setI k v).llp = s.llp := rfl
@[simp] theorem State.setI_field (k : Nat) (v : Int) : (s.setI k v).field = s.field := rfl
@[simp] theorem State.setI_range (k : Nat) (v : Int) : (s.setI k v).range = s.range := rfl
@[simp] theorem State.setI_net (k : Nat) (v : Int) : (s.setI k v).net = s.net := rfl
@[simp] theorem State.setI_link (k : Nat) (v : Int) : (s.setI k v).link = s.link := rfl
@[simp] theorem State.setI_host (k : Nat) (v : Int) : (s.setI k v).host = s.host := rfl
@[simp] theorem State.setI_tests (k : Nat) (v : Int) : (s.setI k v).tests = s.tests := rfl
@[simp] theorem State.setI_keep (k : Nat) (v : Int) : (s.setI k v).keep = s.keep := rfl
@[simp] theorem State.setI_sys (k : Nat) (v : Int) : (s.setI k v).sys = s.sys := rfl
@[simp] theorem State.setI_freeCtr (k : Nat) (v : Int) : (s.setI k v).freeCtr = s.freeCtr := rfl

/-! ### setFld -/

@[simp] theorem State.setFld_pending (f : Fld) (v : Nat) : (s.setFld f v).pending = s.pending := rfl
@[simp] theorem State.setFld_now (f : Fld) (v : Nat) : (s.setFld f v).now = s.now := rfl
@[simp] theorem State.setFld_osc (f : Fld) (v : Nat) : (s.setFld f v).osc = s.osc := rfl
@[simp] theorem State.setFld_stepped (f : Fld) (v : Nat) : (s.setFld f v).stepped = s.stepped := rfl
@[simp] theorem State.setFld_regs0 (f : Fld) (v : Nat) : (s.setFld f v).regs0 = s.regs0 := rfl
@[simp] theorem State.setFld_again (f : Fld) (v : Nat) : (s.setFld f v).again = s.again := rfl
@[simp] theorem State.setFld_snap (f : Fld) (v : Nat) : (s.setFld f v).snap = s.snap := rfl
@[simp] theorem State.setFld_laneA (f : Fld) (v : Nat) : (s.setFld f v).laneA = s.laneA := rfl
@[simp] theorem State.setFld_laneB (f : Fld) (v : Nat) : (s.setFld f v).laneB = s.laneB := rfl
@[simp] theorem State.setFld_laneC (f : Fld) (v : Nat) : (s.setFld f v).laneC = s.laneC := rfl
@[simp] theorem State.setFld_sram (f : Fld) (v : Nat) : (s.setFld f v).sram = s.sram := rfl
@[simp] theorem State.setFld_mram (f : Fld) (v : Nat) : (s.setFld f v).mram = s.mram := rfl
@[simp] theorem State.setFld_gal (f : Fld) (v : Nat) : (s.setFld f v).gal = s.gal := rfl
@[simp] theorem State.setFld_ringWait (f : Fld) (v : Nat) : (s.setFld f v).ringWait = s.ringWait := rfl
@[simp] theorem State.setFld_ringOff (f : Fld) (v : Nat) : (s.setFld f v).ringOff = s.ringOff := rfl
@[simp] theorem State.setFld_ringPre (f : Fld) (v : Nat) : (s.setFld f v).ringPre = s.ringPre := rfl
@[simp] theorem State.setFld_tickAt (f : Fld) (v : Nat) : (s.setFld f v).tickAt = s.tickAt := rfl
@[simp] theorem State.setFld_img (f : Fld) (v : Nat) : (s.setFld f v).img = s.img := rfl
@[simp] theorem State.setFld_straps (f : Fld) (v : Nat) : (s.setFld f v).straps = s.straps := rfl
@[simp] theorem State.setFld_pos (f : Fld) (v : Nat) : (s.setFld f v).pos = s.pos := rfl
@[simp] theorem State.setFld_mot (f : Fld) (v : Nat) : (s.setFld f v).mot = s.mot := rfl
@[simp] theorem State.setFld_door (f : Fld) (v : Nat) : (s.setFld f v).door = s.door := rfl
@[simp] theorem State.setFld_dsp (f : Fld) (v : Nat) : (s.setFld f v).dsp = s.dsp := rfl
@[simp] theorem State.setFld_safe (f : Fld) (v : Nat) : (s.setFld f v).safe = s.safe := rfl
@[simp] theorem State.setFld_llp (f : Fld) (v : Nat) : (s.setFld f v).llp = s.llp := rfl
@[simp] theorem State.setFld_field (f : Fld) (v : Nat) : (s.setFld f v).field = s.field := rfl
@[simp] theorem State.setFld_range (f : Fld) (v : Nat) : (s.setFld f v).range = s.range := rfl
@[simp] theorem State.setFld_net (f : Fld) (v : Nat) : (s.setFld f v).net = s.net := rfl
@[simp] theorem State.setFld_link (f : Fld) (v : Nat) : (s.setFld f v).link = s.link := rfl
@[simp] theorem State.setFld_host (f : Fld) (v : Nat) : (s.setFld f v).host = s.host := rfl
@[simp] theorem State.setFld_tests (f : Fld) (v : Nat) : (s.setFld f v).tests = s.tests := rfl
@[simp] theorem State.setFld_keep (f : Fld) (v : Nat) : (s.setFld f v).keep = s.keep := rfl
@[simp] theorem State.setFld_sys (f : Fld) (v : Nat) : (s.setFld f v).sys = s.sys := rfl
@[simp] theorem State.setFld_freeCtr (f : Fld) (v : Nat) : (s.setFld f v).freeCtr = s.freeCtr := rfl

/-! ### setFlag -/

@[simp] theorem State.setFlag_pending (f : Fld) (b : Bool) : (s.setFlag f b).pending = s.pending := rfl
@[simp] theorem State.setFlag_now (f : Fld) (b : Bool) : (s.setFlag f b).now = s.now := rfl
@[simp] theorem State.setFlag_osc (f : Fld) (b : Bool) : (s.setFlag f b).osc = s.osc := rfl
@[simp] theorem State.setFlag_stepped (f : Fld) (b : Bool) : (s.setFlag f b).stepped = s.stepped := rfl
@[simp] theorem State.setFlag_regs0 (f : Fld) (b : Bool) : (s.setFlag f b).regs0 = s.regs0 := rfl
@[simp] theorem State.setFlag_again (f : Fld) (b : Bool) : (s.setFlag f b).again = s.again := rfl
@[simp] theorem State.setFlag_snap (f : Fld) (b : Bool) : (s.setFlag f b).snap = s.snap := rfl
@[simp] theorem State.setFlag_laneA (f : Fld) (b : Bool) : (s.setFlag f b).laneA = s.laneA := rfl
@[simp] theorem State.setFlag_laneB (f : Fld) (b : Bool) : (s.setFlag f b).laneB = s.laneB := rfl
@[simp] theorem State.setFlag_laneC (f : Fld) (b : Bool) : (s.setFlag f b).laneC = s.laneC := rfl
@[simp] theorem State.setFlag_sram (f : Fld) (b : Bool) : (s.setFlag f b).sram = s.sram := rfl
@[simp] theorem State.setFlag_mram (f : Fld) (b : Bool) : (s.setFlag f b).mram = s.mram := rfl
@[simp] theorem State.setFlag_gal (f : Fld) (b : Bool) : (s.setFlag f b).gal = s.gal := rfl
@[simp] theorem State.setFlag_ringWait (f : Fld) (b : Bool) : (s.setFlag f b).ringWait = s.ringWait := rfl
@[simp] theorem State.setFlag_ringOff (f : Fld) (b : Bool) : (s.setFlag f b).ringOff = s.ringOff := rfl
@[simp] theorem State.setFlag_ringPre (f : Fld) (b : Bool) : (s.setFlag f b).ringPre = s.ringPre := rfl
@[simp] theorem State.setFlag_tickAt (f : Fld) (b : Bool) : (s.setFlag f b).tickAt = s.tickAt := rfl
@[simp] theorem State.setFlag_img (f : Fld) (b : Bool) : (s.setFlag f b).img = s.img := rfl
@[simp] theorem State.setFlag_straps (f : Fld) (b : Bool) : (s.setFlag f b).straps = s.straps := rfl
@[simp] theorem State.setFlag_pos (f : Fld) (b : Bool) : (s.setFlag f b).pos = s.pos := rfl
@[simp] theorem State.setFlag_mot (f : Fld) (b : Bool) : (s.setFlag f b).mot = s.mot := rfl
@[simp] theorem State.setFlag_door (f : Fld) (b : Bool) : (s.setFlag f b).door = s.door := rfl
@[simp] theorem State.setFlag_dsp (f : Fld) (b : Bool) : (s.setFlag f b).dsp = s.dsp := rfl
@[simp] theorem State.setFlag_safe (f : Fld) (b : Bool) : (s.setFlag f b).safe = s.safe := rfl
@[simp] theorem State.setFlag_llp (f : Fld) (b : Bool) : (s.setFlag f b).llp = s.llp := rfl
@[simp] theorem State.setFlag_field (f : Fld) (b : Bool) : (s.setFlag f b).field = s.field := rfl
@[simp] theorem State.setFlag_range (f : Fld) (b : Bool) : (s.setFlag f b).range = s.range := rfl
@[simp] theorem State.setFlag_net (f : Fld) (b : Bool) : (s.setFlag f b).net = s.net := rfl
@[simp] theorem State.setFlag_link (f : Fld) (b : Bool) : (s.setFlag f b).link = s.link := rfl
@[simp] theorem State.setFlag_host (f : Fld) (b : Bool) : (s.setFlag f b).host = s.host := rfl
@[simp] theorem State.setFlag_tests (f : Fld) (b : Bool) : (s.setFlag f b).tests = s.tests := rfl
@[simp] theorem State.setFlag_keep (f : Fld) (b : Bool) : (s.setFlag f b).keep = s.keep := rfl
@[simp] theorem State.setFlag_sys (f : Fld) (b : Bool) : (s.setFlag f b).sys = s.sys := rfl
@[simp] theorem State.setFlag_freeCtr (f : Fld) (b : Bool) : (s.setFlag f b).freeCtr = s.freeCtr := rfl

/-! ### bump -/

@[simp] theorem State.bump_pending (f : Fld) (n : Nat) : (s.bump f n).pending = s.pending := rfl
@[simp] theorem State.bump_now (f : Fld) (n : Nat) : (s.bump f n).now = s.now := rfl
@[simp] theorem State.bump_osc (f : Fld) (n : Nat) : (s.bump f n).osc = s.osc := rfl
@[simp] theorem State.bump_stepped (f : Fld) (n : Nat) : (s.bump f n).stepped = s.stepped := rfl
@[simp] theorem State.bump_regs0 (f : Fld) (n : Nat) : (s.bump f n).regs0 = s.regs0 := rfl
@[simp] theorem State.bump_again (f : Fld) (n : Nat) : (s.bump f n).again = s.again := rfl
@[simp] theorem State.bump_snap (f : Fld) (n : Nat) : (s.bump f n).snap = s.snap := rfl
@[simp] theorem State.bump_laneA (f : Fld) (n : Nat) : (s.bump f n).laneA = s.laneA := rfl
@[simp] theorem State.bump_laneB (f : Fld) (n : Nat) : (s.bump f n).laneB = s.laneB := rfl
@[simp] theorem State.bump_laneC (f : Fld) (n : Nat) : (s.bump f n).laneC = s.laneC := rfl
@[simp] theorem State.bump_sram (f : Fld) (n : Nat) : (s.bump f n).sram = s.sram := rfl
@[simp] theorem State.bump_mram (f : Fld) (n : Nat) : (s.bump f n).mram = s.mram := rfl
@[simp] theorem State.bump_gal (f : Fld) (n : Nat) : (s.bump f n).gal = s.gal := rfl
@[simp] theorem State.bump_ringWait (f : Fld) (n : Nat) : (s.bump f n).ringWait = s.ringWait := rfl
@[simp] theorem State.bump_ringOff (f : Fld) (n : Nat) : (s.bump f n).ringOff = s.ringOff := rfl
@[simp] theorem State.bump_ringPre (f : Fld) (n : Nat) : (s.bump f n).ringPre = s.ringPre := rfl
@[simp] theorem State.bump_tickAt (f : Fld) (n : Nat) : (s.bump f n).tickAt = s.tickAt := rfl
@[simp] theorem State.bump_img (f : Fld) (n : Nat) : (s.bump f n).img = s.img := rfl
@[simp] theorem State.bump_straps (f : Fld) (n : Nat) : (s.bump f n).straps = s.straps := rfl
@[simp] theorem State.bump_pos (f : Fld) (n : Nat) : (s.bump f n).pos = s.pos := rfl
@[simp] theorem State.bump_mot (f : Fld) (n : Nat) : (s.bump f n).mot = s.mot := rfl
@[simp] theorem State.bump_door (f : Fld) (n : Nat) : (s.bump f n).door = s.door := rfl
@[simp] theorem State.bump_dsp (f : Fld) (n : Nat) : (s.bump f n).dsp = s.dsp := rfl
@[simp] theorem State.bump_safe (f : Fld) (n : Nat) : (s.bump f n).safe = s.safe := rfl
@[simp] theorem State.bump_llp (f : Fld) (n : Nat) : (s.bump f n).llp = s.llp := rfl
@[simp] theorem State.bump_field (f : Fld) (n : Nat) : (s.bump f n).field = s.field := rfl
@[simp] theorem State.bump_range (f : Fld) (n : Nat) : (s.bump f n).range = s.range := rfl
@[simp] theorem State.bump_net (f : Fld) (n : Nat) : (s.bump f n).net = s.net := rfl
@[simp] theorem State.bump_link (f : Fld) (n : Nat) : (s.bump f n).link = s.link := rfl
@[simp] theorem State.bump_host (f : Fld) (n : Nat) : (s.bump f n).host = s.host := rfl
@[simp] theorem State.bump_tests (f : Fld) (n : Nat) : (s.bump f n).tests = s.tests := rfl
@[simp] theorem State.bump_keep (f : Fld) (n : Nat) : (s.bump f n).keep = s.keep := rfl
@[simp] theorem State.bump_sys (f : Fld) (n : Nat) : (s.bump f n).sys = s.sys := rfl
@[simp] theorem State.bump_freeCtr (f : Fld) (n : Nat) : (s.bump f n).freeCtr = s.freeCtr := rfl

/-! ### atTime -/

@[simp] theorem State.atTime_pending (t : Nat) : (s.atTime t).pending = s.pending := rfl
@[simp] theorem State.atTime_now (t : Nat) : (s.atTime t).now = max s.now t := rfl
@[simp] theorem State.atTime_osc (t : Nat) : (s.atTime t).osc = s.oscAt t 0 := rfl
@[simp] theorem State.atTime_stepped (t : Nat) : (s.atTime t).stepped = s.stepped := rfl
@[simp] theorem State.atTime_regs (t : Nat) : (s.atTime t).regs = s.regs := rfl
@[simp] theorem State.atTime_regs0 (t : Nat) : (s.atTime t).regs0 = if s.now < t then s.regs else s.regs0 := rfl
@[simp] theorem State.atTime_again (t : Nat) : (s.atTime t).again = if s.now < t then [] else s.again := rfl
@[simp] theorem State.atTime_snap (t : Nat) : (s.atTime t).snap = s.snap := rfl
@[simp] theorem State.atTime_laneA (t : Nat) : (s.atTime t).laneA = s.laneA := rfl
@[simp] theorem State.atTime_laneB (t : Nat) : (s.atTime t).laneB = s.laneB := rfl
@[simp] theorem State.atTime_laneC (t : Nat) : (s.atTime t).laneC = s.laneC := rfl
@[simp] theorem State.atTime_sram (t : Nat) : (s.atTime t).sram = s.sram := rfl
@[simp] theorem State.atTime_mram (t : Nat) : (s.atTime t).mram = s.mram := rfl
@[simp] theorem State.atTime_gal (t : Nat) : (s.atTime t).gal = s.gal := rfl
@[simp] theorem State.atTime_ringWait (t : Nat) : (s.atTime t).ringWait = s.ringWait := rfl
@[simp] theorem State.atTime_ringOff (t : Nat) : (s.atTime t).ringOff = s.ringOff := rfl
@[simp] theorem State.atTime_ringPre (t : Nat) : (s.atTime t).ringPre = s.ringPre := rfl
@[simp] theorem State.atTime_tickAt (t : Nat) : (s.atTime t).tickAt = s.tickAt := rfl
@[simp] theorem State.atTime_img (t : Nat) : (s.atTime t).img = s.img := rfl
@[simp] theorem State.atTime_straps (t : Nat) : (s.atTime t).straps = s.straps := rfl
@[simp] theorem State.atTime_pos (t : Nat) : (s.atTime t).pos = s.pos := rfl
@[simp] theorem State.atTime_mot (t : Nat) : (s.atTime t).mot = s.mot := rfl
@[simp] theorem State.atTime_door (t : Nat) : (s.atTime t).door = s.door := rfl
@[simp] theorem State.atTime_dsp (t : Nat) : (s.atTime t).dsp = s.dsp := rfl
@[simp] theorem State.atTime_safe (t : Nat) : (s.atTime t).safe = s.safe := rfl
@[simp] theorem State.atTime_llp (t : Nat) : (s.atTime t).llp = s.llp := rfl
@[simp] theorem State.atTime_field (t : Nat) : (s.atTime t).field = s.field := rfl
@[simp] theorem State.atTime_range (t : Nat) : (s.atTime t).range = s.range := rfl
@[simp] theorem State.atTime_net (t : Nat) : (s.atTime t).net = s.net := rfl
@[simp] theorem State.atTime_link (t : Nat) : (s.atTime t).link = s.link := rfl
@[simp] theorem State.atTime_host (t : Nat) : (s.atTime t).host = s.host := rfl
@[simp] theorem State.atTime_tests (t : Nat) : (s.atTime t).tests = s.tests := rfl
@[simp] theorem State.atTime_keep (t : Nat) : (s.atTime t).keep = s.keep := rfl
@[simp] theorem State.atTime_sys (t : Nat) : (s.atTime t).sys = s.sys := rfl
@[simp] theorem State.atTime_freeCtr (t : Nat) : (s.atTime t).freeCtr = s.freeCtr := rfl

/-! ### onPos -/

@[simp] theorem State.onPos_pending (f : PosSt → PosSt) : (s.onPos f).pending = s.pending := rfl
@[simp] theorem State.onPos_now (f : PosSt → PosSt) : (s.onPos f).now = s.now := rfl
@[simp] theorem State.onPos_osc (f : PosSt → PosSt) : (s.onPos f).osc = s.osc := rfl
@[simp] theorem State.onPos_stepped (f : PosSt → PosSt) : (s.onPos f).stepped = s.stepped := rfl
@[simp] theorem State.onPos_regs (f : PosSt → PosSt) : (s.onPos f).regs = s.regs := rfl
@[simp] theorem State.onPos_regs0 (f : PosSt → PosSt) : (s.onPos f).regs0 = s.regs0 := rfl
@[simp] theorem State.onPos_again (f : PosSt → PosSt) : (s.onPos f).again = s.again := rfl
@[simp] theorem State.onPos_snap (f : PosSt → PosSt) : (s.onPos f).snap = s.snap := rfl
@[simp] theorem State.onPos_laneA (f : PosSt → PosSt) : (s.onPos f).laneA = s.laneA := rfl
@[simp] theorem State.onPos_laneB (f : PosSt → PosSt) : (s.onPos f).laneB = s.laneB := rfl
@[simp] theorem State.onPos_laneC (f : PosSt → PosSt) : (s.onPos f).laneC = s.laneC := rfl
@[simp] theorem State.onPos_sram (f : PosSt → PosSt) : (s.onPos f).sram = s.sram := rfl
@[simp] theorem State.onPos_mram (f : PosSt → PosSt) : (s.onPos f).mram = s.mram := rfl
@[simp] theorem State.onPos_gal (f : PosSt → PosSt) : (s.onPos f).gal = s.gal := rfl
@[simp] theorem State.onPos_ringWait (f : PosSt → PosSt) : (s.onPos f).ringWait = s.ringWait := rfl
@[simp] theorem State.onPos_ringOff (f : PosSt → PosSt) : (s.onPos f).ringOff = s.ringOff := rfl
@[simp] theorem State.onPos_ringPre (f : PosSt → PosSt) : (s.onPos f).ringPre = s.ringPre := rfl
@[simp] theorem State.onPos_tickAt (f : PosSt → PosSt) : (s.onPos f).tickAt = s.tickAt := rfl
@[simp] theorem State.onPos_img (f : PosSt → PosSt) : (s.onPos f).img = s.img := rfl
@[simp] theorem State.onPos_straps (f : PosSt → PosSt) : (s.onPos f).straps = s.straps := rfl
@[simp] theorem State.onPos_pos (f : PosSt → PosSt) : (s.onPos f).pos = f s.pos := rfl
@[simp] theorem State.onPos_mot (f : PosSt → PosSt) : (s.onPos f).mot = s.mot := rfl
@[simp] theorem State.onPos_door (f : PosSt → PosSt) : (s.onPos f).door = s.door := rfl
@[simp] theorem State.onPos_dsp (f : PosSt → PosSt) : (s.onPos f).dsp = s.dsp := rfl
@[simp] theorem State.onPos_safe (f : PosSt → PosSt) : (s.onPos f).safe = s.safe := rfl
@[simp] theorem State.onPos_llp (f : PosSt → PosSt) : (s.onPos f).llp = s.llp := rfl
@[simp] theorem State.onPos_field (f : PosSt → PosSt) : (s.onPos f).field = s.field := rfl
@[simp] theorem State.onPos_range (f : PosSt → PosSt) : (s.onPos f).range = s.range := rfl
@[simp] theorem State.onPos_net (f : PosSt → PosSt) : (s.onPos f).net = s.net := rfl
@[simp] theorem State.onPos_link (f : PosSt → PosSt) : (s.onPos f).link = s.link := rfl
@[simp] theorem State.onPos_host (f : PosSt → PosSt) : (s.onPos f).host = s.host := rfl
@[simp] theorem State.onPos_tests (f : PosSt → PosSt) : (s.onPos f).tests = s.tests := rfl
@[simp] theorem State.onPos_keep (f : PosSt → PosSt) : (s.onPos f).keep = s.keep := rfl
@[simp] theorem State.onPos_sys (f : PosSt → PosSt) : (s.onPos f).sys = s.sys := rfl
@[simp] theorem State.onPos_freeCtr (f : PosSt → PosSt) : (s.onPos f).freeCtr = s.freeCtr := rfl

/-! ### onMot -/

@[simp] theorem State.onMot_pending (f : MotSt → MotSt) : (s.onMot f).pending = s.pending := rfl
@[simp] theorem State.onMot_now (f : MotSt → MotSt) : (s.onMot f).now = s.now := rfl
@[simp] theorem State.onMot_osc (f : MotSt → MotSt) : (s.onMot f).osc = s.osc := rfl
@[simp] theorem State.onMot_stepped (f : MotSt → MotSt) : (s.onMot f).stepped = s.stepped := rfl
@[simp] theorem State.onMot_regs (f : MotSt → MotSt) : (s.onMot f).regs = s.regs := rfl
@[simp] theorem State.onMot_regs0 (f : MotSt → MotSt) : (s.onMot f).regs0 = s.regs0 := rfl
@[simp] theorem State.onMot_again (f : MotSt → MotSt) : (s.onMot f).again = s.again := rfl
@[simp] theorem State.onMot_snap (f : MotSt → MotSt) : (s.onMot f).snap = s.snap := rfl
@[simp] theorem State.onMot_laneA (f : MotSt → MotSt) : (s.onMot f).laneA = s.laneA := rfl
@[simp] theorem State.onMot_laneB (f : MotSt → MotSt) : (s.onMot f).laneB = s.laneB := rfl
@[simp] theorem State.onMot_laneC (f : MotSt → MotSt) : (s.onMot f).laneC = s.laneC := rfl
@[simp] theorem State.onMot_sram (f : MotSt → MotSt) : (s.onMot f).sram = s.sram := rfl
@[simp] theorem State.onMot_mram (f : MotSt → MotSt) : (s.onMot f).mram = s.mram := rfl
@[simp] theorem State.onMot_gal (f : MotSt → MotSt) : (s.onMot f).gal = s.gal := rfl
@[simp] theorem State.onMot_ringWait (f : MotSt → MotSt) : (s.onMot f).ringWait = s.ringWait := rfl
@[simp] theorem State.onMot_ringOff (f : MotSt → MotSt) : (s.onMot f).ringOff = s.ringOff := rfl
@[simp] theorem State.onMot_ringPre (f : MotSt → MotSt) : (s.onMot f).ringPre = s.ringPre := rfl
@[simp] theorem State.onMot_tickAt (f : MotSt → MotSt) : (s.onMot f).tickAt = s.tickAt := rfl
@[simp] theorem State.onMot_img (f : MotSt → MotSt) : (s.onMot f).img = s.img := rfl
@[simp] theorem State.onMot_straps (f : MotSt → MotSt) : (s.onMot f).straps = s.straps := rfl
@[simp] theorem State.onMot_pos (f : MotSt → MotSt) : (s.onMot f).pos = s.pos := rfl
@[simp] theorem State.onMot_mot (f : MotSt → MotSt) : (s.onMot f).mot = f s.mot := rfl
@[simp] theorem State.onMot_door (f : MotSt → MotSt) : (s.onMot f).door = s.door := rfl
@[simp] theorem State.onMot_dsp (f : MotSt → MotSt) : (s.onMot f).dsp = s.dsp := rfl
@[simp] theorem State.onMot_safe (f : MotSt → MotSt) : (s.onMot f).safe = s.safe := rfl
@[simp] theorem State.onMot_llp (f : MotSt → MotSt) : (s.onMot f).llp = s.llp := rfl
@[simp] theorem State.onMot_field (f : MotSt → MotSt) : (s.onMot f).field = s.field := rfl
@[simp] theorem State.onMot_range (f : MotSt → MotSt) : (s.onMot f).range = s.range := rfl
@[simp] theorem State.onMot_net (f : MotSt → MotSt) : (s.onMot f).net = s.net := rfl
@[simp] theorem State.onMot_link (f : MotSt → MotSt) : (s.onMot f).link = s.link := rfl
@[simp] theorem State.onMot_host (f : MotSt → MotSt) : (s.onMot f).host = s.host := rfl
@[simp] theorem State.onMot_tests (f : MotSt → MotSt) : (s.onMot f).tests = s.tests := rfl
@[simp] theorem State.onMot_keep (f : MotSt → MotSt) : (s.onMot f).keep = s.keep := rfl
@[simp] theorem State.onMot_sys (f : MotSt → MotSt) : (s.onMot f).sys = s.sys := rfl
@[simp] theorem State.onMot_freeCtr (f : MotSt → MotSt) : (s.onMot f).freeCtr = s.freeCtr := rfl

/-! ### onAx -/

@[simp] theorem State.onAx_pending (a : Nat) (f : AxSt → AxSt) : (s.onAx a f).pending = s.pending := rfl
@[simp] theorem State.onAx_now (a : Nat) (f : AxSt → AxSt) : (s.onAx a f).now = s.now := rfl
@[simp] theorem State.onAx_osc (a : Nat) (f : AxSt → AxSt) : (s.onAx a f).osc = s.osc := rfl
@[simp] theorem State.onAx_stepped (a : Nat) (f : AxSt → AxSt) : (s.onAx a f).stepped = s.stepped := rfl
@[simp] theorem State.onAx_regs (a : Nat) (f : AxSt → AxSt) : (s.onAx a f).regs = s.regs := rfl
@[simp] theorem State.onAx_regs0 (a : Nat) (f : AxSt → AxSt) : (s.onAx a f).regs0 = s.regs0 := rfl
@[simp] theorem State.onAx_again (a : Nat) (f : AxSt → AxSt) : (s.onAx a f).again = s.again := rfl
@[simp] theorem State.onAx_snap (a : Nat) (f : AxSt → AxSt) : (s.onAx a f).snap = s.snap := rfl
@[simp] theorem State.onAx_laneA (a : Nat) (f : AxSt → AxSt) : (s.onAx a f).laneA = s.laneA := rfl
@[simp] theorem State.onAx_laneB (a : Nat) (f : AxSt → AxSt) : (s.onAx a f).laneB = s.laneB := rfl
@[simp] theorem State.onAx_laneC (a : Nat) (f : AxSt → AxSt) : (s.onAx a f).laneC = s.laneC := rfl
@[simp] theorem State.onAx_sram (a : Nat) (f : AxSt → AxSt) : (s.onAx a f).sram = s.sram := rfl
@[simp] theorem State.onAx_mram (a : Nat) (f : AxSt → AxSt) : (s.onAx a f).mram = s.mram := rfl
@[simp] theorem State.onAx_gal (a : Nat) (f : AxSt → AxSt) : (s.onAx a f).gal = s.gal := rfl
@[simp] theorem State.onAx_ringWait (a : Nat) (f : AxSt → AxSt) : (s.onAx a f).ringWait = s.ringWait := rfl
@[simp] theorem State.onAx_ringOff (a : Nat) (f : AxSt → AxSt) : (s.onAx a f).ringOff = s.ringOff := rfl
@[simp] theorem State.onAx_ringPre (a : Nat) (f : AxSt → AxSt) : (s.onAx a f).ringPre = s.ringPre := rfl
@[simp] theorem State.onAx_tickAt (a : Nat) (f : AxSt → AxSt) : (s.onAx a f).tickAt = s.tickAt := rfl
@[simp] theorem State.onAx_img (a : Nat) (f : AxSt → AxSt) : (s.onAx a f).img = s.img := rfl
@[simp] theorem State.onAx_straps (a : Nat) (f : AxSt → AxSt) : (s.onAx a f).straps = s.straps := rfl
@[simp] theorem State.onAx_pos (a : Nat) (f : AxSt → AxSt) : (s.onAx a f).pos = s.pos := rfl
@[simp] theorem State.onAx_door (a : Nat) (f : AxSt → AxSt) : (s.onAx a f).door = s.door := rfl
@[simp] theorem State.onAx_dsp (a : Nat) (f : AxSt → AxSt) : (s.onAx a f).dsp = s.dsp := rfl
@[simp] theorem State.onAx_safe (a : Nat) (f : AxSt → AxSt) : (s.onAx a f).safe = s.safe := rfl
@[simp] theorem State.onAx_llp (a : Nat) (f : AxSt → AxSt) : (s.onAx a f).llp = s.llp := rfl
@[simp] theorem State.onAx_field (a : Nat) (f : AxSt → AxSt) : (s.onAx a f).field = s.field := rfl
@[simp] theorem State.onAx_range (a : Nat) (f : AxSt → AxSt) : (s.onAx a f).range = s.range := rfl
@[simp] theorem State.onAx_net (a : Nat) (f : AxSt → AxSt) : (s.onAx a f).net = s.net := rfl
@[simp] theorem State.onAx_link (a : Nat) (f : AxSt → AxSt) : (s.onAx a f).link = s.link := rfl
@[simp] theorem State.onAx_host (a : Nat) (f : AxSt → AxSt) : (s.onAx a f).host = s.host := rfl
@[simp] theorem State.onAx_tests (a : Nat) (f : AxSt → AxSt) : (s.onAx a f).tests = s.tests := rfl
@[simp] theorem State.onAx_keep (a : Nat) (f : AxSt → AxSt) : (s.onAx a f).keep = s.keep := rfl
@[simp] theorem State.onAx_sys (a : Nat) (f : AxSt → AxSt) : (s.onAx a f).sys = s.sys := rfl
@[simp] theorem State.onAx_freeCtr (a : Nat) (f : AxSt → AxSt) : (s.onAx a f).freeCtr = s.freeCtr := rfl

/-! ### onDr -/

@[simp] theorem State.onDr_pending (d : Nat) (f : DoorSt → DoorSt) : (s.onDr d f).pending = s.pending := rfl
@[simp] theorem State.onDr_now (d : Nat) (f : DoorSt → DoorSt) : (s.onDr d f).now = s.now := rfl
@[simp] theorem State.onDr_osc (d : Nat) (f : DoorSt → DoorSt) : (s.onDr d f).osc = s.osc := rfl
@[simp] theorem State.onDr_stepped (d : Nat) (f : DoorSt → DoorSt) : (s.onDr d f).stepped = s.stepped := rfl
@[simp] theorem State.onDr_regs (d : Nat) (f : DoorSt → DoorSt) : (s.onDr d f).regs = s.regs := rfl
@[simp] theorem State.onDr_regs0 (d : Nat) (f : DoorSt → DoorSt) : (s.onDr d f).regs0 = s.regs0 := rfl
@[simp] theorem State.onDr_again (d : Nat) (f : DoorSt → DoorSt) : (s.onDr d f).again = s.again := rfl
@[simp] theorem State.onDr_snap (d : Nat) (f : DoorSt → DoorSt) : (s.onDr d f).snap = s.snap := rfl
@[simp] theorem State.onDr_laneA (d : Nat) (f : DoorSt → DoorSt) : (s.onDr d f).laneA = s.laneA := rfl
@[simp] theorem State.onDr_laneB (d : Nat) (f : DoorSt → DoorSt) : (s.onDr d f).laneB = s.laneB := rfl
@[simp] theorem State.onDr_laneC (d : Nat) (f : DoorSt → DoorSt) : (s.onDr d f).laneC = s.laneC := rfl
@[simp] theorem State.onDr_sram (d : Nat) (f : DoorSt → DoorSt) : (s.onDr d f).sram = s.sram := rfl
@[simp] theorem State.onDr_mram (d : Nat) (f : DoorSt → DoorSt) : (s.onDr d f).mram = s.mram := rfl
@[simp] theorem State.onDr_gal (d : Nat) (f : DoorSt → DoorSt) : (s.onDr d f).gal = s.gal := rfl
@[simp] theorem State.onDr_ringWait (d : Nat) (f : DoorSt → DoorSt) : (s.onDr d f).ringWait = s.ringWait := rfl
@[simp] theorem State.onDr_ringOff (d : Nat) (f : DoorSt → DoorSt) : (s.onDr d f).ringOff = s.ringOff := rfl
@[simp] theorem State.onDr_ringPre (d : Nat) (f : DoorSt → DoorSt) : (s.onDr d f).ringPre = s.ringPre := rfl
@[simp] theorem State.onDr_tickAt (d : Nat) (f : DoorSt → DoorSt) : (s.onDr d f).tickAt = s.tickAt := rfl
@[simp] theorem State.onDr_img (d : Nat) (f : DoorSt → DoorSt) : (s.onDr d f).img = s.img := rfl
@[simp] theorem State.onDr_straps (d : Nat) (f : DoorSt → DoorSt) : (s.onDr d f).straps = s.straps := rfl
@[simp] theorem State.onDr_pos (d : Nat) (f : DoorSt → DoorSt) : (s.onDr d f).pos = s.pos := rfl
@[simp] theorem State.onDr_mot (d : Nat) (f : DoorSt → DoorSt) : (s.onDr d f).mot = s.mot := rfl
@[simp] theorem State.onDr_dsp (d : Nat) (f : DoorSt → DoorSt) : (s.onDr d f).dsp = s.dsp := rfl
@[simp] theorem State.onDr_safe (d : Nat) (f : DoorSt → DoorSt) : (s.onDr d f).safe = s.safe := rfl
@[simp] theorem State.onDr_llp (d : Nat) (f : DoorSt → DoorSt) : (s.onDr d f).llp = s.llp := rfl
@[simp] theorem State.onDr_field (d : Nat) (f : DoorSt → DoorSt) : (s.onDr d f).field = s.field := rfl
@[simp] theorem State.onDr_range (d : Nat) (f : DoorSt → DoorSt) : (s.onDr d f).range = s.range := rfl
@[simp] theorem State.onDr_net (d : Nat) (f : DoorSt → DoorSt) : (s.onDr d f).net = s.net := rfl
@[simp] theorem State.onDr_link (d : Nat) (f : DoorSt → DoorSt) : (s.onDr d f).link = s.link := rfl
@[simp] theorem State.onDr_host (d : Nat) (f : DoorSt → DoorSt) : (s.onDr d f).host = s.host := rfl
@[simp] theorem State.onDr_tests (d : Nat) (f : DoorSt → DoorSt) : (s.onDr d f).tests = s.tests := rfl
@[simp] theorem State.onDr_keep (d : Nat) (f : DoorSt → DoorSt) : (s.onDr d f).keep = s.keep := rfl
@[simp] theorem State.onDr_sys (d : Nat) (f : DoorSt → DoorSt) : (s.onDr d f).sys = s.sys := rfl
@[simp] theorem State.onDr_freeCtr (d : Nat) (f : DoorSt → DoorSt) : (s.onDr d f).freeCtr = s.freeCtr := rfl

/-! ### onDsp -/

@[simp] theorem State.onDsp_pending (f : DspSt → DspSt) : (s.onDsp f).pending = s.pending := rfl
@[simp] theorem State.onDsp_now (f : DspSt → DspSt) : (s.onDsp f).now = s.now := rfl
@[simp] theorem State.onDsp_osc (f : DspSt → DspSt) : (s.onDsp f).osc = s.osc := rfl
@[simp] theorem State.onDsp_stepped (f : DspSt → DspSt) : (s.onDsp f).stepped = s.stepped := rfl
@[simp] theorem State.onDsp_regs (f : DspSt → DspSt) : (s.onDsp f).regs = s.regs := rfl
@[simp] theorem State.onDsp_regs0 (f : DspSt → DspSt) : (s.onDsp f).regs0 = s.regs0 := rfl
@[simp] theorem State.onDsp_again (f : DspSt → DspSt) : (s.onDsp f).again = s.again := rfl
@[simp] theorem State.onDsp_snap (f : DspSt → DspSt) : (s.onDsp f).snap = s.snap := rfl
@[simp] theorem State.onDsp_laneA (f : DspSt → DspSt) : (s.onDsp f).laneA = s.laneA := rfl
@[simp] theorem State.onDsp_laneB (f : DspSt → DspSt) : (s.onDsp f).laneB = s.laneB := rfl
@[simp] theorem State.onDsp_laneC (f : DspSt → DspSt) : (s.onDsp f).laneC = s.laneC := rfl
@[simp] theorem State.onDsp_sram (f : DspSt → DspSt) : (s.onDsp f).sram = s.sram := rfl
@[simp] theorem State.onDsp_mram (f : DspSt → DspSt) : (s.onDsp f).mram = s.mram := rfl
@[simp] theorem State.onDsp_gal (f : DspSt → DspSt) : (s.onDsp f).gal = s.gal := rfl
@[simp] theorem State.onDsp_ringWait (f : DspSt → DspSt) : (s.onDsp f).ringWait = s.ringWait := rfl
@[simp] theorem State.onDsp_ringOff (f : DspSt → DspSt) : (s.onDsp f).ringOff = s.ringOff := rfl
@[simp] theorem State.onDsp_ringPre (f : DspSt → DspSt) : (s.onDsp f).ringPre = s.ringPre := rfl
@[simp] theorem State.onDsp_tickAt (f : DspSt → DspSt) : (s.onDsp f).tickAt = s.tickAt := rfl
@[simp] theorem State.onDsp_img (f : DspSt → DspSt) : (s.onDsp f).img = s.img := rfl
@[simp] theorem State.onDsp_straps (f : DspSt → DspSt) : (s.onDsp f).straps = s.straps := rfl
@[simp] theorem State.onDsp_pos (f : DspSt → DspSt) : (s.onDsp f).pos = s.pos := rfl
@[simp] theorem State.onDsp_mot (f : DspSt → DspSt) : (s.onDsp f).mot = s.mot := rfl
@[simp] theorem State.onDsp_door (f : DspSt → DspSt) : (s.onDsp f).door = s.door := rfl
@[simp] theorem State.onDsp_dsp (f : DspSt → DspSt) : (s.onDsp f).dsp = f s.dsp := rfl
@[simp] theorem State.onDsp_safe (f : DspSt → DspSt) : (s.onDsp f).safe = s.safe := rfl
@[simp] theorem State.onDsp_llp (f : DspSt → DspSt) : (s.onDsp f).llp = s.llp := rfl
@[simp] theorem State.onDsp_field (f : DspSt → DspSt) : (s.onDsp f).field = s.field := rfl
@[simp] theorem State.onDsp_range (f : DspSt → DspSt) : (s.onDsp f).range = s.range := rfl
@[simp] theorem State.onDsp_net (f : DspSt → DspSt) : (s.onDsp f).net = s.net := rfl
@[simp] theorem State.onDsp_link (f : DspSt → DspSt) : (s.onDsp f).link = s.link := rfl
@[simp] theorem State.onDsp_host (f : DspSt → DspSt) : (s.onDsp f).host = s.host := rfl
@[simp] theorem State.onDsp_tests (f : DspSt → DspSt) : (s.onDsp f).tests = s.tests := rfl
@[simp] theorem State.onDsp_keep (f : DspSt → DspSt) : (s.onDsp f).keep = s.keep := rfl
@[simp] theorem State.onDsp_sys (f : DspSt → DspSt) : (s.onDsp f).sys = s.sys := rfl
@[simp] theorem State.onDsp_freeCtr (f : DspSt → DspSt) : (s.onDsp f).freeCtr = s.freeCtr := rfl

/-! ### onMon -/

@[simp] theorem State.onMon_pending (l : Nat) (f : MonSt → MonSt) : (s.onMon l f).pending = s.pending := rfl
@[simp] theorem State.onMon_now (l : Nat) (f : MonSt → MonSt) : (s.onMon l f).now = s.now := rfl
@[simp] theorem State.onMon_osc (l : Nat) (f : MonSt → MonSt) : (s.onMon l f).osc = s.osc := rfl
@[simp] theorem State.onMon_stepped (l : Nat) (f : MonSt → MonSt) : (s.onMon l f).stepped = s.stepped := rfl
@[simp] theorem State.onMon_regs (l : Nat) (f : MonSt → MonSt) : (s.onMon l f).regs = s.regs := rfl
@[simp] theorem State.onMon_regs0 (l : Nat) (f : MonSt → MonSt) : (s.onMon l f).regs0 = s.regs0 := rfl
@[simp] theorem State.onMon_again (l : Nat) (f : MonSt → MonSt) : (s.onMon l f).again = s.again := rfl
@[simp] theorem State.onMon_snap (l : Nat) (f : MonSt → MonSt) : (s.onMon l f).snap = s.snap := rfl
@[simp] theorem State.onMon_laneA (l : Nat) (f : MonSt → MonSt) : (s.onMon l f).laneA = s.laneA := rfl
@[simp] theorem State.onMon_laneB (l : Nat) (f : MonSt → MonSt) : (s.onMon l f).laneB = s.laneB := rfl
@[simp] theorem State.onMon_laneC (l : Nat) (f : MonSt → MonSt) : (s.onMon l f).laneC = s.laneC := rfl
@[simp] theorem State.onMon_sram (l : Nat) (f : MonSt → MonSt) : (s.onMon l f).sram = s.sram := rfl
@[simp] theorem State.onMon_mram (l : Nat) (f : MonSt → MonSt) : (s.onMon l f).mram = s.mram := rfl
@[simp] theorem State.onMon_gal (l : Nat) (f : MonSt → MonSt) : (s.onMon l f).gal = s.gal := rfl
@[simp] theorem State.onMon_ringWait (l : Nat) (f : MonSt → MonSt) : (s.onMon l f).ringWait = s.ringWait := rfl
@[simp] theorem State.onMon_ringOff (l : Nat) (f : MonSt → MonSt) : (s.onMon l f).ringOff = s.ringOff := rfl
@[simp] theorem State.onMon_ringPre (l : Nat) (f : MonSt → MonSt) : (s.onMon l f).ringPre = s.ringPre := rfl
@[simp] theorem State.onMon_tickAt (l : Nat) (f : MonSt → MonSt) : (s.onMon l f).tickAt = s.tickAt := rfl
@[simp] theorem State.onMon_img (l : Nat) (f : MonSt → MonSt) : (s.onMon l f).img = s.img := rfl
@[simp] theorem State.onMon_straps (l : Nat) (f : MonSt → MonSt) : (s.onMon l f).straps = s.straps := rfl
@[simp] theorem State.onMon_pos (l : Nat) (f : MonSt → MonSt) : (s.onMon l f).pos = s.pos := rfl
@[simp] theorem State.onMon_mot (l : Nat) (f : MonSt → MonSt) : (s.onMon l f).mot = s.mot := rfl
@[simp] theorem State.onMon_door (l : Nat) (f : MonSt → MonSt) : (s.onMon l f).door = s.door := rfl
@[simp] theorem State.onMon_dsp (l : Nat) (f : MonSt → MonSt) : (s.onMon l f).dsp = s.dsp := rfl
@[simp] theorem State.onMon_llp (l : Nat) (f : MonSt → MonSt) : (s.onMon l f).llp = s.llp := rfl
@[simp] theorem State.onMon_field (l : Nat) (f : MonSt → MonSt) : (s.onMon l f).field = s.field := rfl
@[simp] theorem State.onMon_range (l : Nat) (f : MonSt → MonSt) : (s.onMon l f).range = s.range := rfl
@[simp] theorem State.onMon_net (l : Nat) (f : MonSt → MonSt) : (s.onMon l f).net = s.net := rfl
@[simp] theorem State.onMon_link (l : Nat) (f : MonSt → MonSt) : (s.onMon l f).link = s.link := rfl
@[simp] theorem State.onMon_host (l : Nat) (f : MonSt → MonSt) : (s.onMon l f).host = s.host := rfl
@[simp] theorem State.onMon_tests (l : Nat) (f : MonSt → MonSt) : (s.onMon l f).tests = s.tests := rfl
@[simp] theorem State.onMon_keep (l : Nat) (f : MonSt → MonSt) : (s.onMon l f).keep = s.keep := rfl
@[simp] theorem State.onMon_sys (l : Nat) (f : MonSt → MonSt) : (s.onMon l f).sys = s.sys := rfl
@[simp] theorem State.onMon_freeCtr (l : Nat) (f : MonSt → MonSt) : (s.onMon l f).freeCtr = s.freeCtr := rfl

/-! ### onCh -/

@[simp] theorem State.onCh_pending (n : Nat) (f : ChSt → ChSt) : (s.onCh n f).pending = s.pending := rfl
@[simp] theorem State.onCh_now (n : Nat) (f : ChSt → ChSt) : (s.onCh n f).now = s.now := rfl
@[simp] theorem State.onCh_osc (n : Nat) (f : ChSt → ChSt) : (s.onCh n f).osc = s.osc := rfl
@[simp] theorem State.onCh_stepped (n : Nat) (f : ChSt → ChSt) : (s.onCh n f).stepped = s.stepped := rfl
@[simp] theorem State.onCh_regs (n : Nat) (f : ChSt → ChSt) : (s.onCh n f).regs = s.regs := rfl
@[simp] theorem State.onCh_regs0 (n : Nat) (f : ChSt → ChSt) : (s.onCh n f).regs0 = s.regs0 := rfl
@[simp] theorem State.onCh_again (n : Nat) (f : ChSt → ChSt) : (s.onCh n f).again = s.again := rfl
@[simp] theorem State.onCh_snap (n : Nat) (f : ChSt → ChSt) : (s.onCh n f).snap = s.snap := rfl
@[simp] theorem State.onCh_laneA (n : Nat) (f : ChSt → ChSt) : (s.onCh n f).laneA = s.laneA := rfl
@[simp] theorem State.onCh_laneB (n : Nat) (f : ChSt → ChSt) : (s.onCh n f).laneB = s.laneB := rfl
@[simp] theorem State.onCh_laneC (n : Nat) (f : ChSt → ChSt) : (s.onCh n f).laneC = s.laneC := rfl
@[simp] theorem State.onCh_sram (n : Nat) (f : ChSt → ChSt) : (s.onCh n f).sram = s.sram := rfl
@[simp] theorem State.onCh_mram (n : Nat) (f : ChSt → ChSt) : (s.onCh n f).mram = s.mram := rfl
@[simp] theorem State.onCh_gal (n : Nat) (f : ChSt → ChSt) : (s.onCh n f).gal = s.gal := rfl
@[simp] theorem State.onCh_ringWait (n : Nat) (f : ChSt → ChSt) : (s.onCh n f).ringWait = s.ringWait := rfl
@[simp] theorem State.onCh_ringOff (n : Nat) (f : ChSt → ChSt) : (s.onCh n f).ringOff = s.ringOff := rfl
@[simp] theorem State.onCh_ringPre (n : Nat) (f : ChSt → ChSt) : (s.onCh n f).ringPre = s.ringPre := rfl
@[simp] theorem State.onCh_tickAt (n : Nat) (f : ChSt → ChSt) : (s.onCh n f).tickAt = s.tickAt := rfl
@[simp] theorem State.onCh_img (n : Nat) (f : ChSt → ChSt) : (s.onCh n f).img = s.img := rfl
@[simp] theorem State.onCh_straps (n : Nat) (f : ChSt → ChSt) : (s.onCh n f).straps = s.straps := rfl
@[simp] theorem State.onCh_pos (n : Nat) (f : ChSt → ChSt) : (s.onCh n f).pos = s.pos := rfl
@[simp] theorem State.onCh_mot (n : Nat) (f : ChSt → ChSt) : (s.onCh n f).mot = s.mot := rfl
@[simp] theorem State.onCh_door (n : Nat) (f : ChSt → ChSt) : (s.onCh n f).door = s.door := rfl
@[simp] theorem State.onCh_dsp (n : Nat) (f : ChSt → ChSt) : (s.onCh n f).dsp = s.dsp := rfl
@[simp] theorem State.onCh_safe (n : Nat) (f : ChSt → ChSt) : (s.onCh n f).safe = s.safe := rfl
@[simp] theorem State.onCh_llp (n : Nat) (f : ChSt → ChSt) : (s.onCh n f).llp = s.llp := rfl
@[simp] theorem State.onCh_range (n : Nat) (f : ChSt → ChSt) : (s.onCh n f).range = s.range := rfl
@[simp] theorem State.onCh_net (n : Nat) (f : ChSt → ChSt) : (s.onCh n f).net = s.net := rfl
@[simp] theorem State.onCh_link (n : Nat) (f : ChSt → ChSt) : (s.onCh n f).link = s.link := rfl
@[simp] theorem State.onCh_host (n : Nat) (f : ChSt → ChSt) : (s.onCh n f).host = s.host := rfl
@[simp] theorem State.onCh_tests (n : Nat) (f : ChSt → ChSt) : (s.onCh n f).tests = s.tests := rfl
@[simp] theorem State.onCh_keep (n : Nat) (f : ChSt → ChSt) : (s.onCh n f).keep = s.keep := rfl
@[simp] theorem State.onCh_sys (n : Nat) (f : ChSt → ChSt) : (s.onCh n f).sys = s.sys := rfl
@[simp] theorem State.onCh_freeCtr (n : Nat) (f : ChSt → ChSt) : (s.onCh n f).freeCtr = s.freeCtr := rfl

/-! ### onDie -/

@[simp] theorem State.onDie_pending (k : Nat) (f : DieSt → DieSt) : (s.onDie k f).pending = s.pending := rfl
@[simp] theorem State.onDie_now (k : Nat) (f : DieSt → DieSt) : (s.onDie k f).now = s.now := rfl
@[simp] theorem State.onDie_osc (k : Nat) (f : DieSt → DieSt) : (s.onDie k f).osc = s.osc := rfl
@[simp] theorem State.onDie_stepped (k : Nat) (f : DieSt → DieSt) : (s.onDie k f).stepped = s.stepped := rfl
@[simp] theorem State.onDie_regs (k : Nat) (f : DieSt → DieSt) : (s.onDie k f).regs = s.regs := rfl
@[simp] theorem State.onDie_regs0 (k : Nat) (f : DieSt → DieSt) : (s.onDie k f).regs0 = s.regs0 := rfl
@[simp] theorem State.onDie_again (k : Nat) (f : DieSt → DieSt) : (s.onDie k f).again = s.again := rfl
@[simp] theorem State.onDie_snap (k : Nat) (f : DieSt → DieSt) : (s.onDie k f).snap = s.snap := rfl
@[simp] theorem State.onDie_laneA (k : Nat) (f : DieSt → DieSt) : (s.onDie k f).laneA = s.laneA := rfl
@[simp] theorem State.onDie_laneB (k : Nat) (f : DieSt → DieSt) : (s.onDie k f).laneB = s.laneB := rfl
@[simp] theorem State.onDie_laneC (k : Nat) (f : DieSt → DieSt) : (s.onDie k f).laneC = s.laneC := rfl
@[simp] theorem State.onDie_sram (k : Nat) (f : DieSt → DieSt) : (s.onDie k f).sram = s.sram := rfl
@[simp] theorem State.onDie_mram (k : Nat) (f : DieSt → DieSt) : (s.onDie k f).mram = s.mram := rfl
@[simp] theorem State.onDie_gal (k : Nat) (f : DieSt → DieSt) : (s.onDie k f).gal = s.gal := rfl
@[simp] theorem State.onDie_ringWait (k : Nat) (f : DieSt → DieSt) : (s.onDie k f).ringWait = s.ringWait := rfl
@[simp] theorem State.onDie_ringOff (k : Nat) (f : DieSt → DieSt) : (s.onDie k f).ringOff = s.ringOff := rfl
@[simp] theorem State.onDie_ringPre (k : Nat) (f : DieSt → DieSt) : (s.onDie k f).ringPre = s.ringPre := rfl
@[simp] theorem State.onDie_tickAt (k : Nat) (f : DieSt → DieSt) : (s.onDie k f).tickAt = s.tickAt := rfl
@[simp] theorem State.onDie_img (k : Nat) (f : DieSt → DieSt) : (s.onDie k f).img = s.img := rfl
@[simp] theorem State.onDie_straps (k : Nat) (f : DieSt → DieSt) : (s.onDie k f).straps = s.straps := rfl
@[simp] theorem State.onDie_pos (k : Nat) (f : DieSt → DieSt) : (s.onDie k f).pos = s.pos := rfl
@[simp] theorem State.onDie_mot (k : Nat) (f : DieSt → DieSt) : (s.onDie k f).mot = s.mot := rfl
@[simp] theorem State.onDie_door (k : Nat) (f : DieSt → DieSt) : (s.onDie k f).door = s.door := rfl
@[simp] theorem State.onDie_dsp (k : Nat) (f : DieSt → DieSt) : (s.onDie k f).dsp = s.dsp := rfl
@[simp] theorem State.onDie_safe (k : Nat) (f : DieSt → DieSt) : (s.onDie k f).safe = s.safe := rfl
@[simp] theorem State.onDie_llp (k : Nat) (f : DieSt → DieSt) : (s.onDie k f).llp = s.llp := rfl
@[simp] theorem State.onDie_range (k : Nat) (f : DieSt → DieSt) : (s.onDie k f).range = s.range := rfl
@[simp] theorem State.onDie_net (k : Nat) (f : DieSt → DieSt) : (s.onDie k f).net = s.net := rfl
@[simp] theorem State.onDie_link (k : Nat) (f : DieSt → DieSt) : (s.onDie k f).link = s.link := rfl
@[simp] theorem State.onDie_host (k : Nat) (f : DieSt → DieSt) : (s.onDie k f).host = s.host := rfl
@[simp] theorem State.onDie_tests (k : Nat) (f : DieSt → DieSt) : (s.onDie k f).tests = s.tests := rfl
@[simp] theorem State.onDie_keep (k : Nat) (f : DieSt → DieSt) : (s.onDie k f).keep = s.keep := rfl
@[simp] theorem State.onDie_sys (k : Nat) (f : DieSt → DieSt) : (s.onDie k f).sys = s.sys := rfl
@[simp] theorem State.onDie_freeCtr (k : Nat) (f : DieSt → DieSt) : (s.onDie k f).freeCtr = s.freeCtr := rfl

/-! ### onRange -/

@[simp] theorem State.onRange_pending (f : RangeSt → RangeSt) : (s.onRange f).pending = s.pending := rfl
@[simp] theorem State.onRange_now (f : RangeSt → RangeSt) : (s.onRange f).now = s.now := rfl
@[simp] theorem State.onRange_osc (f : RangeSt → RangeSt) : (s.onRange f).osc = s.osc := rfl
@[simp] theorem State.onRange_stepped (f : RangeSt → RangeSt) : (s.onRange f).stepped = s.stepped := rfl
@[simp] theorem State.onRange_regs (f : RangeSt → RangeSt) : (s.onRange f).regs = s.regs := rfl
@[simp] theorem State.onRange_regs0 (f : RangeSt → RangeSt) : (s.onRange f).regs0 = s.regs0 := rfl
@[simp] theorem State.onRange_again (f : RangeSt → RangeSt) : (s.onRange f).again = s.again := rfl
@[simp] theorem State.onRange_snap (f : RangeSt → RangeSt) : (s.onRange f).snap = s.snap := rfl
@[simp] theorem State.onRange_laneA (f : RangeSt → RangeSt) : (s.onRange f).laneA = s.laneA := rfl
@[simp] theorem State.onRange_laneB (f : RangeSt → RangeSt) : (s.onRange f).laneB = s.laneB := rfl
@[simp] theorem State.onRange_laneC (f : RangeSt → RangeSt) : (s.onRange f).laneC = s.laneC := rfl
@[simp] theorem State.onRange_sram (f : RangeSt → RangeSt) : (s.onRange f).sram = s.sram := rfl
@[simp] theorem State.onRange_mram (f : RangeSt → RangeSt) : (s.onRange f).mram = s.mram := rfl
@[simp] theorem State.onRange_gal (f : RangeSt → RangeSt) : (s.onRange f).gal = s.gal := rfl
@[simp] theorem State.onRange_ringWait (f : RangeSt → RangeSt) : (s.onRange f).ringWait = s.ringWait := rfl
@[simp] theorem State.onRange_ringOff (f : RangeSt → RangeSt) : (s.onRange f).ringOff = s.ringOff := rfl
@[simp] theorem State.onRange_ringPre (f : RangeSt → RangeSt) : (s.onRange f).ringPre = s.ringPre := rfl
@[simp] theorem State.onRange_tickAt (f : RangeSt → RangeSt) : (s.onRange f).tickAt = s.tickAt := rfl
@[simp] theorem State.onRange_img (f : RangeSt → RangeSt) : (s.onRange f).img = s.img := rfl
@[simp] theorem State.onRange_straps (f : RangeSt → RangeSt) : (s.onRange f).straps = s.straps := rfl
@[simp] theorem State.onRange_pos (f : RangeSt → RangeSt) : (s.onRange f).pos = s.pos := rfl
@[simp] theorem State.onRange_mot (f : RangeSt → RangeSt) : (s.onRange f).mot = s.mot := rfl
@[simp] theorem State.onRange_door (f : RangeSt → RangeSt) : (s.onRange f).door = s.door := rfl
@[simp] theorem State.onRange_dsp (f : RangeSt → RangeSt) : (s.onRange f).dsp = s.dsp := rfl
@[simp] theorem State.onRange_safe (f : RangeSt → RangeSt) : (s.onRange f).safe = s.safe := rfl
@[simp] theorem State.onRange_llp (f : RangeSt → RangeSt) : (s.onRange f).llp = s.llp := rfl
@[simp] theorem State.onRange_field (f : RangeSt → RangeSt) : (s.onRange f).field = s.field := rfl
@[simp] theorem State.onRange_range (f : RangeSt → RangeSt) : (s.onRange f).range = f s.range := rfl
@[simp] theorem State.onRange_net (f : RangeSt → RangeSt) : (s.onRange f).net = s.net := rfl
@[simp] theorem State.onRange_link (f : RangeSt → RangeSt) : (s.onRange f).link = s.link := rfl
@[simp] theorem State.onRange_host (f : RangeSt → RangeSt) : (s.onRange f).host = s.host := rfl
@[simp] theorem State.onRange_tests (f : RangeSt → RangeSt) : (s.onRange f).tests = s.tests := rfl
@[simp] theorem State.onRange_keep (f : RangeSt → RangeSt) : (s.onRange f).keep = s.keep := rfl
@[simp] theorem State.onRange_sys (f : RangeSt → RangeSt) : (s.onRange f).sys = s.sys := rfl
@[simp] theorem State.onRange_freeCtr (f : RangeSt → RangeSt) : (s.onRange f).freeCtr = s.freeCtr := rfl

/-! ### onNet -/

@[simp] theorem State.onNet_pending (f : NetSt → NetSt) : (s.onNet f).pending = s.pending := rfl
@[simp] theorem State.onNet_now (f : NetSt → NetSt) : (s.onNet f).now = s.now := rfl
@[simp] theorem State.onNet_osc (f : NetSt → NetSt) : (s.onNet f).osc = s.osc := rfl
@[simp] theorem State.onNet_stepped (f : NetSt → NetSt) : (s.onNet f).stepped = s.stepped := rfl
@[simp] theorem State.onNet_regs (f : NetSt → NetSt) : (s.onNet f).regs = s.regs := rfl
@[simp] theorem State.onNet_regs0 (f : NetSt → NetSt) : (s.onNet f).regs0 = s.regs0 := rfl
@[simp] theorem State.onNet_again (f : NetSt → NetSt) : (s.onNet f).again = s.again := rfl
@[simp] theorem State.onNet_snap (f : NetSt → NetSt) : (s.onNet f).snap = s.snap := rfl
@[simp] theorem State.onNet_laneA (f : NetSt → NetSt) : (s.onNet f).laneA = s.laneA := rfl
@[simp] theorem State.onNet_laneB (f : NetSt → NetSt) : (s.onNet f).laneB = s.laneB := rfl
@[simp] theorem State.onNet_laneC (f : NetSt → NetSt) : (s.onNet f).laneC = s.laneC := rfl
@[simp] theorem State.onNet_sram (f : NetSt → NetSt) : (s.onNet f).sram = s.sram := rfl
@[simp] theorem State.onNet_mram (f : NetSt → NetSt) : (s.onNet f).mram = s.mram := rfl
@[simp] theorem State.onNet_gal (f : NetSt → NetSt) : (s.onNet f).gal = s.gal := rfl
@[simp] theorem State.onNet_ringWait (f : NetSt → NetSt) : (s.onNet f).ringWait = s.ringWait := rfl
@[simp] theorem State.onNet_ringOff (f : NetSt → NetSt) : (s.onNet f).ringOff = s.ringOff := rfl
@[simp] theorem State.onNet_ringPre (f : NetSt → NetSt) : (s.onNet f).ringPre = s.ringPre := rfl
@[simp] theorem State.onNet_tickAt (f : NetSt → NetSt) : (s.onNet f).tickAt = s.tickAt := rfl
@[simp] theorem State.onNet_img (f : NetSt → NetSt) : (s.onNet f).img = s.img := rfl
@[simp] theorem State.onNet_straps (f : NetSt → NetSt) : (s.onNet f).straps = s.straps := rfl
@[simp] theorem State.onNet_pos (f : NetSt → NetSt) : (s.onNet f).pos = s.pos := rfl
@[simp] theorem State.onNet_mot (f : NetSt → NetSt) : (s.onNet f).mot = s.mot := rfl
@[simp] theorem State.onNet_door (f : NetSt → NetSt) : (s.onNet f).door = s.door := rfl
@[simp] theorem State.onNet_dsp (f : NetSt → NetSt) : (s.onNet f).dsp = s.dsp := rfl
@[simp] theorem State.onNet_safe (f : NetSt → NetSt) : (s.onNet f).safe = s.safe := rfl
@[simp] theorem State.onNet_llp (f : NetSt → NetSt) : (s.onNet f).llp = s.llp := rfl
@[simp] theorem State.onNet_field (f : NetSt → NetSt) : (s.onNet f).field = s.field := rfl
@[simp] theorem State.onNet_range (f : NetSt → NetSt) : (s.onNet f).range = s.range := rfl
@[simp] theorem State.onNet_net (f : NetSt → NetSt) : (s.onNet f).net = f s.net := rfl
@[simp] theorem State.onNet_link (f : NetSt → NetSt) : (s.onNet f).link = s.link := rfl
@[simp] theorem State.onNet_host (f : NetSt → NetSt) : (s.onNet f).host = s.host := rfl
@[simp] theorem State.onNet_tests (f : NetSt → NetSt) : (s.onNet f).tests = s.tests := rfl
@[simp] theorem State.onNet_keep (f : NetSt → NetSt) : (s.onNet f).keep = s.keep := rfl
@[simp] theorem State.onNet_sys (f : NetSt → NetSt) : (s.onNet f).sys = s.sys := rfl
@[simp] theorem State.onNet_freeCtr (f : NetSt → NetSt) : (s.onNet f).freeCtr = s.freeCtr := rfl

/-! ### onLink -/

@[simp] theorem State.onLink_pending (f : LinkSt → LinkSt) : (s.onLink f).pending = s.pending := rfl
@[simp] theorem State.onLink_now (f : LinkSt → LinkSt) : (s.onLink f).now = s.now := rfl
@[simp] theorem State.onLink_osc (f : LinkSt → LinkSt) : (s.onLink f).osc = s.osc := rfl
@[simp] theorem State.onLink_stepped (f : LinkSt → LinkSt) : (s.onLink f).stepped = s.stepped := rfl
@[simp] theorem State.onLink_regs (f : LinkSt → LinkSt) : (s.onLink f).regs = s.regs := rfl
@[simp] theorem State.onLink_regs0 (f : LinkSt → LinkSt) : (s.onLink f).regs0 = s.regs0 := rfl
@[simp] theorem State.onLink_again (f : LinkSt → LinkSt) : (s.onLink f).again = s.again := rfl
@[simp] theorem State.onLink_snap (f : LinkSt → LinkSt) : (s.onLink f).snap = s.snap := rfl
@[simp] theorem State.onLink_laneA (f : LinkSt → LinkSt) : (s.onLink f).laneA = s.laneA := rfl
@[simp] theorem State.onLink_laneB (f : LinkSt → LinkSt) : (s.onLink f).laneB = s.laneB := rfl
@[simp] theorem State.onLink_laneC (f : LinkSt → LinkSt) : (s.onLink f).laneC = s.laneC := rfl
@[simp] theorem State.onLink_sram (f : LinkSt → LinkSt) : (s.onLink f).sram = s.sram := rfl
@[simp] theorem State.onLink_mram (f : LinkSt → LinkSt) : (s.onLink f).mram = s.mram := rfl
@[simp] theorem State.onLink_gal (f : LinkSt → LinkSt) : (s.onLink f).gal = s.gal := rfl
@[simp] theorem State.onLink_ringWait (f : LinkSt → LinkSt) : (s.onLink f).ringWait = s.ringWait := rfl
@[simp] theorem State.onLink_ringOff (f : LinkSt → LinkSt) : (s.onLink f).ringOff = s.ringOff := rfl
@[simp] theorem State.onLink_ringPre (f : LinkSt → LinkSt) : (s.onLink f).ringPre = s.ringPre := rfl
@[simp] theorem State.onLink_tickAt (f : LinkSt → LinkSt) : (s.onLink f).tickAt = s.tickAt := rfl
@[simp] theorem State.onLink_img (f : LinkSt → LinkSt) : (s.onLink f).img = s.img := rfl
@[simp] theorem State.onLink_straps (f : LinkSt → LinkSt) : (s.onLink f).straps = s.straps := rfl
@[simp] theorem State.onLink_pos (f : LinkSt → LinkSt) : (s.onLink f).pos = s.pos := rfl
@[simp] theorem State.onLink_mot (f : LinkSt → LinkSt) : (s.onLink f).mot = s.mot := rfl
@[simp] theorem State.onLink_door (f : LinkSt → LinkSt) : (s.onLink f).door = s.door := rfl
@[simp] theorem State.onLink_dsp (f : LinkSt → LinkSt) : (s.onLink f).dsp = s.dsp := rfl
@[simp] theorem State.onLink_safe (f : LinkSt → LinkSt) : (s.onLink f).safe = s.safe := rfl
@[simp] theorem State.onLink_llp (f : LinkSt → LinkSt) : (s.onLink f).llp = s.llp := rfl
@[simp] theorem State.onLink_field (f : LinkSt → LinkSt) : (s.onLink f).field = s.field := rfl
@[simp] theorem State.onLink_range (f : LinkSt → LinkSt) : (s.onLink f).range = s.range := rfl
@[simp] theorem State.onLink_net (f : LinkSt → LinkSt) : (s.onLink f).net = s.net := rfl
@[simp] theorem State.onLink_link (f : LinkSt → LinkSt) : (s.onLink f).link = f s.link := rfl
@[simp] theorem State.onLink_host (f : LinkSt → LinkSt) : (s.onLink f).host = s.host := rfl
@[simp] theorem State.onLink_tests (f : LinkSt → LinkSt) : (s.onLink f).tests = s.tests := rfl
@[simp] theorem State.onLink_keep (f : LinkSt → LinkSt) : (s.onLink f).keep = s.keep := rfl
@[simp] theorem State.onLink_sys (f : LinkSt → LinkSt) : (s.onLink f).sys = s.sys := rfl
@[simp] theorem State.onLink_freeCtr (f : LinkSt → LinkSt) : (s.onLink f).freeCtr = s.freeCtr := rfl

/-! ### onHost -/

@[simp] theorem State.onHost_pending (f : HostSt → HostSt) : (s.onHost f).pending = s.pending := rfl
@[simp] theorem State.onHost_now (f : HostSt → HostSt) : (s.onHost f).now = s.now := rfl
@[simp] theorem State.onHost_osc (f : HostSt → HostSt) : (s.onHost f).osc = s.osc := rfl
@[simp] theorem State.onHost_stepped (f : HostSt → HostSt) : (s.onHost f).stepped = s.stepped := rfl
@[simp] theorem State.onHost_regs (f : HostSt → HostSt) : (s.onHost f).regs = s.regs := rfl
@[simp] theorem State.onHost_regs0 (f : HostSt → HostSt) : (s.onHost f).regs0 = s.regs0 := rfl
@[simp] theorem State.onHost_again (f : HostSt → HostSt) : (s.onHost f).again = s.again := rfl
@[simp] theorem State.onHost_snap (f : HostSt → HostSt) : (s.onHost f).snap = s.snap := rfl
@[simp] theorem State.onHost_laneA (f : HostSt → HostSt) : (s.onHost f).laneA = s.laneA := rfl
@[simp] theorem State.onHost_laneB (f : HostSt → HostSt) : (s.onHost f).laneB = s.laneB := rfl
@[simp] theorem State.onHost_laneC (f : HostSt → HostSt) : (s.onHost f).laneC = s.laneC := rfl
@[simp] theorem State.onHost_sram (f : HostSt → HostSt) : (s.onHost f).sram = s.sram := rfl
@[simp] theorem State.onHost_mram (f : HostSt → HostSt) : (s.onHost f).mram = s.mram := rfl
@[simp] theorem State.onHost_gal (f : HostSt → HostSt) : (s.onHost f).gal = s.gal := rfl
@[simp] theorem State.onHost_ringWait (f : HostSt → HostSt) : (s.onHost f).ringWait = s.ringWait := rfl
@[simp] theorem State.onHost_ringOff (f : HostSt → HostSt) : (s.onHost f).ringOff = s.ringOff := rfl
@[simp] theorem State.onHost_ringPre (f : HostSt → HostSt) : (s.onHost f).ringPre = s.ringPre := rfl
@[simp] theorem State.onHost_tickAt (f : HostSt → HostSt) : (s.onHost f).tickAt = s.tickAt := rfl
@[simp] theorem State.onHost_img (f : HostSt → HostSt) : (s.onHost f).img = s.img := rfl
@[simp] theorem State.onHost_straps (f : HostSt → HostSt) : (s.onHost f).straps = s.straps := rfl
@[simp] theorem State.onHost_pos (f : HostSt → HostSt) : (s.onHost f).pos = s.pos := rfl
@[simp] theorem State.onHost_mot (f : HostSt → HostSt) : (s.onHost f).mot = s.mot := rfl
@[simp] theorem State.onHost_door (f : HostSt → HostSt) : (s.onHost f).door = s.door := rfl
@[simp] theorem State.onHost_dsp (f : HostSt → HostSt) : (s.onHost f).dsp = s.dsp := rfl
@[simp] theorem State.onHost_safe (f : HostSt → HostSt) : (s.onHost f).safe = s.safe := rfl
@[simp] theorem State.onHost_llp (f : HostSt → HostSt) : (s.onHost f).llp = s.llp := rfl
@[simp] theorem State.onHost_field (f : HostSt → HostSt) : (s.onHost f).field = s.field := rfl
@[simp] theorem State.onHost_range (f : HostSt → HostSt) : (s.onHost f).range = s.range := rfl
@[simp] theorem State.onHost_net (f : HostSt → HostSt) : (s.onHost f).net = s.net := rfl
@[simp] theorem State.onHost_link (f : HostSt → HostSt) : (s.onHost f).link = s.link := rfl
@[simp] theorem State.onHost_host (f : HostSt → HostSt) : (s.onHost f).host = f s.host := rfl
@[simp] theorem State.onHost_tests (f : HostSt → HostSt) : (s.onHost f).tests = s.tests := rfl
@[simp] theorem State.onHost_keep (f : HostSt → HostSt) : (s.onHost f).keep = s.keep := rfl
@[simp] theorem State.onHost_sys (f : HostSt → HostSt) : (s.onHost f).sys = s.sys := rfl
@[simp] theorem State.onHost_freeCtr (f : HostSt → HostSt) : (s.onHost f).freeCtr = s.freeCtr := rfl

/-! ### onTests -/

@[simp] theorem State.onTests_pending (f : HealthSt → HealthSt) : (s.onTests f).pending = s.pending := rfl
@[simp] theorem State.onTests_now (f : HealthSt → HealthSt) : (s.onTests f).now = s.now := rfl
@[simp] theorem State.onTests_osc (f : HealthSt → HealthSt) : (s.onTests f).osc = s.osc := rfl
@[simp] theorem State.onTests_stepped (f : HealthSt → HealthSt) : (s.onTests f).stepped = s.stepped := rfl
@[simp] theorem State.onTests_regs (f : HealthSt → HealthSt) : (s.onTests f).regs = s.regs := rfl
@[simp] theorem State.onTests_regs0 (f : HealthSt → HealthSt) : (s.onTests f).regs0 = s.regs0 := rfl
@[simp] theorem State.onTests_again (f : HealthSt → HealthSt) : (s.onTests f).again = s.again := rfl
@[simp] theorem State.onTests_snap (f : HealthSt → HealthSt) : (s.onTests f).snap = s.snap := rfl
@[simp] theorem State.onTests_laneA (f : HealthSt → HealthSt) : (s.onTests f).laneA = s.laneA := rfl
@[simp] theorem State.onTests_laneB (f : HealthSt → HealthSt) : (s.onTests f).laneB = s.laneB := rfl
@[simp] theorem State.onTests_laneC (f : HealthSt → HealthSt) : (s.onTests f).laneC = s.laneC := rfl
@[simp] theorem State.onTests_sram (f : HealthSt → HealthSt) : (s.onTests f).sram = s.sram := rfl
@[simp] theorem State.onTests_mram (f : HealthSt → HealthSt) : (s.onTests f).mram = s.mram := rfl
@[simp] theorem State.onTests_gal (f : HealthSt → HealthSt) : (s.onTests f).gal = s.gal := rfl
@[simp] theorem State.onTests_ringWait (f : HealthSt → HealthSt) : (s.onTests f).ringWait = s.ringWait := rfl
@[simp] theorem State.onTests_ringOff (f : HealthSt → HealthSt) : (s.onTests f).ringOff = s.ringOff := rfl
@[simp] theorem State.onTests_ringPre (f : HealthSt → HealthSt) : (s.onTests f).ringPre = s.ringPre := rfl
@[simp] theorem State.onTests_tickAt (f : HealthSt → HealthSt) : (s.onTests f).tickAt = s.tickAt := rfl
@[simp] theorem State.onTests_img (f : HealthSt → HealthSt) : (s.onTests f).img = s.img := rfl
@[simp] theorem State.onTests_straps (f : HealthSt → HealthSt) : (s.onTests f).straps = s.straps := rfl
@[simp] theorem State.onTests_pos (f : HealthSt → HealthSt) : (s.onTests f).pos = s.pos := rfl
@[simp] theorem State.onTests_mot (f : HealthSt → HealthSt) : (s.onTests f).mot = s.mot := rfl
@[simp] theorem State.onTests_door (f : HealthSt → HealthSt) : (s.onTests f).door = s.door := rfl
@[simp] theorem State.onTests_dsp (f : HealthSt → HealthSt) : (s.onTests f).dsp = s.dsp := rfl
@[simp] theorem State.onTests_safe (f : HealthSt → HealthSt) : (s.onTests f).safe = s.safe := rfl
@[simp] theorem State.onTests_llp (f : HealthSt → HealthSt) : (s.onTests f).llp = s.llp := rfl
@[simp] theorem State.onTests_field (f : HealthSt → HealthSt) : (s.onTests f).field = s.field := rfl
@[simp] theorem State.onTests_range (f : HealthSt → HealthSt) : (s.onTests f).range = s.range := rfl
@[simp] theorem State.onTests_net (f : HealthSt → HealthSt) : (s.onTests f).net = s.net := rfl
@[simp] theorem State.onTests_link (f : HealthSt → HealthSt) : (s.onTests f).link = s.link := rfl
@[simp] theorem State.onTests_host (f : HealthSt → HealthSt) : (s.onTests f).host = s.host := rfl
@[simp] theorem State.onTests_tests (f : HealthSt → HealthSt) : (s.onTests f).tests = f s.tests := rfl
@[simp] theorem State.onTests_keep (f : HealthSt → HealthSt) : (s.onTests f).keep = s.keep := rfl
@[simp] theorem State.onTests_sys (f : HealthSt → HealthSt) : (s.onTests f).sys = s.sys := rfl
@[simp] theorem State.onTests_freeCtr (f : HealthSt → HealthSt) : (s.onTests f).freeCtr = s.freeCtr := rfl

/-! ### onKeep -/

@[simp] theorem State.onKeep_pending (f : KeepSt → KeepSt) : (s.onKeep f).pending = s.pending := rfl
@[simp] theorem State.onKeep_now (f : KeepSt → KeepSt) : (s.onKeep f).now = s.now := rfl
@[simp] theorem State.onKeep_osc (f : KeepSt → KeepSt) : (s.onKeep f).osc = s.osc := rfl
@[simp] theorem State.onKeep_stepped (f : KeepSt → KeepSt) : (s.onKeep f).stepped = s.stepped := rfl
@[simp] theorem State.onKeep_regs (f : KeepSt → KeepSt) : (s.onKeep f).regs = s.regs := rfl
@[simp] theorem State.onKeep_regs0 (f : KeepSt → KeepSt) : (s.onKeep f).regs0 = s.regs0 := rfl
@[simp] theorem State.onKeep_again (f : KeepSt → KeepSt) : (s.onKeep f).again = s.again := rfl
@[simp] theorem State.onKeep_snap (f : KeepSt → KeepSt) : (s.onKeep f).snap = s.snap := rfl
@[simp] theorem State.onKeep_laneA (f : KeepSt → KeepSt) : (s.onKeep f).laneA = s.laneA := rfl
@[simp] theorem State.onKeep_laneB (f : KeepSt → KeepSt) : (s.onKeep f).laneB = s.laneB := rfl
@[simp] theorem State.onKeep_laneC (f : KeepSt → KeepSt) : (s.onKeep f).laneC = s.laneC := rfl
@[simp] theorem State.onKeep_sram (f : KeepSt → KeepSt) : (s.onKeep f).sram = s.sram := rfl
@[simp] theorem State.onKeep_mram (f : KeepSt → KeepSt) : (s.onKeep f).mram = s.mram := rfl
@[simp] theorem State.onKeep_gal (f : KeepSt → KeepSt) : (s.onKeep f).gal = s.gal := rfl
@[simp] theorem State.onKeep_ringWait (f : KeepSt → KeepSt) : (s.onKeep f).ringWait = s.ringWait := rfl
@[simp] theorem State.onKeep_ringOff (f : KeepSt → KeepSt) : (s.onKeep f).ringOff = s.ringOff := rfl
@[simp] theorem State.onKeep_ringPre (f : KeepSt → KeepSt) : (s.onKeep f).ringPre = s.ringPre := rfl
@[simp] theorem State.onKeep_tickAt (f : KeepSt → KeepSt) : (s.onKeep f).tickAt = s.tickAt := rfl
@[simp] theorem State.onKeep_img (f : KeepSt → KeepSt) : (s.onKeep f).img = s.img := rfl
@[simp] theorem State.onKeep_straps (f : KeepSt → KeepSt) : (s.onKeep f).straps = s.straps := rfl
@[simp] theorem State.onKeep_pos (f : KeepSt → KeepSt) : (s.onKeep f).pos = s.pos := rfl
@[simp] theorem State.onKeep_mot (f : KeepSt → KeepSt) : (s.onKeep f).mot = s.mot := rfl
@[simp] theorem State.onKeep_door (f : KeepSt → KeepSt) : (s.onKeep f).door = s.door := rfl
@[simp] theorem State.onKeep_dsp (f : KeepSt → KeepSt) : (s.onKeep f).dsp = s.dsp := rfl
@[simp] theorem State.onKeep_safe (f : KeepSt → KeepSt) : (s.onKeep f).safe = s.safe := rfl
@[simp] theorem State.onKeep_llp (f : KeepSt → KeepSt) : (s.onKeep f).llp = s.llp := rfl
@[simp] theorem State.onKeep_field (f : KeepSt → KeepSt) : (s.onKeep f).field = s.field := rfl
@[simp] theorem State.onKeep_range (f : KeepSt → KeepSt) : (s.onKeep f).range = s.range := rfl
@[simp] theorem State.onKeep_net (f : KeepSt → KeepSt) : (s.onKeep f).net = s.net := rfl
@[simp] theorem State.onKeep_link (f : KeepSt → KeepSt) : (s.onKeep f).link = s.link := rfl
@[simp] theorem State.onKeep_host (f : KeepSt → KeepSt) : (s.onKeep f).host = s.host := rfl
@[simp] theorem State.onKeep_tests (f : KeepSt → KeepSt) : (s.onKeep f).tests = s.tests := rfl
@[simp] theorem State.onKeep_keep (f : KeepSt → KeepSt) : (s.onKeep f).keep = f s.keep := rfl
@[simp] theorem State.onKeep_sys (f : KeepSt → KeepSt) : (s.onKeep f).sys = s.sys := rfl
@[simp] theorem State.onKeep_freeCtr (f : KeepSt → KeepSt) : (s.onKeep f).freeCtr = s.freeCtr := rfl

/-! ### onSys -/

@[simp] theorem State.onSys_pending (f : SysSt → SysSt) : (s.onSys f).pending = s.pending := rfl
@[simp] theorem State.onSys_now (f : SysSt → SysSt) : (s.onSys f).now = s.now := rfl
@[simp] theorem State.onSys_osc (f : SysSt → SysSt) : (s.onSys f).osc = s.osc := rfl
@[simp] theorem State.onSys_stepped (f : SysSt → SysSt) : (s.onSys f).stepped = s.stepped := rfl
@[simp] theorem State.onSys_regs (f : SysSt → SysSt) : (s.onSys f).regs = s.regs := rfl
@[simp] theorem State.onSys_regs0 (f : SysSt → SysSt) : (s.onSys f).regs0 = s.regs0 := rfl
@[simp] theorem State.onSys_again (f : SysSt → SysSt) : (s.onSys f).again = s.again := rfl
@[simp] theorem State.onSys_snap (f : SysSt → SysSt) : (s.onSys f).snap = s.snap := rfl
@[simp] theorem State.onSys_laneA (f : SysSt → SysSt) : (s.onSys f).laneA = s.laneA := rfl
@[simp] theorem State.onSys_laneB (f : SysSt → SysSt) : (s.onSys f).laneB = s.laneB := rfl
@[simp] theorem State.onSys_laneC (f : SysSt → SysSt) : (s.onSys f).laneC = s.laneC := rfl
@[simp] theorem State.onSys_sram (f : SysSt → SysSt) : (s.onSys f).sram = s.sram := rfl
@[simp] theorem State.onSys_mram (f : SysSt → SysSt) : (s.onSys f).mram = s.mram := rfl
@[simp] theorem State.onSys_gal (f : SysSt → SysSt) : (s.onSys f).gal = s.gal := rfl
@[simp] theorem State.onSys_ringWait (f : SysSt → SysSt) : (s.onSys f).ringWait = s.ringWait := rfl
@[simp] theorem State.onSys_ringOff (f : SysSt → SysSt) : (s.onSys f).ringOff = s.ringOff := rfl
@[simp] theorem State.onSys_ringPre (f : SysSt → SysSt) : (s.onSys f).ringPre = s.ringPre := rfl
@[simp] theorem State.onSys_tickAt (f : SysSt → SysSt) : (s.onSys f).tickAt = s.tickAt := rfl
@[simp] theorem State.onSys_img (f : SysSt → SysSt) : (s.onSys f).img = s.img := rfl
@[simp] theorem State.onSys_straps (f : SysSt → SysSt) : (s.onSys f).straps = s.straps := rfl
@[simp] theorem State.onSys_pos (f : SysSt → SysSt) : (s.onSys f).pos = s.pos := rfl
@[simp] theorem State.onSys_mot (f : SysSt → SysSt) : (s.onSys f).mot = s.mot := rfl
@[simp] theorem State.onSys_door (f : SysSt → SysSt) : (s.onSys f).door = s.door := rfl
@[simp] theorem State.onSys_dsp (f : SysSt → SysSt) : (s.onSys f).dsp = s.dsp := rfl
@[simp] theorem State.onSys_safe (f : SysSt → SysSt) : (s.onSys f).safe = s.safe := rfl
@[simp] theorem State.onSys_llp (f : SysSt → SysSt) : (s.onSys f).llp = s.llp := rfl
@[simp] theorem State.onSys_field (f : SysSt → SysSt) : (s.onSys f).field = s.field := rfl
@[simp] theorem State.onSys_range (f : SysSt → SysSt) : (s.onSys f).range = s.range := rfl
@[simp] theorem State.onSys_net (f : SysSt → SysSt) : (s.onSys f).net = s.net := rfl
@[simp] theorem State.onSys_link (f : SysSt → SysSt) : (s.onSys f).link = s.link := rfl
@[simp] theorem State.onSys_host (f : SysSt → SysSt) : (s.onSys f).host = s.host := rfl
@[simp] theorem State.onSys_tests (f : SysSt → SysSt) : (s.onSys f).tests = s.tests := rfl
@[simp] theorem State.onSys_keep (f : SysSt → SysSt) : (s.onSys f).keep = s.keep := rfl
@[simp] theorem State.onSys_sys (f : SysSt → SysSt) : (s.onSys f).sys = f s.sys := rfl
@[simp] theorem State.onSys_freeCtr (f : SysSt → SysSt) : (s.onSys f).freeCtr = s.freeCtr := rfl

/-! ### onGal -/

@[simp] theorem State.onGal_pending (f : GalSt → GalSt) : (s.onGal f).pending = s.pending := rfl
@[simp] theorem State.onGal_now (f : GalSt → GalSt) : (s.onGal f).now = s.now := rfl
@[simp] theorem State.onGal_osc (f : GalSt → GalSt) : (s.onGal f).osc = s.osc := rfl
@[simp] theorem State.onGal_stepped (f : GalSt → GalSt) : (s.onGal f).stepped = s.stepped := rfl
@[simp] theorem State.onGal_regs (f : GalSt → GalSt) : (s.onGal f).regs = s.regs := rfl
@[simp] theorem State.onGal_regs0 (f : GalSt → GalSt) : (s.onGal f).regs0 = s.regs0 := rfl
@[simp] theorem State.onGal_again (f : GalSt → GalSt) : (s.onGal f).again = s.again := rfl
@[simp] theorem State.onGal_snap (f : GalSt → GalSt) : (s.onGal f).snap = s.snap := rfl
@[simp] theorem State.onGal_laneA (f : GalSt → GalSt) : (s.onGal f).laneA = s.laneA := rfl
@[simp] theorem State.onGal_laneB (f : GalSt → GalSt) : (s.onGal f).laneB = s.laneB := rfl
@[simp] theorem State.onGal_laneC (f : GalSt → GalSt) : (s.onGal f).laneC = s.laneC := rfl
@[simp] theorem State.onGal_sram (f : GalSt → GalSt) : (s.onGal f).sram = s.sram := rfl
@[simp] theorem State.onGal_mram (f : GalSt → GalSt) : (s.onGal f).mram = s.mram := rfl
@[simp] theorem State.onGal_gal (f : GalSt → GalSt) : (s.onGal f).gal = f s.gal := rfl
@[simp] theorem State.onGal_ringWait (f : GalSt → GalSt) : (s.onGal f).ringWait = s.ringWait := rfl
@[simp] theorem State.onGal_ringOff (f : GalSt → GalSt) : (s.onGal f).ringOff = s.ringOff := rfl
@[simp] theorem State.onGal_ringPre (f : GalSt → GalSt) : (s.onGal f).ringPre = s.ringPre := rfl
@[simp] theorem State.onGal_tickAt (f : GalSt → GalSt) : (s.onGal f).tickAt = s.tickAt := rfl
@[simp] theorem State.onGal_img (f : GalSt → GalSt) : (s.onGal f).img = s.img := rfl
@[simp] theorem State.onGal_straps (f : GalSt → GalSt) : (s.onGal f).straps = s.straps := rfl
@[simp] theorem State.onGal_pos (f : GalSt → GalSt) : (s.onGal f).pos = s.pos := rfl
@[simp] theorem State.onGal_mot (f : GalSt → GalSt) : (s.onGal f).mot = s.mot := rfl
@[simp] theorem State.onGal_door (f : GalSt → GalSt) : (s.onGal f).door = s.door := rfl
@[simp] theorem State.onGal_dsp (f : GalSt → GalSt) : (s.onGal f).dsp = s.dsp := rfl
@[simp] theorem State.onGal_safe (f : GalSt → GalSt) : (s.onGal f).safe = s.safe := rfl
@[simp] theorem State.onGal_llp (f : GalSt → GalSt) : (s.onGal f).llp = s.llp := rfl
@[simp] theorem State.onGal_field (f : GalSt → GalSt) : (s.onGal f).field = s.field := rfl
@[simp] theorem State.onGal_range (f : GalSt → GalSt) : (s.onGal f).range = s.range := rfl
@[simp] theorem State.onGal_net (f : GalSt → GalSt) : (s.onGal f).net = s.net := rfl
@[simp] theorem State.onGal_link (f : GalSt → GalSt) : (s.onGal f).link = s.link := rfl
@[simp] theorem State.onGal_host (f : GalSt → GalSt) : (s.onGal f).host = s.host := rfl
@[simp] theorem State.onGal_tests (f : GalSt → GalSt) : (s.onGal f).tests = s.tests := rfl
@[simp] theorem State.onGal_keep (f : GalSt → GalSt) : (s.onGal f).keep = s.keep := rfl
@[simp] theorem State.onGal_sys (f : GalSt → GalSt) : (s.onGal f).sys = s.sys := rfl
@[simp] theorem State.onGal_freeCtr (f : GalSt → GalSt) : (s.onGal f).freeCtr = s.freeCtr := rfl

/-! ### setLane -/

@[simp] theorem State.setLane_pending (l : Nat) (x : LaneSt) : (s.setLane l x).pending = s.pending := by
  unfold State.setLane; split
  · rfl
  · split <;> rfl
@[simp] theorem State.setLane_now (l : Nat) (x : LaneSt) : (s.setLane l x).now = s.now := by
  unfold State.setLane; split
  · rfl
  · split <;> rfl
@[simp] theorem State.setLane_osc (l : Nat) (x : LaneSt) : (s.setLane l x).osc = s.osc := by
  unfold State.setLane; split
  · rfl
  · split <;> rfl
@[simp] theorem State.setLane_stepped (l : Nat) (x : LaneSt) : (s.setLane l x).stepped = s.stepped := by
  unfold State.setLane; split
  · rfl
  · split <;> rfl
@[simp] theorem State.setLane_regs (l : Nat) (x : LaneSt) : (s.setLane l x).regs = s.regs := by
  unfold State.setLane; split
  · rfl
  · split <;> rfl
@[simp] theorem State.setLane_regs0 (l : Nat) (x : LaneSt) : (s.setLane l x).regs0 = s.regs0 := by
  unfold State.setLane; split
  · rfl
  · split <;> rfl
@[simp] theorem State.setLane_again (l : Nat) (x : LaneSt) : (s.setLane l x).again = s.again := by
  unfold State.setLane; split
  · rfl
  · split <;> rfl
@[simp] theorem State.setLane_snap (l : Nat) (x : LaneSt) : (s.setLane l x).snap = s.snap := by
  unfold State.setLane; split
  · rfl
  · split <;> rfl
@[simp] theorem State.setLane_sram (l : Nat) (x : LaneSt) : (s.setLane l x).sram = s.sram := by
  unfold State.setLane; split
  · rfl
  · split <;> rfl
@[simp] theorem State.setLane_mram (l : Nat) (x : LaneSt) : (s.setLane l x).mram = s.mram := by
  unfold State.setLane; split
  · rfl
  · split <;> rfl
@[simp] theorem State.setLane_gal (l : Nat) (x : LaneSt) : (s.setLane l x).gal = s.gal := by
  unfold State.setLane; split
  · rfl
  · split <;> rfl
@[simp] theorem State.setLane_ringWait (l : Nat) (x : LaneSt) : (s.setLane l x).ringWait = s.ringWait := by
  unfold State.setLane; split
  · rfl
  · split <;> rfl
@[simp] theorem State.setLane_ringOff (l : Nat) (x : LaneSt) : (s.setLane l x).ringOff = s.ringOff := by
  unfold State.setLane; split
  · rfl
  · split <;> rfl
@[simp] theorem State.setLane_ringPre (l : Nat) (x : LaneSt) : (s.setLane l x).ringPre = s.ringPre := by
  unfold State.setLane; split
  · rfl
  · split <;> rfl
@[simp] theorem State.setLane_tickAt (l : Nat) (x : LaneSt) : (s.setLane l x).tickAt = s.tickAt := by
  unfold State.setLane; split
  · rfl
  · split <;> rfl
@[simp] theorem State.setLane_img (l : Nat) (x : LaneSt) : (s.setLane l x).img = s.img := by
  unfold State.setLane; split
  · rfl
  · split <;> rfl
@[simp] theorem State.setLane_straps (l : Nat) (x : LaneSt) : (s.setLane l x).straps = s.straps := by
  unfold State.setLane; split
  · rfl
  · split <;> rfl
@[simp] theorem State.setLane_pos (l : Nat) (x : LaneSt) : (s.setLane l x).pos = s.pos := by
  unfold State.setLane; split
  · rfl
  · split <;> rfl
@[simp] theorem State.setLane_mot (l : Nat) (x : LaneSt) : (s.setLane l x).mot = s.mot := by
  unfold State.setLane; split
  · rfl
  · split <;> rfl
@[simp] theorem State.setLane_door (l : Nat) (x : LaneSt) : (s.setLane l x).door = s.door := by
  unfold State.setLane; split
  · rfl
  · split <;> rfl
@[simp] theorem State.setLane_dsp (l : Nat) (x : LaneSt) : (s.setLane l x).dsp = s.dsp := by
  unfold State.setLane; split
  · rfl
  · split <;> rfl
@[simp] theorem State.setLane_safe (l : Nat) (x : LaneSt) : (s.setLane l x).safe = s.safe := by
  unfold State.setLane; split
  · rfl
  · split <;> rfl
@[simp] theorem State.setLane_llp (l : Nat) (x : LaneSt) : (s.setLane l x).llp = s.llp := by
  unfold State.setLane; split
  · rfl
  · split <;> rfl
@[simp] theorem State.setLane_field (l : Nat) (x : LaneSt) : (s.setLane l x).field = s.field := by
  unfold State.setLane; split
  · rfl
  · split <;> rfl
@[simp] theorem State.setLane_range (l : Nat) (x : LaneSt) : (s.setLane l x).range = s.range := by
  unfold State.setLane; split
  · rfl
  · split <;> rfl
@[simp] theorem State.setLane_net (l : Nat) (x : LaneSt) : (s.setLane l x).net = s.net := by
  unfold State.setLane; split
  · rfl
  · split <;> rfl
@[simp] theorem State.setLane_link (l : Nat) (x : LaneSt) : (s.setLane l x).link = s.link := by
  unfold State.setLane; split
  · rfl
  · split <;> rfl
@[simp] theorem State.setLane_host (l : Nat) (x : LaneSt) : (s.setLane l x).host = s.host := by
  unfold State.setLane; split
  · rfl
  · split <;> rfl
@[simp] theorem State.setLane_tests (l : Nat) (x : LaneSt) : (s.setLane l x).tests = s.tests := by
  unfold State.setLane; split
  · rfl
  · split <;> rfl
@[simp] theorem State.setLane_keep (l : Nat) (x : LaneSt) : (s.setLane l x).keep = s.keep := by
  unfold State.setLane; split
  · rfl
  · split <;> rfl
@[simp] theorem State.setLane_sys (l : Nat) (x : LaneSt) : (s.setLane l x).sys = s.sys := by
  unfold State.setLane; split
  · rfl
  · split <;> rfl
@[simp] theorem State.setLane_freeCtr (l : Nat) (x : LaneSt) : (s.setLane l x).freeCtr = s.freeCtr := by
  unfold State.setLane; split
  · rfl
  · split <;> rfl

end Sys2Proof.Machine
end

