-- ==== Sys2Proof/Laws/Lane.lean ====
section
/-! SUPPORT. Lanes: their registers, accumulators and flags, and what it is to run an instruction on one. -/

namespace Sys2Proof.Machine

/-! ### Lanes of the state -/

@[simp] theorem State.lane_setLane (s : State) (l : Nat) (x : LaneSt) : (s.setLane l x).lane l = x := by
  unfold State.lane State.setLane
  split
  · rfl
  · split <;> rfl

theorem State.lane_setLane_ne (s : State) (l k : Lane) (x : LaneSt) (h : k ≠ l) : (s.setLane l x).lane k = s.lane k := by
  match l, k with
  | 0, 1 => rfl
  | 0, 2 => rfl
  | 1, 0 => rfl
  | 1, 2 => rfl
  | 2, 0 => rfl
  | 2, 1 => rfl
  | 0, 0 => exact absurd rfl h
  | 1, 1 => exact absurd rfl h
  | 2, 2 => exact absurd rfl h

@[simp] theorem State.setLane_lane (s : State) (l : Nat) : s.setLane l (s.lane l) = s := by
  unfold State.lane State.setLane
  split
  · rfl
  · split <;> rfl

@[simp] theorem State.setLane_setLane (s : State) (l : Nat) (x y : LaneSt) : (s.setLane l x).setLane l y = s.setLane l y := by
  unfold State.setLane
  split
  · rfl
  · split <;> rfl

@[simp] theorem State.reg_setLane (s : State) (l : Nat) (x : LaneSt) (k : Nat) : (s.setLane l x).reg k = s.reg k := by
  simp [State.reg, State.rst]

/-- An executing lane runs its instruction. -/
theorem State.runLane_eq (s : State) (l : Lane) (f : LaneSt → State → State) (h : s.runs l) : s.runLane l f = f (s.lane l) s := by
  obtain ⟨h1, h2, h3⟩ := h
  simp [State.runLane, h1, h2, h3]

theorem State.runPure_eq (s : State) (l : Lane) (f : LaneSt → LaneSt) (h : s.runs l) :
    s.runPure l f = s.setLane l (f (s.lane l)) := s.runLane_eq l _ h

/-- A lane that is not in its tide, or that waits, executes nothing. -/
theorem State.runLane_idle (s : State) (l : Nat) (f : LaneSt → State → State)
    (h : (s.lane l).run = false ∨ (s.lane l).wait ≠ none) : s.runLane l f = s := by
  unfold State.runLane
  have : ((s.lane l).run && (s.lane l).wait.isNone) = false := by
    rcases h with h | h
    · simp [h]
    · cases hw : (s.lane l).wait with
      | none => exact absurd hw h
      | some w => simp
  simp [this]

/-! ### General registers and accumulators -/

theorem LaneSt.rg_wg (x : LaneSt) (gd r : Nat) (v : Word) : (x.wg gd v).rg r = if r = gd ∧ r ≠ 0 then v else x.rg r := by
  unfold LaneSt.wg LaneSt.rg
  by_cases hg : gd = 0
  · subst hg
    by_cases hr : r = 0 <;> simp [hr]
  · by_cases hr : r = 0
    · have : ¬(r = gd ∧ r ≠ 0) := fun h => h.2 hr
      simp [hr]
    · by_cases h : r = gd
      · subst h; simp [hr]
      · simp [hg, hr, h, mget_mput_ne]

theorem LaneSt.ra_wa (x : LaneSt) (ad r : Nat) (v : BitVec 64) : (x.wa ad v).ra r = if r = ad then v else x.ra r :=
  mget_mput _ _ _ _ _

theorem LaneSt.wg_eq (x : LaneSt) (gd : Nat) (v : Word) : x.wg gd v = { x with g := (x.wg gd v).g } := by
  unfold LaneSt.wg; split <;> rfl

theorem LaneSt.wa_eq (x : LaneSt) (ad : Nat) (v : BitVec 64) : x.wa ad v = { x with acc := (x.wa ad v).acc } := rfl

/-! ### Bits of sw -/

theorem getLsbD_swBit (sw : Word) (n i : Nat) (b : Bool) (hn : n < 32) (hi : i < 32) :
    (swBit sw n b).getLsbD i = if i = n then b else sw.getLsbD i := by
  have key : (BitVec.ofNat 32 (2 ^ n)).getLsbD i = decide (n = i) := by
    rw [BitVec.getLsbD_ofNat, Nat.testBit_two_pow]; simp [hi]
  unfold swBit
  split
  · rename_i hb
    rw [BitVec.getLsbD_or, key]
    by_cases h : i = n
    · subst h; simp [hb]
    · simp [h, Ne.symm h]
  · rename_i hb
    rw [BitVec.getLsbD_and, BitVec.getLsbD_not, key]
    by_cases h : i = n
    · subst h; simpa using hb
    · simp [h, Ne.symm h, hi]

theorem getLsbD_swZN (sw v : Word) (i : Nat) (hi : i < 32) :
    (swZN sw v).getLsbD i = if i = 1 then v.msb else if i = 0 then v == 0 else sw.getLsbD i := by
  unfold swZN swN swZ
  rw [getLsbD_swBit _ 1 i _ (by omega) hi, getLsbD_swBit _ 0 i _ (by omega) hi]

theorem getLsbD_swSat (sw : Word) (i : Nat) (b : Bool) (hi : i < 32) :
    (swSat sw b).getLsbD i = if i = 4 then sw.getLsbD 4 || b else sw.getLsbD i := by
  unfold swSat
  cases b
  · by_cases h : i = 4 <;> simp [h]
  · rw [if_pos rfl, getLsbD_swBit _ 4 i _ (by omega) hi]; simp

theorem getLsbD_swCl (sw : Word) (i : Nat) (b : Bool) (hi : i < 32) :
    (swCl sw b).getLsbD i = if i = 5 then sw.getLsbD 5 || b else sw.getLsbD i := by
  unfold swCl
  cases b
  · by_cases h : i = 5 <;> simp [h]
  · rw [if_pos rfl, getLsbD_swBit _ 5 i _ (by omega) hi]; simp

end Sys2Proof.Machine
end

