-- ==== Sys2Proof/Laws/Memory.lean ====
section
/-! SUPPORT. The canonical form of a memory: every operation that makes a memory keeps it, and the memories at reset have it. -/

namespace Sys2Proof.Machine

theorem Memory.wf_empty : Memory.wf [] := rfl

theorem Memory.wf_wrByte (m : List Host.Cell) (a : Nat) (b : Byte) (h : Memory.wf m) : Memory.wf (wrByte m a b) :=
  mwf_mput zeroByte m a b h

theorem Memory.wf_wrBytes (m : List Host.Cell) (a : Nat) (bs : List Byte) (h : Memory.wf m) : Memory.wf (wrBytes m a bs) :=
  mwf_wrBytes m a bs h

theorem Memory.wf_wrLE (m : List Host.Cell) (a n v : Nat) (h : Memory.wf m) : Memory.wf (wrLE m a n v) := mwf_wrLE m a n v h

theorem Memory.wf_merase (m : List Host.Cell) (a b : Nat) (h : Memory.wf m) : Memory.wf (merase m a b) := mwf_merase zeroByte m a b h

theorem Memory.wf_mrange (m : List Host.Cell) (a b : Nat) (h : Memory.wf m) : Memory.wf (mrange m a b) := mwf_filter zeroByte m _ h

theorem Memory.wf_cellsFrom (a : Nat) (bs : List Byte) : Memory.wf (cellsFrom a bs) := mwf_cellsFrom' bs a

theorem Memory.wf_putCells (m cs : List Host.Cell) (a b : Nat) (hab : a ≤ b) (h : Memory.wf m) (hc : Memory.wf cs)
    (hk : ∀ p ∈ cs, a ≤ p.1 ∧ p.1 < b) : Memory.wf (putCells m a b cs) :=
  mwf_region m cs a b hab h hc hk

theorem Memory.wf_imgRam (s : State) (bank off len : Nat) : Memory.wf (s.imgRam bank off len) :=
  mwf_wrBytes [] 0 _ rfl

theorem State.setReg_wf (s : State) (k : Nat) (v : Word) (h : mwf s.rst s.regs = true) : mwf s.rst (s.setReg k v).regs = true :=
  mwf_mput s.rst s.regs k v h

theorem LaneSt.wrDram_canon (x : LaneSt) (o : Nat) (bs : List Byte) (h : x.Canon) : (x.wrDram o bs).Canon :=
  ⟨h.iram, Memory.wf_wrBytes x.dram o bs h.dram⟩

theorem State.putEntry_sram_wf (s : State) (n c : Nat) (e : List Byte) (h : Memory.wf s.sram) : Memory.wf (s.putEntry n c e).sram := by
  unfold State.putEntry
  split
  · exact h
  · exact Memory.wf_wrBytes s.sram _ _ h

theorem LaneSt.reset_canon : LaneSt.reset.Canon := ⟨rfl, rfl⟩

theorem State.reset_sram_wf : Memory.wf State.reset.sram := rfl

theorem State.reset_mram_wf : Memory.wf State.reset.mram := rfl

theorem State.reset_regs_wf : mwf State.reset.rst State.reset.regs = true := rfl

end Sys2Proof.Machine
end

