-- ==== Sys2Proof/Laws/Regs.lean ====
section
/-! SUPPORT. Registers and fields: what a write of a register, of a field or of a flag leaves to be read. -/

namespace Sys2Proof.Machine

/-! ### Bit fields of numbers -/

theorem bitsOf_lt (x lo w : Nat) : bitsOf x lo w < 2 ^ w := Nat.mod_lt _ (Nat.two_pow_pos w)

theorem bitsOf_le (x lo w : Nat) : bitsOf x lo w * 2 ^ lo ≤ x := by
  unfold bitsOf
  calc x / 2 ^ lo % 2 ^ w * 2 ^ lo ≤ x / 2 ^ lo * 2 ^ lo := Nat.mul_le_mul_right _ (Nat.mod_le _ _)
    _ ≤ x := Nat.div_mul_le_self x _

/-- A number cut at a field: what lies above it, the field and what lies below it. -/
theorem bits_split (x lo w : Nat) : x = x / 2 ^ (lo + w) * 2 ^ (lo + w) + bitsOf x lo w * 2 ^ lo + x % 2 ^ lo := by
  unfold bitsOf
  have h1 := Nat.div_add_mod x (2 ^ lo)
  have h2 := Nat.div_add_mod (x / 2 ^ lo) (2 ^ w)
  rw [Nat.div_div_eq_div_mul, ← Nat.pow_add] at h2
  calc x = 2 ^ lo * (x / 2 ^ lo) + x % 2 ^ lo := h1.symm
    _ = 2 ^ lo * (2 ^ w * (x / 2 ^ (lo + w)) + x / 2 ^ lo % 2 ^ w) + x % 2 ^ lo := by rw [h2]
    _ = _ := by rw [Nat.pow_add]; grind

theorem setBits_split (x lo w v : Nat) :
    setBits x lo w v = x / 2 ^ (lo + w) * 2 ^ (lo + w) + v % 2 ^ w * 2 ^ lo + x % 2 ^ lo := by
  have h := bits_split x lo w
  have hle := bitsOf_le x lo w
  unfold setBits
  omega

theorem setBits_below (x lo w v : Nat) : setBits x lo w v % 2 ^ lo = x % 2 ^ lo := by
  rw [setBits_split, Nat.pow_add]
  have : x / (2 ^ lo * 2 ^ w) * (2 ^ lo * 2 ^ w) + v % 2 ^ w * 2 ^ lo + x % 2 ^ lo
      = x % 2 ^ lo + 2 ^ lo * (x / (2 ^ lo * 2 ^ w) * 2 ^ w + v % 2 ^ w) := by grind
  rw [this, Nat.add_mul_mod_self_left, Nat.mod_mod]

theorem setBits_div (x lo w v : Nat) : setBits x lo w v / 2 ^ lo = x / 2 ^ (lo + w) * 2 ^ w + v % 2 ^ w := by
  rw [setBits_split, Nat.pow_add]
  have : x / (2 ^ lo * 2 ^ w) * (2 ^ lo * 2 ^ w) + v % 2 ^ w * 2 ^ lo + x % 2 ^ lo
      = x % 2 ^ lo + 2 ^ lo * (x / (2 ^ lo * 2 ^ w) * 2 ^ w + v % 2 ^ w) := by grind
  rw [this, Nat.add_mul_div_left _ _ (Nat.two_pow_pos lo), Nat.div_eq_of_lt (Nat.mod_lt _ (Nat.two_pow_pos lo))]
  omega

theorem setBits_above (x lo w v : Nat) : setBits x lo w v / 2 ^ (lo + w) = x / 2 ^ (lo + w) := by
  have h : setBits x lo w v / 2 ^ (lo + w) = setBits x lo w v / 2 ^ lo / 2 ^ w := by rw [Nat.div_div_eq_div_mul, Nat.pow_add]
  rw [h, setBits_div, Nat.add_comm, Nat.add_mul_div_right _ _ (Nat.two_pow_pos w),
    Nat.div_eq_of_lt (Nat.mod_lt _ (Nat.two_pow_pos w))]
  omega

@[simp] theorem bitsOf_setBits (x lo w v : Nat) : bitsOf (setBits x lo w v) lo w = v % 2 ^ w := by
  unfold bitsOf
  rw [setBits_div, Nat.add_comm, Nat.add_mul_mod_self_right, Nat.mod_mod]

/-- A field below the one that is written keeps its value. -/
theorem bitsOf_setBits_below (x lo w v lo' w' : Nat) (h : lo' + w' ≤ lo) : bitsOf (setBits x lo w v) lo' w' = bitsOf x lo' w' := by
  have key : ∀ y, bitsOf y lo' w' = bitsOf (y % 2 ^ lo) lo' w' := by
    intro y
    unfold bitsOf
    obtain ⟨c, rfl⟩ := Nat.exists_eq_add_of_le h
    rw [Nat.pow_add, Nat.pow_add, Nat.mul_assoc, Nat.mod_mul_right_div_self, Nat.mod_mul_right_mod]
  rw [key, setBits_below, ← key]

/-- A field above the one that is written keeps its value. -/
theorem bitsOf_setBits_above (x lo w v lo' w' : Nat) (h : lo + w ≤ lo') : bitsOf (setBits x lo w v) lo' w' = bitsOf x lo' w' := by
  unfold bitsOf
  obtain ⟨c, rfl⟩ := Nat.exists_eq_add_of_le h
  have e : ∀ y, y / 2 ^ (lo + w + c) = y / 2 ^ (lo + w) / 2 ^ c := fun y => by rw [Nat.div_div_eq_div_mul, ← Nat.pow_add]
  rw [e, e, setBits_above]

theorem setBits_lt (x lo w v n : Nat) (hx : x < 2 ^ n) (h : lo + w ≤ n) : setBits x lo w v < 2 ^ n := by
  obtain ⟨c, rfl⟩ := Nat.exists_eq_add_of_le h
  rw [setBits_split]
  have h1 : x / 2 ^ (lo + w) < 2 ^ c := by
    rw [Nat.div_lt_iff_lt_mul (Nat.two_pow_pos _), ← Nat.pow_add, Nat.add_comm c]; exact hx
  have h2 : v % 2 ^ w < 2 ^ w := Nat.mod_lt _ (Nat.two_pow_pos w)
  have h3 : x % 2 ^ lo < 2 ^ lo := Nat.mod_lt _ (Nat.two_pow_pos lo)
  have h4 : v % 2 ^ w * 2 ^ lo + x % 2 ^ lo < 2 ^ (lo + w) := by
    rw [Nat.pow_add]
    calc v % 2 ^ w * 2 ^ lo + x % 2 ^ lo < v % 2 ^ w * 2 ^ lo + 2 ^ lo := by omega
      _ = (v % 2 ^ w + 1) * 2 ^ lo := by grind
      _ ≤ 2 ^ w * 2 ^ lo := Nat.mul_le_mul_right _ h2
      _ = 2 ^ lo * 2 ^ w := Nat.mul_comm _ _
  calc x / 2 ^ (lo + w) * 2 ^ (lo + w) + v % 2 ^ w * 2 ^ lo + x % 2 ^ lo
      < x / 2 ^ (lo + w) * 2 ^ (lo + w) + 2 ^ (lo + w) := by omega
    _ = (x / 2 ^ (lo + w) + 1) * 2 ^ (lo + w) := by grind
    _ ≤ 2 ^ c * 2 ^ (lo + w) := Nat.mul_le_mul_right _ h1
    _ = 2 ^ (lo + w + c) := by rw [Nat.mul_comm, ← Nat.pow_add]

/-! ### Registers -/

theorem State.reg_setReg (s : State) (k j : Nat) (v : Word) : (s.setReg k v).reg j = if j = k then v else s.reg j :=
  mget_mput _ _ _ _ _

@[simp] theorem State.reg_setReg_self (s : State) (k : Nat) (v : Word) : (s.setReg k v).reg k = v := by
  rw [State.reg_setReg, if_pos rfl]

theorem State.reg_setReg_ne (s : State) {k j : Nat} (v : Word) (h : j ≠ k) : (s.setReg k v).reg j = s.reg j := by
  rw [State.reg_setReg, if_neg h]

theorem State.reg_setN_ne (s : State) {k j : Nat} (v : Nat) (h : j ≠ k) : (s.setN k v).reg j = s.reg j := s.reg_setReg_ne _ h
theorem State.reg_setI_ne (s : State) {k j : Nat} (v : Int) (h : j ≠ k) : (s.setI k v).reg j = s.reg j := s.reg_setReg_ne _ h

theorem State.regN_lt (s : State) (k : Nat) : s.regN k < 2 ^ 32 := (s.reg k).isLt

@[simp] theorem State.regN_setN_self (s : State) (k v : Nat) : (s.setN k v).regN k = v % 2 ^ 32 := by
  simp [State.regN, State.setN]

theorem State.regN_setN_ne (s : State) {k j : Nat} (v : Nat) (h : j ≠ k) : (s.setN k v).regN j = s.regN j := by
  unfold State.regN; rw [s.reg_setN_ne v h]

/-! ### Fields -/

theorem State.reg_setFld_ne (s : State) (f : Fld) {j : Nat} (v : Nat) (h : j ≠ f.addr) : (s.setFld f v).reg j = s.reg j :=
  s.reg_setN_ne _ h

theorem State.regN_setFld (s : State) (f : Fld) (v : Nat) (h : f.lo + f.width ≤ 32) :
    (s.setFld f v).regN f.addr = setBits (s.regN f.addr) f.lo f.width v := by
  unfold State.setFld
  rw [State.regN_setN_self, Nat.mod_eq_of_lt (setBits_lt _ _ _ _ 32 (s.regN_lt _) h)]

/-- A field reads what was last written to it. -/
theorem State.fld_setFld_self (s : State) (f : Fld) (v : Nat) (h : f.lo + f.width ≤ 32) :
    (s.setFld f v).fld f = v % 2 ^ f.width := by
  unfold State.fld
  rw [s.regN_setFld f v h, bitsOf_setBits]

/-- A field of another register keeps its value. -/
theorem State.fld_setFld_reg (s : State) (f g : Fld) (v : Nat) (h : g.addr ≠ f.addr) : (s.setFld f v).fld g = s.fld g := by
  unfold State.fld State.regN
  rw [s.reg_setFld_ne f v h]

/-- A field of the same register that does not overlap keeps its value. -/
theorem State.fld_setFld_bits (s : State) (f g : Fld) (v : Nat) (ha : g.addr = f.addr) (h32 : f.lo + f.width ≤ 32)
    (h : g.lo + g.width ≤ f.lo ∨ f.lo + f.width ≤ g.lo) : (s.setFld f v).fld g = s.fld g := by
  unfold State.fld
  rw [ha, s.regN_setFld f v h32]
  rcases h with h | h
  · exact bitsOf_setBits_below _ _ _ _ _ _ h
  · exact bitsOf_setBits_above _ _ _ _ _ _ h

theorem State.fld_setReg_ne (s : State) (f : Fld) {k : Nat} (v : Word) (h : f.addr ≠ k) : (s.setReg k v).fld f = s.fld f := by
  unfold State.fld State.regN
  rw [s.reg_setReg_ne v h]

theorem State.flag_setFlag_self (s : State) (f : Fld) (b : Bool) (hw : f.width = 1) (h : f.lo + f.width ≤ 32) :
    (s.setFlag f b).flag f = b := by
  unfold State.flag State.setFlag
  rw [s.fld_setFld_self f _ h, hw]
  cases b <;> rfl

theorem State.flag_setFlag_reg (s : State) (f g : Fld) (b : Bool) (h : g.addr ≠ f.addr) : (s.setFlag f b).flag g = s.flag g := by
  unfold State.flag State.setFlag
  rw [s.fld_setFld_reg f g _ h]

/-- A counter adds and stops at its greatest value. -/
theorem State.fld_bump_self (s : State) (f : Fld) (n : Nat) (h : f.lo + f.width ≤ 32) :
    (s.bump f n).fld f = min (s.fld f + n) (2 ^ f.width - 1) := by
  unfold State.bump
  rw [s.fld_setFld_self f _ h]
  have hp := Nat.two_pow_pos f.width
  unfold satNat
  split
  · rw [Nat.mod_eq_of_lt (by omega)]; omega
  · rw [Nat.mod_eq_of_lt (by omega)]; omega

/-! ### What a write of a register leaves alone -/

section
variable (s : State) (k v : Nat) (w : Word) (f : Fld) (b : Bool)

theorem State.setReg_eq : s.setReg k w = { s with regs := (s.setReg k w).regs } := rfl
theorem State.setN_eq : s.setN k v = { s with regs := (s.setN k v).regs } := rfl
theorem State.setFld_eq : s.setFld f v = { s with regs := (s.setFld f v).regs } := rfl
theorem State.setFlag_eq : s.setFlag f b = { s with regs := (s.setFlag f b).regs } := rfl

end

end Sys2Proof.Machine
end

