-- ==== Sys2Proof/WellFormed.lean ====
section
/-! DEFINITION. Which commands the outside can send: the checks on operands that their types do not make. -/

namespace Sys2Proof

/-- Whether a bit field lies within a word (R70): lsb + len is at most 32. -/
def fieldFits (lsb lenM1 : BitVec 5) : Bool := decide (lsb.toNat + lenM1.toNat + 1 ≤ 32)

/-- The well-formed commands. -/
def WellFormed : Instr → Bool
  | .extu _ _ _ lsb len => fieldFits lsb len
  | .exts _ _ _ lsb len => fieldFits lsb len
  | .ins _ _ _ lsb len => fieldFits lsb len
  | _ => true

end Sys2Proof
end

