-- ==== Sys2Proof/Tests/Slice0.lean ====
section
/-! SUPPORT. Tests: the checks of WellFormed, single steps against values worked out from the spec, and for every statement with
hypotheses a theorem that shows states and operands that meet them. -/

namespace Sys2Proof.Tests

set_option Elab.async false

open Sys2Proof Sys2Proof.Machine

/-! ### Well-formedness (R70) -/

theorem test_extu_too_wide : WellFormed (.extu 0 1 2 31 31) = false := by decide
theorem test_exts_too_wide : WellFormed (.exts 1 1 2 1 31) = false := by decide
theorem test_ins_too_wide : WellFormed (.ins 2 1 2 16 16) = false := by decide
theorem test_extu_whole_word : WellFormed (.extu 0 1 2 0 31) = true := by decide

/-! ### Helpers -/

/-- The reset state with fields of registers written. -/
def wst (l : List (Fld × Nat)) : State := l.foldl (fun s p => s.setFld p.1 p.2) State.reset
/-- A state with whole registers written. -/
def wrg (s : State) (l : List (Nat × Nat)) : State := l.foldl (fun s p => s.setN p.1 p.2) s
/-- A lane in its tide with general registers and accumulators. -/
def wlane (g : List (Nat × Word)) (acc : List (Nat × BitVec 64)) : LaneSt := { LaneSt.reset with run := true, g := g, acc := acc }
/-- The reset state with such a lane A. -/
def wrun (g : List (Nat × Word)) (acc : List (Nat × BitVec 64)) : State := { State.reset with laneA := wlane g acc }
/-- A state of a part that is up. -/
def wup (s : State) : State := { s with sys := { s.sys with phase := 2, up := true } }
/-- The state that an outcome leaves. -/
def after (o : Host.Outcome State Fault Refusal) : State := match o with
  | .next t => t
  | _ => State.reset

/-! ### Check values of the published algorithms -/

/-- CRC-32C, CRC-32 and CRC-16 (CCITT, start value all ones) of the ASCII digits 1 to 9. -/
theorem test_crc_of_digits :
    crc32c [49, 50, 51, 52, 53, 54, 55, 56, 57] = 0xE3069283 ∧ crc32 [49, 50, 51, 52, 53, 54, 55, 56, 57] = 0xCBF43926 ∧
    crc16 [49, 50, 51, 52, 53, 54, 55, 56, 57] = 0x29B1 := by decide +kernel

/-- SHA-256 of "abc" (FIPS 180-4). -/
theorem test_sha256_abc :
    sha256 [97, 98, 99] = 0xba7816bf8f01cfea414140de5dae2223b00361a396177a9cb410ff61f20015ad := by decide +kernel

/-! ### Single steps -/

/-- An empty queue idles; a command leaves the queue (assumption 1). -/
theorem test_step_takes_front :
    step State.reset = .next State.reset ∧
    (after (step { wrun [(1, 5#32)] [] with pending := [.addi 0 2 1 0xFFFF, .rdsw 0 3] })).pending = [.rdsw 0 3] :=
  ⟨rfl, rfl⟩

/-- ADDI sign-extends its immediate, writes its register and sets C as an unsigned carry (R67, R70). -/
theorem test_addi : ((after (exec (.addi 0 2 1 0xFFFF) (wrun [(1, 5#32)] []))).lane 0).rg 2 = 4#32 := by decide +kernel

/-- ADD wraps to the most negative number and sets N and V, not Z (R66). -/
theorem test_add_wraps :
    let x := (after (exec (.add 0 1 1 2) (wrun [(1, 0x7FFFFFFF#32), (2, 1#32)] []))).lane 0
    x.rg 1 = 0x80000000#32 ∧ x.sw.getLsbD 0 = false ∧ x.sw.getLsbD 1 = true ∧ x.sw.getLsbD 3 = true := by decide +kernel

/-- ADDS limits the same sum and sets SAT (R66). -/
theorem test_adds_limits :
    let x := (after (exec (.adds 0 1 1 2) (wrun [(1, 0x7FFFFFFF#32), (2, 1#32)] []))).lane 0
    x.rg 1 = 0x7FFFFFFF#32 ∧ x.sw.getLsbD 4 = true := by decide +kernel

/-- g0 reads 0 and discards writes. -/
theorem test_g0_discards : ((after (exec (.addi 0 0 1 7) (wrun [(1, 5#32)] []))).lane 0).rg 0 = 0#32 := by decide +kernel

/-- The most negative number divided by -1 (R72). -/
theorem test_div_overflow :
    let x := (after (exec (.div 0 3 1 2) (wrun [(1, 0x80000000#32), (2, 0xFFFFFFFF#32)] []))).lane 0
    x.rg 3 = 0x7FFFFFFF#32 ∧ x.sw.getLsbD 3 = true := by decide +kernel

/-- A load from an address that is not aligned traps with ALIGN and goes on at TRAPVEC (R75, R96). -/
theorem test_load_alignment_traps :
    let x := (after (exec (.lw 0 2 1 1 .clean) (wrun [(1, 0x10000000#32)] []))).lane 0
    x.tc = 2 ∧ x.tv = 0x10000001#32 ∧ x.run = true := by decide +kernel

/-- Both lines of an encoder change in one sample: the count holds and ILLEGAL is set (R161). -/
theorem test_encoder_illegal :
    let s := (wst [(POS.ENC_CFG_EN 2, 1)]).setEnc 2 EncSt.reset
    let t := after (exec (.encoderEdge 2 true true ⟨99990, 100000⟩) s)
    t.encCnt 2 = 0 ∧ t.flag (POS.ENC_STS_ILLEGAL 2) = true := by decide +kernel

/-- The ID register after reset, as a host reads it (R446). -/
theorem test_host_reads_id :
    (after (exec (.hostRead 0 1 ⟨3000000, .clean⟩) (wup State.reset))).host.out = [0x4C480C03] := by decide +kernel

/-! ### LogicAndImmediateResults -/

def wLogicAndImmediate_a : State := wrun [(1, 0x80000005#32), (2, 0x00000043#32), (3, 0xFFFFFFF0#32)] []

/-- States and operands that meet the hypotheses of Obligations.LogicAndImmediateResults. -/
theorem test_witness_logic_and_immediate_results :
    (wLogicAndImmediate_a.runs 0) := by decide +kernel

/-! ### AddAndLimitedResults -/

def wAddAndLimited_a : State := wrun [(1, 0x80000000#32), (2, 0x7FFFFFFF#32), (3, 0xFFFFFFFF#32)] [(0, 0x7FFFFFFFFFFFFFFF#64), (1,
  0xFFFFFFFF80000000#64)]

/-- States and operands that meet the hypotheses of Obligations.AddAndLimitedResults. -/
theorem test_witness_add_and_limited_results :
    (wAddAndLimited_a.runs 0) := by decide +kernel

/-! ### BitFieldAndClampResults -/

def wBitFieldAndClamp_a : State := wrun [(1, 0x80F0F005#32), (2, 0x7FFFFFFF#32), (3, 0xFFFFFFF0#32), (4, 0x10#32)] [(0,
  0x7FFFFFFFFFFFFFFF#64), (1, 0xFFFFFFFF80000000#64), (2, 0x100000#64)]

/-- States and operands that meet the hypotheses of Obligations.BitFieldAndClampResults, clause by clause. -/
theorem test_witness_bit_field_and_clamp_results :
    ((wBitFieldAndClamp_a.runs 0)) ∧
    ((wBitFieldAndClamp_a.runs 0) ∧ (4 + (11 + 1) ≤ 32)) ∧
    ((wBitFieldAndClamp_a.runs 0) ∧ ((wBitFieldAndClamp_a.lane 0).tc = 0) ∧ (32 < 31 + 1 + 1)) := by
  refine ⟨?_, ?_, ?_⟩ <;> decide +kernel

/-! ### MultiplyDivideResults -/

def wMultiplyDivide_a : State := wrun [(1, 0x80000000#32), (2, 0xFFFFFFFF#32), (3, 7#32), (4, 0xFFFFFFF9#32)] []

/-- States and operands that meet the hypotheses of Obligations.MultiplyDivideResults, clause by clause. -/
theorem test_witness_multiply_divide_results :
    ((wMultiplyDivide_a.runs 0)) ∧
    ((wMultiplyDivide_a.runs 0) ∧ (wMultiplyDivide_a.gv 0 3 ≠ 0)) ∧
    ((wMultiplyDivide_a.runs 0) ∧ (wMultiplyDivide_a.gv 0 3 ≠ 0) ∧ (¬(wMultiplyDivide_a.gv 0 1 = 2147483648#32 ∧ wMultiplyDivide_a.gv 0 3 =
      4294967295#32))) := by
  refine ⟨?_, ?_, ?_⟩ <;> decide +kernel

/-! ### UndefinedDivisions -/

def wUndefinedDivisions_a : State := wrun [(1, 0x80000000#32), (2, 0xFFFFFFFF#32), (3, 7#32)] []

/-- States and operands that meet the hypotheses of Obligations.UndefinedDivisions, clause by clause. -/
theorem test_witness_undefined_divisions :
    ((wUndefinedDivisions_a.runs 0) ∧ (wUndefinedDivisions_a.gv 0 0 = 0) ∧ (0 < BitVec.toInt (wUndefinedDivisions_a.gv 0 3))) ∧
    ((wUndefinedDivisions_a.runs 0) ∧ (wUndefinedDivisions_a.gv 0 0 = 0) ∧ (wUndefinedDivisions_a.gv 0 0 = 0)) ∧
    ((wUndefinedDivisions_a.runs 0) ∧ (wUndefinedDivisions_a.gv 0 0 = 0) ∧ (BitVec.toInt (wUndefinedDivisions_a.gv 0 2) < 0)) ∧
    ((wUndefinedDivisions_a.runs 0) ∧ (wUndefinedDivisions_a.gv 0 0 = 0)) ∧
    ((wUndefinedDivisions_a.runs 0) ∧ (wUndefinedDivisions_a.gv 0 1 = 2147483648#32) ∧ (wUndefinedDivisions_a.gv 0 2 = 4294967295#32)) ∧
    ((wUndefinedDivisions_a.runs 0)) := by
  refine ⟨?_, ?_, ?_, ?_, ?_, ?_⟩ <;> decide +kernel

/-! ### AccumulatorResults -/

def wAccumulator_a : State := wrun [(1, 0x80000000#32), (2, 0x7FFFFFFF#32), (3, 0x12348765#32)] [(0, 0x7FFFFFFFFFFFFFFF#64), (1,
  0xFFFFFFFF80000000#64), (2, 0x8000000000000000#64)]

/-- States and operands that meet the hypotheses of Obligations.AccumulatorResults. -/
theorem test_witness_accumulator_results :
    (wAccumulator_a.runs 0) := by decide +kernel

/-! ### LoadResults -/

def wLoad_a : State := { wrun [(1, 0x10000000#32), (2, 0x20000104#32), (3, 0x40000008#32), (4, 0x30000000#32)] [] with sram := [(0x100, 0x80), (0x105, 0xFF)], mram := [(3, 0x91)], snap := ⟨[(SYS.LTR, 77)], 0, 0⟩ }

/-- States and operands that meet the hypotheses of Obligations.LoadResults, clause by clause. -/
theorem test_witness_load_results :
    ((wLoad_a.runs (0 : Lane)) ∧ (unmapped (BitVec.toNat (wLoad_a.gv (0 : Lane) (1 : GReg) + BitVec.signExtend (32 : Nat) (4 : BitVec (16 :
      Nat)))) = false) ∧ (BitVec.toNat (wLoad_a.gv (0 : Lane) (1 : GReg) + BitVec.signExtend (32 : Nat) (4 : BitVec (16 : Nat))) % (4 : Nat)
      = (0 : Nat))) ∧
    ((wLoad_a.runs (0 : Lane)) ∧ (unmapped (BitVec.toNat (wLoad_a.gv (0 : Lane) (1 : GReg) + BitVec.signExtend (32 : Nat) (4 : BitVec (16 :
      Nat)))) = false) ∧ (regionOf (BitVec.toNat (wLoad_a.gv (0 : Lane) (1 : GReg) + BitVec.signExtend (32 : Nat) (4 : BitVec (16 : Nat))))
      ≠ Region.regs) ∧ (BitVec.toNat (wLoad_a.gv (0 : Lane) (1 : GReg) + BitVec.signExtend (32 : Nat) (4 : BitVec (16 : Nat))) % (2 : Nat) =
      (0 : Nat))) ∧
    ((wLoad_a.runs (0 : Lane)) ∧ (unmapped (BitVec.toNat (wLoad_a.gv (0 : Lane) (1 : GReg) + BitVec.signExtend (32 : Nat) (4 : BitVec (16 :
      Nat)))) = false) ∧ (regionOf (BitVec.toNat (wLoad_a.gv (0 : Lane) (1 : GReg) + BitVec.signExtend (32 : Nat) (4 : BitVec (16 : Nat))))
      ≠ Region.regs)) := by
  refine ⟨?_, ?_, ?_⟩ <;> decide +kernel

/-! ### AccessTraps -/

def wAccessTraps_a : State := wrun [(1, 0x10000000#32), (2, 0x20100104#32), (3, 0x40000008#32), (4, 0x30000000#32), (5, 0x50000000#32), (6,
  0x20100105#32)] []
def wAccessTraps_b : State := { wAccessTraps_a with laneA := { wAccessTraps_a.laneA with stage := { Stage.empty with opened := some [], items := 1024 } } }

/-- States and operands that meet the hypotheses of Obligations.AccessTraps, clause by clause. -/
theorem test_witness_access_traps :
    ((wAccessTraps_a.runs 0) ∧ ((wAccessTraps_a.lane 0).tc = 0) ∧ (BitVec.toNat (wAccessTraps_a.gv 0 1 + BitVec.signExtend 32 1#16) % 4 ≠ 0)) ∧
    ((wAccessTraps_a.runs 0) ∧ ((wAccessTraps_a.lane 0).tc = 0) ∧ (BitVec.toNat (wAccessTraps_a.gv 0 1 + BitVec.signExtend 32 1#16) % 2 ≠ 0 ∨
      regionOf (BitVec.toNat (wAccessTraps_a.gv 0 1 + BitVec.signExtend 32 1#16)) = Region.regs)) ∧
    ((wAccessTraps_a.runs 0) ∧ ((wAccessTraps_a.lane 0).tc = 0) ∧ (regionOf (BitVec.toNat (wAccessTraps_a.gv 0 3 + BitVec.signExtend 32 0#16)) =
      Region.regs)) ∧
    ((wAccessTraps_a.runs 0) ∧ ((wAccessTraps_a.lane 0).tc = 0) ∧ (BitVec.toNat (wAccessTraps_a.gv 0 5 + BitVec.signExtend 32 0#16) % 4 = 0) ∧
      (unmapped (BitVec.toNat (wAccessTraps_a.gv 0 5 + BitVec.signExtend 32 0#16)) = true)) ∧
    ((wAccessTraps_a.runs 0) ∧ ((wAccessTraps_a.lane 0).tc = 0) ∧ (regionOf (BitVec.toNat (wAccessTraps_a.gv 0 5 + BitVec.signExtend 32 0#16)) ≠
      Region.regs) ∧ (unmapped (BitVec.toNat (wAccessTraps_a.gv 0 5 + BitVec.signExtend 32 0#16)) = true) ∧ (BitVec.toNat (wAccessTraps_a.gv
      0 5 + BitVec.signExtend 32 0#16) % 2 = 0)) ∧
    ((wAccessTraps_a.runs 0) ∧ ((wAccessTraps_a.lane 0).tc = 0) ∧ (regionOf (BitVec.toNat (wAccessTraps_a.gv 0 5 + BitVec.signExtend 32 0#16)) ≠
      Region.regs) ∧ (unmapped (BitVec.toNat (wAccessTraps_a.gv 0 5 + BitVec.signExtend 32 0#16)) = true)) ∧
    ((wAccessTraps_a.runs 0) ∧ ((wAccessTraps_a.lane 0).tc = 0) ∧ (BitVec.toNat (wAccessTraps_a.gv 0 5 + BitVec.signExtend 32 0#16) % 4 = 0) ∧
      (BitVec.toNat (wAccessTraps_a.gv 0 5 + BitVec.signExtend 32 0#16) < 262144 ∨ 536870912 ≤ BitVec.toNat (wAccessTraps_a.gv 0 5 +
      BitVec.signExtend 32 0#16) ∧ BitVec.toNat (wAccessTraps_a.gv 0 5 + BitVec.signExtend 32 0#16) < 537919488 ∨ 805306368 ≤ BitVec.toNat
      (wAccessTraps_a.gv 0 5 + BitVec.signExtend 32 0#16) ∧ BitVec.toNat (wAccessTraps_a.gv 0 5 + BitVec.signExtend 32 0#16) < 822083584 ∨
      unmapped (BitVec.toNat (wAccessTraps_a.gv 0 5 + BitVec.signExtend 32 0#16)) = true ∨ 537919488 ≤ BitVec.toNat (wAccessTraps_a.gv 0 5 +
      BitVec.signExtend 32 0#16) ∧ BitVec.toNat (wAccessTraps_a.gv 0 5 + BitVec.signExtend 32 0#16) < 538968064 ∧ wAccessTraps_a.inRing
      (BitVec.toNat (wAccessTraps_a.gv 0 5 + BitVec.signExtend 32 0#16) - 536870912) = true)) ∧
    ((wAccessTraps_a.runs 0) ∧ ((wAccessTraps_a.lane 0).tc = 0) ∧ (BitVec.toNat (wAccessTraps_a.gv 0 3 + BitVec.signExtend 32 0#16) % 4 = 0) ∧
      (wAccessTraps_a.stageable (BitVec.toNat (wAccessTraps_a.gv 0 3 + BitVec.signExtend 32 0#16)) = true) ∧ ((wAccessTraps_a.lane
      0).stage.opened = none)) ∧
    ((wAccessTraps_b.runs 0) ∧ ((wAccessTraps_b.lane 0).tc = 0) ∧ (BitVec.toNat (wAccessTraps_b.gv 0 2 + BitVec.signExtend 32 0#16) % 4 = 0) ∧
      (wAccessTraps_b.stageable (BitVec.toNat (wAccessTraps_b.gv 0 2 + BitVec.signExtend 32 0#16)) = true) ∧ ((wAccessTraps_b.lane
      0).stage.opened ≠ none) ∧ (1024 ≤ (wAccessTraps_b.lane 0).stage.items)) ∧
    ((wAccessTraps_a.runs 0) ∧ ((wAccessTraps_a.lane 0).tc = 0) ∧ (regionOf (BitVec.toNat (wAccessTraps_a.gv 0 5 + BitVec.signExtend 32 0#16)) ≠
      Region.regs) ∧ (BitVec.toNat (wAccessTraps_a.gv 0 5 + BitVec.signExtend 32 0#16) < 262144 ∨ 536870912 ≤ BitVec.toNat
      (wAccessTraps_a.gv 0 5 + BitVec.signExtend 32 0#16) ∧ BitVec.toNat (wAccessTraps_a.gv 0 5 + BitVec.signExtend 32 0#16) < 537919488 ∨
      805306368 ≤ BitVec.toNat (wAccessTraps_a.gv 0 5 + BitVec.signExtend 32 0#16) ∧ BitVec.toNat (wAccessTraps_a.gv 0 5 + BitVec.signExtend
      32 0#16) < 822083584 ∨ unmapped (BitVec.toNat (wAccessTraps_a.gv 0 5 + BitVec.signExtend 32 0#16)) = true ∨ 537919488 ≤ BitVec.toNat
      (wAccessTraps_a.gv 0 5 + BitVec.signExtend 32 0#16) ∧ BitVec.toNat (wAccessTraps_a.gv 0 5 + BitVec.signExtend 32 0#16) < 538968064 ∧
      wAccessTraps_a.inRing (BitVec.toNat (wAccessTraps_a.gv 0 5 + BitVec.signExtend 32 0#16) - 536870912) = true) ∧ (BitVec.toNat
      (wAccessTraps_a.gv 0 5 + BitVec.signExtend 32 0#16) % 2 = 0)) ∧
    ((wAccessTraps_a.runs 0) ∧ ((wAccessTraps_a.lane 0).tc = 0) ∧ (regionOf (BitVec.toNat (wAccessTraps_a.gv 0 5 + BitVec.signExtend 32 0#16)) ≠
      Region.regs) ∧ (BitVec.toNat (wAccessTraps_a.gv 0 5 + BitVec.signExtend 32 0#16) < 262144 ∨ 536870912 ≤ BitVec.toNat
      (wAccessTraps_a.gv 0 5 + BitVec.signExtend 32 0#16) ∧ BitVec.toNat (wAccessTraps_a.gv 0 5 + BitVec.signExtend 32 0#16) < 537919488 ∨
      805306368 ≤ BitVec.toNat (wAccessTraps_a.gv 0 5 + BitVec.signExtend 32 0#16) ∧ BitVec.toNat (wAccessTraps_a.gv 0 5 + BitVec.signExtend
      32 0#16) < 822083584 ∨ unmapped (BitVec.toNat (wAccessTraps_a.gv 0 5 + BitVec.signExtend 32 0#16)) = true ∨ 537919488 ≤ BitVec.toNat
      (wAccessTraps_a.gv 0 5 + BitVec.signExtend 32 0#16) ∧ BitVec.toNat (wAccessTraps_a.gv 0 5 + BitVec.signExtend 32 0#16) < 538968064 ∧
      wAccessTraps_a.inRing (BitVec.toNat (wAccessTraps_a.gv 0 5 + BitVec.signExtend 32 0#16) - 536870912) = true)) ∧
    ((wAccessTraps_a.runs 0) ∧ ((wAccessTraps_a.lane 0).tc = 0) ∧ (regionOf (BitVec.toNat (wAccessTraps_a.gv 0 2 + BitVec.signExtend 32 0#16)) =
      Region.sram) ∧ (wAccessTraps_a.stageable (BitVec.toNat (wAccessTraps_a.gv 0 2 + BitVec.signExtend 32 0#16)) = true) ∧
      ((wAccessTraps_a.lane 0).stage.opened = none) ∧ (BitVec.toNat (wAccessTraps_a.gv 0 2 + BitVec.signExtend 32 0#16) % 2 = 0)) ∧
    ((wAccessTraps_a.runs 0) ∧ ((wAccessTraps_a.lane 0).tc = 0) ∧ (regionOf (BitVec.toNat (wAccessTraps_a.gv 0 2 + BitVec.signExtend 32 0#16)) =
      Region.sram) ∧ (wAccessTraps_a.stageable (BitVec.toNat (wAccessTraps_a.gv 0 2 + BitVec.signExtend 32 0#16)) = true) ∧
      ((wAccessTraps_a.lane 0).stage.opened = none)) ∧
    ((wAccessTraps_a.runs 0) ∧ ((wAccessTraps_a.lane 0).tc = 0) ∧ (BitVec.toNat (wAccessTraps_a.gv 0 6) % 4 ≠ 0)) ∧
    ((wAccessTraps_a.runs 0) ∧ ((wAccessTraps_a.lane 0).tc = 0) ∧ (BitVec.toNat (wAccessTraps_a.gv 0 1) % 4 = 0) ∧ ((BitVec.toNat
      (wAccessTraps_a.gv 0 1) < 262144 ∨ 536870912 ≤ BitVec.toNat (wAccessTraps_a.gv 0 1) ∧ BitVec.toNat (wAccessTraps_a.gv 0 1) < 537919488
      ∨ 805306368 ≤ BitVec.toNat (wAccessTraps_a.gv 0 1) ∧ BitVec.toNat (wAccessTraps_a.gv 0 1) < 822083584 ∨ unmapped (BitVec.toNat
      (wAccessTraps_a.gv 0 1)) = true ∨ 537919488 ≤ BitVec.toNat (wAccessTraps_a.gv 0 1) ∧ BitVec.toNat (wAccessTraps_a.gv 0 1) < 538968064
      ∧ wAccessTraps_a.inRing (BitVec.toNat (wAccessTraps_a.gv 0 1) - 536870912) = true) ∨ regionOf (BitVec.toNat (wAccessTraps_a.gv 0 1)) =
      Region.dram)) ∧
    ((wAccessTraps_b.runs 0) ∧ ((wAccessTraps_b.lane 0).tc = 0) ∧ (BitVec.toNat (wAccessTraps_b.gv 0 2) % 4 = 0) ∧ (wAccessTraps_b.stageable
      (BitVec.toNat (wAccessTraps_b.gv 0 2)) = true) ∧ ((wAccessTraps_b.lane 0).stage.opened ≠ none) ∧ (1024 ≤ (wAccessTraps_b.lane
      0).stage.items)) := by
  refine ⟨?_, ?_, ?_, ?_, ?_, ?_, ?_, ?_, ?_, ?_, ?_, ?_, ?_, ?_, ?_, ?_⟩ <;> decide +kernel

/-! ### DoubleBitErrorEndsTide -/

def wDoubleBitErrorEndsTide_a : State := wrun [(1, 0x10000000#32), (2, 0x20100104#32)] []

/-- States and operands that meet the hypotheses of Obligations.DoubleBitErrorEndsTide, clause by clause. -/
theorem test_witness_double_bit_error_ends_tide :
    ((wDoubleBitErrorEndsTide_a.runs (0 : Lane)) ∧ (regionOf (BitVec.toNat (wDoubleBitErrorEndsTide_a.gv (0 : Lane) (1 : GReg) +
      BitVec.signExtend (32 : Nat) (4 : BitVec (16 : Nat)))) = Region.iram ∨ regionOf (BitVec.toNat (wDoubleBitErrorEndsTide_a.gv (0 : Lane)
      (1 : GReg) + BitVec.signExtend (32 : Nat) (4 : BitVec (16 : Nat)))) = Region.dram ∨ regionOf (BitVec.toNat
      (wDoubleBitErrorEndsTide_a.gv (0 : Lane) (1 : GReg) + BitVec.signExtend (32 : Nat) (4 : BitVec (16 : Nat)))) = Region.sram) ∧
      (BitVec.toNat (wDoubleBitErrorEndsTide_a.gv (0 : Lane) (1 : GReg) + BitVec.signExtend (32 : Nat) (4 : BitVec (16 : Nat))) % (4 : Nat)
      = (0 : Nat))) ∧
    ((wDoubleBitErrorEndsTide_a.runs (0 : Lane)) ∧ (regionOf (BitVec.toNat (wDoubleBitErrorEndsTide_a.gv (0 : Lane) (1 : GReg) +
      BitVec.signExtend (32 : Nat) (4 : BitVec (16 : Nat)))) = Region.iram ∨ regionOf (BitVec.toNat (wDoubleBitErrorEndsTide_a.gv (0 : Lane)
      (1 : GReg) + BitVec.signExtend (32 : Nat) (4 : BitVec (16 : Nat)))) = Region.dram ∨ regionOf (BitVec.toNat
      (wDoubleBitErrorEndsTide_a.gv (0 : Lane) (1 : GReg) + BitVec.signExtend (32 : Nat) (4 : BitVec (16 : Nat)))) = Region.sram) ∧
      (BitVec.toNat (wDoubleBitErrorEndsTide_a.gv (0 : Lane) (1 : GReg) + BitVec.signExtend (32 : Nat) (4 : BitVec (16 : Nat))) % (2 : Nat)
      = (0 : Nat))) ∧
    ((wDoubleBitErrorEndsTide_a.runs (0 : Lane)) ∧ (regionOf (BitVec.toNat (wDoubleBitErrorEndsTide_a.gv (0 : Lane) (1 : GReg) +
      BitVec.signExtend (32 : Nat) (4 : BitVec (16 : Nat)))) = Region.iram ∨ regionOf (BitVec.toNat (wDoubleBitErrorEndsTide_a.gv (0 : Lane)
      (1 : GReg) + BitVec.signExtend (32 : Nat) (4 : BitVec (16 : Nat)))) = Region.dram ∨ regionOf (BitVec.toNat
      (wDoubleBitErrorEndsTide_a.gv (0 : Lane) (1 : GReg) + BitVec.signExtend (32 : Nat) (4 : BitVec (16 : Nat)))) = Region.sram)) := by
  refine ⟨?_, ?_, ?_⟩ <;> decide +kernel

/-! ### LiveResult -/

def wLiveResult_a : State := { wrun [(3, 0x40000008#32)] [] with regs := [(SYS.LTR, 77)] }

/-- States and operands that meet the hypotheses of Obligations.LiveResult, clause by clause. -/
theorem test_witness_live_result :
    ((wLiveResult_a.runs 0) ∧ (BitVec.toNat (wLiveResult_a.gv 0 3 + BitVec.signExtend 32 0#16) % 4 = 0) ∧ (regionOf (BitVec.toNat
      (wLiveResult_a.gv 0 3 + BitVec.signExtend 32 0#16)) = Region.regs) ∧ (unmapped (BitVec.toNat (wLiveResult_a.gv 0 3 + BitVec.signExtend
      32 0#16)) = false)) ∧
    ((wLiveResult_a.runs 0) ∧ ((wLiveResult_a.lane 0).tc = 0) ∧ (BitVec.toNat (wLiveResult_a.gv 0 3 + BitVec.signExtend 32 2#16) % 4 ≠ 0)) ∧
    ((wLiveResult_a.runs 0) ∧ ((wLiveResult_a.lane 0).tc = 0) ∧ (BitVec.toNat (wLiveResult_a.gv 0 0 + BitVec.signExtend 32 0#16) % 4 = 0) ∧
      (regionOf (BitVec.toNat (wLiveResult_a.gv 0 0 + BitVec.signExtend 32 0#16)) ≠ Region.regs ∨ unmapped (BitVec.toNat (wLiveResult_a.gv 0
      0 + BitVec.signExtend 32 0#16)) = true)) := by
  refine ⟨?_, ?_, ?_⟩ <;> decide +kernel

/-! ### StoreResults -/

def wStore_a : State := wrun [(1, 0x10000000#32), (2, 0x20100104#32), (3, 0x40000008#32), (4, 0x89ABCDEF#32)] []
def wStore_b : State := { wStore_a with laneA := { wStore_a.laneA with stage := { Stage.empty with opened := some [], items := 1023 } } }

/-- States and operands that meet the hypotheses of Obligations.StoreResults, clause by clause. -/
theorem test_witness_store_results :
    ((wStore_a.runs (0 : Lane)) ∧ ((268435456 : Nat) ≤ BitVec.toNat (wStore_a.gv (0 : Lane) (1 : GReg) + BitVec.signExtend (32 : Nat) (4 :
      BitVec (16 : Nat)))) ∧ (BitVec.toNat (wStore_a.gv (0 : Lane) (1 : GReg) + BitVec.signExtend (32 : Nat) (4 : BitVec (16 : Nat))) <
      (268697600 : Nat)) ∧ (BitVec.toNat (wStore_a.gv (0 : Lane) (1 : GReg) + BitVec.signExtend (32 : Nat) (4 : BitVec (16 : Nat))) % (4 :
      Nat) = (0 : Nat))) ∧
    ((wStore_a.runs (0 : Lane)) ∧ ((268435456 : Nat) ≤ BitVec.toNat (wStore_a.gv (0 : Lane) (1 : GReg) + BitVec.signExtend (32 : Nat) (4 :
      BitVec (16 : Nat)))) ∧ (BitVec.toNat (wStore_a.gv (0 : Lane) (1 : GReg) + BitVec.signExtend (32 : Nat) (4 : BitVec (16 : Nat))) <
      (268697600 : Nat)) ∧ (BitVec.toNat (wStore_a.gv (0 : Lane) (1 : GReg) + BitVec.signExtend (32 : Nat) (4 : BitVec (16 : Nat))) % (2 :
      Nat) = (0 : Nat))) ∧
    ((wStore_a.runs (0 : Lane)) ∧ ((268435456 : Nat) ≤ BitVec.toNat (wStore_a.gv (0 : Lane) (1 : GReg) + BitVec.signExtend (32 : Nat) (4 :
      BitVec (16 : Nat)))) ∧ (BitVec.toNat (wStore_a.gv (0 : Lane) (1 : GReg) + BitVec.signExtend (32 : Nat) (4 : BitVec (16 : Nat))) <
      (268697600 : Nat))) ∧
    ((wStore_b.runs (0 : Lane)) ∧ ((wStore_b.lane (0 : Nat)).stage.opened = some []) ∧ ((wStore_b.lane (0 : Nat)).stage.items < (1024 : Nat)) ∧
      (wStore_b.stageable (BitVec.toNat (wStore_b.gv (0 : Lane) (2 : GReg) + BitVec.signExtend (32 : Nat) (0 : BitVec (16 : Nat)))) = true)
      ∧ (BitVec.toNat (wStore_b.gv (0 : Lane) (2 : GReg) + BitVec.signExtend (32 : Nat) (0 : BitVec (16 : Nat))) % (4 : Nat) = (0 : Nat))) ∧
    ((wStore_b.runs (0 : Lane)) ∧ ((wStore_b.lane (0 : Nat)).stage.opened = some []) ∧ ((wStore_b.lane (0 : Nat)).stage.items < (1024 : Nat)) ∧
      (wStore_b.stageable (BitVec.toNat (wStore_b.gv (0 : Lane) (2 : GReg) + BitVec.signExtend (32 : Nat) (0 : BitVec (16 : Nat)))) = true)
      ∧ (regionOf (BitVec.toNat (wStore_b.gv (0 : Lane) (2 : GReg) + BitVec.signExtend (32 : Nat) (0 : BitVec (16 : Nat)))) = Region.sram) ∧
      (BitVec.toNat (wStore_b.gv (0 : Lane) (2 : GReg) + BitVec.signExtend (32 : Nat) (0 : BitVec (16 : Nat))) % (2 : Nat) = (0 : Nat))) ∧
    ((wStore_b.runs (0 : Lane)) ∧ ((wStore_b.lane (0 : Nat)).stage.opened = some []) ∧ ((wStore_b.lane (0 : Nat)).stage.items < (1024 : Nat)) ∧
      (wStore_b.stageable (BitVec.toNat (wStore_b.gv (0 : Lane) (2 : GReg) + BitVec.signExtend (32 : Nat) (0 : BitVec (16 : Nat)))) = true)
      ∧ (regionOf (BitVec.toNat (wStore_b.gv (0 : Lane) (2 : GReg) + BitVec.signExtend (32 : Nat) (0 : BitVec (16 : Nat)))) = Region.sram)) ∧
    ((wStore_b.runs 0) ∧ ((wStore_b.lane 0).stage.opened = some []) ∧ ((wStore_b.lane 0).stage.items < 1024) ∧ (wStore_b.stageable (BitVec.toNat
      (wStore_b.gv 0 2)) = true) ∧ (BitVec.toNat (wStore_b.gv 0 2) % 4 = 0)) := by
  refine ⟨?_, ?_, ?_, ?_, ?_, ?_, ?_⟩ <;> decide +kernel

/-! ### BranchAndJumpResults -/

def wBranchAndJump_a : State := { wrun [(1, 0x80000000#32), (2, 0x7FFFFFFF#32), (3, 0x101#32), (4, 0x80000#32)] [] with laneA := { wlane [(1, 0x80000000#32), (2, 0x7FFFFFFF#32), (3, 0x101#32), (4, 0x80000#32)] [] with pc := 0x100 } }
def wBranchAndJump_b : State := { wrun [] [] with laneA := { wlane [(1, 0x80000000#32), (2, 0x7FFFFFFF#32), (3, 0x101#32), (4, 0x80000#32)] [] with pc := 0x3FFFC } }

/-- States and operands that meet the hypotheses of Obligations.BranchAndJumpResults, clause by clause. -/
theorem test_witness_branch_and_jump_results :
    ((wBranchAndJump_a.runs 0) ∧ ((BitVec.ofNat 32 (wBranchAndJump_a.lane 0).pc + 4 * BitVec.signExtend 32 65535#16).toNat % 4 = 0) ∧
      ((BitVec.ofNat 32 (wBranchAndJump_a.lane 0).pc + 4 * BitVec.signExtend 32 65535#16).toNat < 262144) ∧ ((wBranchAndJump_a.gv 0 1 ==
      wBranchAndJump_a.gv 0 2) = false)) ∧
    ((wBranchAndJump_a.runs 0) ∧ ((BitVec.ofNat 32 (wBranchAndJump_a.lane 0).pc + 4 * BitVec.signExtend 32 5#16).toNat % 4 = 0) ∧ ((BitVec.ofNat
      32 (wBranchAndJump_a.lane 0).pc + 4 * BitVec.signExtend 32 5#16).toNat < 262144) ∧ ((wBranchAndJump_a.gv 0 1 == wBranchAndJump_a.gv 0
      1) = true)) ∧
    ((wBranchAndJump_a.runs 0) ∧ ((BitVec.ofNat 32 (wBranchAndJump_a.lane 0).pc + 4 * BitVec.signExtend 32 5#16).toNat % 4 = 0) ∧ ((BitVec.ofNat
      32 (wBranchAndJump_a.lane 0).pc + 4 * BitVec.signExtend 32 5#16).toNat < 262144) ∧ ((wBranchAndJump_a.gv 0 1 != wBranchAndJump_a.gv 0
      1) = false)) ∧
    ((wBranchAndJump_a.runs 0) ∧ ((BitVec.ofNat 32 (wBranchAndJump_a.lane 0).pc + 4 * BitVec.signExtend 32 65535#16).toNat % 4 = 0) ∧
      ((BitVec.ofNat 32 (wBranchAndJump_a.lane 0).pc + 4 * BitVec.signExtend 32 65535#16).toNat < 262144) ∧ ((wBranchAndJump_a.gv 0 1 !=
      wBranchAndJump_a.gv 0 2) = true)) ∧
    ((wBranchAndJump_a.runs 0) ∧ ((BitVec.ofNat 32 (wBranchAndJump_a.lane 0).pc + 4 * BitVec.signExtend 32 5#16).toNat % 4 = 0) ∧ ((BitVec.ofNat
      32 (wBranchAndJump_a.lane 0).pc + 4 * BitVec.signExtend 32 5#16).toNat < 262144) ∧ (BitVec.slt (wBranchAndJump_a.gv 0 2)
      (wBranchAndJump_a.gv 0 1) = false)) ∧
    ((wBranchAndJump_a.runs 0) ∧ ((BitVec.ofNat 32 (wBranchAndJump_a.lane 0).pc + 4 * BitVec.signExtend 32 65535#16).toNat % 4 = 0) ∧
      ((BitVec.ofNat 32 (wBranchAndJump_a.lane 0).pc + 4 * BitVec.signExtend 32 65535#16).toNat < 262144) ∧ (BitVec.slt (wBranchAndJump_a.gv
      0 1) (wBranchAndJump_a.gv 0 2) = true)) ∧
    ((wBranchAndJump_a.runs 0) ∧ ((BitVec.ofNat 32 (wBranchAndJump_a.lane 0).pc + 4 * BitVec.signExtend 32 65535#16).toNat % 4 = 0) ∧
      ((BitVec.ofNat 32 (wBranchAndJump_a.lane 0).pc + 4 * BitVec.signExtend 32 65535#16).toNat < 262144) ∧ ((!BitVec.slt
      (wBranchAndJump_a.gv 0 1) (wBranchAndJump_a.gv 0 2)) = false)) ∧
    ((wBranchAndJump_a.runs 0) ∧ ((BitVec.ofNat 32 (wBranchAndJump_a.lane 0).pc + 4 * BitVec.signExtend 32 5#16).toNat % 4 = 0) ∧ ((BitVec.ofNat
      32 (wBranchAndJump_a.lane 0).pc + 4 * BitVec.signExtend 32 5#16).toNat < 262144) ∧ ((!BitVec.slt (wBranchAndJump_a.gv 0 2)
      (wBranchAndJump_a.gv 0 1)) = true)) ∧
    ((wBranchAndJump_a.runs 0) ∧ ((BitVec.ofNat 32 (wBranchAndJump_a.lane 0).pc + 4 * BitVec.signExtend 32 65535#16).toNat % 4 = 0) ∧
      ((BitVec.ofNat 32 (wBranchAndJump_a.lane 0).pc + 4 * BitVec.signExtend 32 65535#16).toNat < 262144) ∧ (BitVec.ult (wBranchAndJump_a.gv
      0 1) (wBranchAndJump_a.gv 0 2) = false)) ∧
    ((wBranchAndJump_a.runs 0) ∧ ((BitVec.ofNat 32 (wBranchAndJump_a.lane 0).pc + 4 * BitVec.signExtend 32 5#16).toNat % 4 = 0) ∧ ((BitVec.ofNat
      32 (wBranchAndJump_a.lane 0).pc + 4 * BitVec.signExtend 32 5#16).toNat < 262144) ∧ (BitVec.ult (wBranchAndJump_a.gv 0 2)
      (wBranchAndJump_a.gv 0 1) = true)) ∧
    ((wBranchAndJump_a.runs 0) ∧ ((BitVec.ofNat 32 (wBranchAndJump_a.lane 0).pc + 4 * BitVec.signExtend 32 5#16).toNat % 4 = 0) ∧ ((BitVec.ofNat
      32 (wBranchAndJump_a.lane 0).pc + 4 * BitVec.signExtend 32 5#16).toNat < 262144) ∧ ((!BitVec.ult (wBranchAndJump_a.gv 0 2)
      (wBranchAndJump_a.gv 0 1)) = false)) ∧
    ((wBranchAndJump_a.runs 0) ∧ ((BitVec.ofNat 32 (wBranchAndJump_a.lane 0).pc + 4 * BitVec.signExtend 32 65535#16).toNat % 4 = 0) ∧
      ((BitVec.ofNat 32 (wBranchAndJump_a.lane 0).pc + 4 * BitVec.signExtend 32 65535#16).toNat < 262144) ∧ ((!BitVec.ult
      (wBranchAndJump_a.gv 0 1) (wBranchAndJump_a.gv 0 2)) = true)) ∧
    ((wBranchAndJump_b.runs 0) ∧ ((BitVec.ofNat 32 (wBranchAndJump_b.lane 0).pc + 4 * BitVec.signExtend 32 1#16).toNat % 4 = 0) ∧ (262144 ≤
      (BitVec.ofNat 32 (wBranchAndJump_b.lane 0).pc + 4 * BitVec.signExtend 32 1#16).toNat) ∧ ((wBranchAndJump_b.lane 0).tc = 0) ∧
      ((wBranchAndJump_b.gv 0 1 == wBranchAndJump_b.gv 0 1) = true)) ∧
    ((wBranchAndJump_b.runs 0) ∧ ((BitVec.ofNat 32 (wBranchAndJump_b.lane 0).pc + 4 * BitVec.signExtend 32 1#16).toNat % 4 = 0) ∧ (262144 ≤
      (BitVec.ofNat 32 (wBranchAndJump_b.lane 0).pc + 4 * BitVec.signExtend 32 1#16).toNat) ∧ ((wBranchAndJump_b.lane 0).tc = 0) ∧
      ((wBranchAndJump_b.gv 0 1 != wBranchAndJump_b.gv 0 2) = true)) ∧
    ((wBranchAndJump_b.runs 0) ∧ ((BitVec.ofNat 32 (wBranchAndJump_b.lane 0).pc + 4 * BitVec.signExtend 32 1#16).toNat % 4 = 0) ∧ (262144 ≤
      (BitVec.ofNat 32 (wBranchAndJump_b.lane 0).pc + 4 * BitVec.signExtend 32 1#16).toNat) ∧ ((wBranchAndJump_b.lane 0).tc = 0) ∧
      (BitVec.slt (wBranchAndJump_b.gv 0 1) (wBranchAndJump_b.gv 0 2) = true)) ∧
    ((wBranchAndJump_b.runs 0) ∧ ((BitVec.ofNat 32 (wBranchAndJump_b.lane 0).pc + 4 * BitVec.signExtend 32 1#16).toNat % 4 = 0) ∧ (262144 ≤
      (BitVec.ofNat 32 (wBranchAndJump_b.lane 0).pc + 4 * BitVec.signExtend 32 1#16).toNat) ∧ ((wBranchAndJump_b.lane 0).tc = 0) ∧
      ((!BitVec.slt (wBranchAndJump_b.gv 0 1) (wBranchAndJump_b.gv 0 1)) = true)) ∧
    ((wBranchAndJump_b.runs 0) ∧ ((BitVec.ofNat 32 (wBranchAndJump_b.lane 0).pc + 4 * BitVec.signExtend 32 1#16).toNat % 4 = 0) ∧ (262144 ≤
      (BitVec.ofNat 32 (wBranchAndJump_b.lane 0).pc + 4 * BitVec.signExtend 32 1#16).toNat) ∧ ((wBranchAndJump_b.lane 0).tc = 0) ∧
      (BitVec.ult (wBranchAndJump_b.gv 0 2) (wBranchAndJump_b.gv 0 1) = true)) ∧
    ((wBranchAndJump_b.runs 0) ∧ ((BitVec.ofNat 32 (wBranchAndJump_b.lane 0).pc + 4 * BitVec.signExtend 32 1#16).toNat % 4 = 0) ∧ (262144 ≤
      (BitVec.ofNat 32 (wBranchAndJump_b.lane 0).pc + 4 * BitVec.signExtend 32 1#16).toNat) ∧ ((wBranchAndJump_b.lane 0).tc = 0) ∧
      ((!BitVec.ult (wBranchAndJump_b.gv 0 1) (wBranchAndJump_b.gv 0 1)) = true)) ∧
    ((wBranchAndJump_a.runs 0) ∧ ((BitVec.ofNat 32 (wBranchAndJump_a.lane 0).pc + 4 * BitVec.signExtend 32 5#26).toNat % 4 = 0) ∧ ((BitVec.ofNat
      32 (wBranchAndJump_a.lane 0).pc + 4 * BitVec.signExtend 32 5#26).toNat < 262144)) ∧
    ((wBranchAndJump_a.runs 0) ∧ (BitVec.toNat (wBranchAndJump_a.gv 0 3 + BitVec.signExtend 32 3#16) % 4 = 0) ∧ (BitVec.toNat
      (wBranchAndJump_a.gv 0 3 + BitVec.signExtend 32 3#16) < 262144)) ∧
    ((wBranchAndJump_a.runs 0) ∧ ((wBranchAndJump_a.lane 0).tc = 0) ∧ (BitVec.toNat (wBranchAndJump_a.gv 0 3 + BitVec.signExtend 32 0#16) % 4 ≠
      0)) ∧
    ((wBranchAndJump_a.runs 0) ∧ ((wBranchAndJump_a.lane 0).tc = 0) ∧ (BitVec.toNat (wBranchAndJump_a.gv 0 4 + BitVec.signExtend 32 0#16) % 4 =
      0) ∧ (262144 ≤ BitVec.toNat (wBranchAndJump_a.gv 0 4 + BitVec.signExtend 32 0#16))) ∧
    ((wBranchAndJump_a.runs 0) ∧ ((wBranchAndJump_a.lane 0).tc = 0) ∧ ((BitVec.ofNat 32 (wBranchAndJump_a.lane 0).pc + 4 * BitVec.signExtend 32
      65535#26).toNat % 4 = 0) ∧ (262144 ≤ (BitVec.ofNat 32 (wBranchAndJump_a.lane 0).pc + 4 * BitVec.signExtend 32 65535#26).toNat)) := by
  refine ⟨?_, ?_, ?_, ?_, ?_, ?_, ?_, ?_, ?_, ?_, ?_, ?_, ?_, ?_, ?_, ?_, ?_, ?_, ?_, ?_, ?_, ?_, ?_⟩ <;> decide +kernel

/-! ### GroupResults -/

def wGroup_a : State := { wrun [] [] with laneA := { wlane [(1, 64#32), (2, 0x20100000#32), (3, 53#32)] [] with stage := { Stage.empty with groups := 15 } } }
def wGroup_b : State := { wGroup_a with laneA := { wGroup_a.laneA with stage := { Stage.empty with opened := some [Item.idle 0 3], items := 1, groups := 16 } } }
def wGroup_c : State := { wGroup_a with laneA := { wGroup_a.laneA with stage := { Stage.empty with groups := 16 } } }
def wGroup_d : State := { wGroup_b with laneA := { wGroup_b.laneA with g := [(1, 1#32), (2, 0x10000000#32), (3, 53#32), (4, 12#32), (5, 0#32), (6, 0x10000002#32), (7, 0x20100000#32)] } }
def wGroup_f : State := { wGroup_d with laneA := { wGroup_d.laneA with stage := { wGroup_d.laneA.stage with items := 1024 } } }

/-- States and operands that meet the hypotheses of Obligations.GroupResults, clause by clause. -/
theorem test_witness_group_results :
    ((wGroup_a.runs 0) ∧ ((wGroup_a.lane 0).stage.opened = none) ∧ ((wGroup_a.lane 0).stage.groups < 16)) ∧
    ((wGroup_b.runs 0) ∧ ((wGroup_b.lane 0).stage.opened = some [Item.idle 0 3])) ∧
    ((wGroup_b.runs 0) ∧ ((wGroup_b.lane 0).tc = 0) ∧ ((wGroup_b.lane 0).stage.opened ≠ none)) ∧
    ((wGroup_c.runs 0) ∧ ((wGroup_c.lane 0).tc = 0) ∧ ((wGroup_c.lane 0).stage.opened = none) ∧ (16 ≤ (wGroup_c.lane 0).stage.groups)) ∧
    ((wGroup_a.runs 0) ∧ ((wGroup_a.lane 0).tc = 0) ∧ ((wGroup_a.lane 0).stage.opened = none)) ∧
    ((wGroup_a.runs 0) ∧ ((wGroup_a.lane 0).tc = 0) ∧ ((wGroup_a.lane 0).stage.opened = none) ∧ (BitVec.toNat (wGroup_a.gv 0 2) % 4 = 0) ∧
      (wGroup_a.stageable (BitVec.toNat (wGroup_a.gv 0 2)) = true)) ∧
    ((wGroup_a.runs 0) ∧ ((wGroup_a.lane 0).tc = 0) ∧ (63 < BitVec.toNat (wGroup_a.gv 0 1) ∨ wGroup_a.flag (RINGS.RING_CFG_EN (BitVec.toNat
      (wGroup_a.gv 0 1))) = false)) ∧
    ((wGroup_b.runs 0) ∧ ((wGroup_b.lane 0).tc = 0) ∧ (63 < BitVec.toNat (wGroup_b.gv 0 3) ∨ wGroup_b.flag (RINGS.RING_CFG_EN (BitVec.toNat
      (wGroup_b.gv 0 3))) = false) ∧ ((wGroup_b.lane 0).stage.opened ≠ none)) ∧
    ((wGroup_d.runs 0) ∧ ((wGroup_d.lane 0).tc = 0) ∧ ((wGroup_d.lane 0).stage.opened ≠ none) ∧ (BitVec.toNat (wGroup_d.gv 0 5) < 64) ∧
      (wGroup_d.flag (RINGS.RING_CFG_EN (BitVec.toNat (wGroup_d.gv 0 5))) = true) ∧ (wGroup_d.progProduces (BitVec.toNat (wGroup_d.gv 0 5))
      = false)) ∧
    ((wGroup_d.runs 0) ∧ ((wGroup_d.lane 0).tc = 0) ∧ ((wGroup_d.lane 0).stage.opened ≠ none) ∧ (BitVec.toNat (wGroup_d.gv 0 1) < 64) ∧
      (wGroup_d.flag (RINGS.RING_CFG_EN (BitVec.toNat (wGroup_d.gv 0 1))) = true) ∧ (wGroup_d.progConsumes (BitVec.toNat (wGroup_d.gv 0 1))
      = false)) ∧
    ((wGroup_d.runs 0) ∧ ((wGroup_d.lane 0).tc = 0) ∧ ((wGroup_d.lane 0).stage.opened ≠ none) ∧ (BitVec.toNat (wGroup_d.gv 0 1) < 64) ∧
      (wGroup_d.flag (RINGS.RING_CFG_EN (BitVec.toNat (wGroup_d.gv 0 1))) = true) ∧ (wGroup_d.progProduces (BitVec.toNat (wGroup_d.gv 0 1))
      = true) ∧ (BitVec.toNat (wGroup_d.gv 0 6) % wGroup_d.ringEnt (BitVec.toNat (wGroup_d.gv 0 1)) ≠ 0)) ∧
    ((wGroup_d.runs 0) ∧ ((wGroup_d.lane 0).tc = 0) ∧ ((wGroup_d.lane 0).stage.opened ≠ none) ∧ (BitVec.toNat (wGroup_d.gv 0 1) < 64) ∧
      (wGroup_d.flag (RINGS.RING_CFG_EN (BitVec.toNat (wGroup_d.gv 0 1))) = true) ∧ (wGroup_d.progProduces (BitVec.toNat (wGroup_d.gv 0 1))
      = true) ∧ (BitVec.toNat (wGroup_d.gv 0 7) % wGroup_d.ringEnt (BitVec.toNat (wGroup_d.gv 0 1)) = 0) ∧ (BitVec.toNat (wGroup_d.gv 0 7) <
      268435456 ∨ 268697600 < BitVec.toNat (wGroup_d.gv 0 7) + wGroup_d.ringEnt (BitVec.toNat (wGroup_d.gv 0 1)))) ∧
    ((wGroup_f.runs 0) ∧ ((wGroup_f.lane 0).tc = 0) ∧ ((wGroup_f.lane 0).stage.opened ≠ none) ∧ (BitVec.toNat (wGroup_f.gv 0 1) < 64) ∧
      (wGroup_f.flag (RINGS.RING_CFG_EN (BitVec.toNat (wGroup_f.gv 0 1))) = true) ∧ (wGroup_f.progProduces (BitVec.toNat (wGroup_f.gv 0 1))
      = true) ∧ (BitVec.toNat (wGroup_f.gv 0 2) % wGroup_f.ringEnt (BitVec.toNat (wGroup_f.gv 0 1)) = 0) ∧ (268435456 ≤ BitVec.toNat
      (wGroup_f.gv 0 2)) ∧ (BitVec.toNat (wGroup_f.gv 0 2) + wGroup_f.ringEnt (BitVec.toNat (wGroup_f.gv 0 1)) ≤ 268697600) ∧ (1024 ≤
      (wGroup_f.lane 0).stage.items)) ∧
    ((wGroup_d.runs 0) ∧ ((wGroup_d.lane 0).tc = 0) ∧ ((wGroup_d.lane 0).stage.opened ≠ none) ∧ (BitVec.toNat (wGroup_d.gv 0 5) < 64) ∧
      (wGroup_d.flag (RINGS.RING_CFG_EN (BitVec.toNat (wGroup_d.gv 0 5))) = true) ∧ (wGroup_d.progConsumes (BitVec.toNat (wGroup_d.gv 0 5))
      = true) ∧ (BitVec.toNat (wGroup_d.gv 0 6) % wGroup_d.ringEnt (BitVec.toNat (wGroup_d.gv 0 5)) ≠ 0)) ∧
    ((wGroup_d.runs 0) ∧ ((wGroup_d.lane 0).tc = 0) ∧ ((wGroup_d.lane 0).stage.opened ≠ none) ∧ (BitVec.toNat (wGroup_d.gv 0 5) < 64) ∧
      (wGroup_d.flag (RINGS.RING_CFG_EN (BitVec.toNat (wGroup_d.gv 0 5))) = true) ∧ (wGroup_d.progConsumes (BitVec.toNat (wGroup_d.gv 0 5))
      = true) ∧ (BitVec.toNat (wGroup_d.gv 0 7) % wGroup_d.ringEnt (BitVec.toNat (wGroup_d.gv 0 5)) = 0) ∧ (BitVec.toNat (wGroup_d.gv 0 7) <
      268435456 ∨ 268697600 < BitVec.toNat (wGroup_d.gv 0 7) + wGroup_d.ringEnt (BitVec.toNat (wGroup_d.gv 0 5)))) ∧
    ((wGroup_f.runs 0) ∧ ((wGroup_f.lane 0).tc = 0) ∧ ((wGroup_f.lane 0).stage.opened ≠ none) ∧ (BitVec.toNat (wGroup_f.gv 0 5) < 64) ∧
      (wGroup_f.flag (RINGS.RING_CFG_EN (BitVec.toNat (wGroup_f.gv 0 5))) = true) ∧ (wGroup_f.progConsumes (BitVec.toNat (wGroup_f.gv 0 5))
      = true) ∧ (BitVec.toNat (wGroup_f.gv 0 2) % wGroup_f.ringEnt (BitVec.toNat (wGroup_f.gv 0 5)) = 0) ∧ (268435456 ≤ BitVec.toNat
      (wGroup_f.gv 0 2)) ∧ (BitVec.toNat (wGroup_f.gv 0 2) + wGroup_f.ringEnt (BitVec.toNat (wGroup_f.gv 0 5)) ≤ 268697600) ∧ (1024 ≤
      (wGroup_f.lane 0).stage.items)) := by
  refine ⟨?_, ?_, ?_, ?_, ?_, ?_, ?_, ?_, ?_, ?_, ?_, ?_, ?_, ?_, ?_, ?_⟩ <;> decide +kernel

/-! ### TideEndResults -/

def wTideEnd_a : State := { wrun [(1, 64#32)] [] with laneA := { wlane [(1, 64#32)] [] with stage := { Stage.empty with opened := some [Item.idle 0 3], items := 1, groups := 16 } } }
def wTideEnd_b : State := wrun [] []
def wTideEnd_c : State := { wTideEnd_a with laneA := { wTideEnd_a.laneA with sw := 0x20000000#32 } }

/-- States and operands that meet the hypotheses of Obligations.TideEndResults, clause by clause. -/
theorem test_witness_tide_end_results :
    ((wTideEnd_b.runs 0) ∧ ((wTideEnd_b.lane 0).stage.opened = none)) ∧
    ((wTideEnd_a.runs 0)) ∧
    ((wTideEnd_c.runs 0) ∧ ((wTideEnd_c.lane 0).tc ≠ 0)) := by
  refine ⟨?_, ?_, ?_⟩ <;> decide +kernel

/-! ### EventAndBellResults -/

def wEventAndBell_a : State := { wrun [] [] with laneA := { wlane [(1, 64#32)] [] with pres := [(150, ⟨5, true⟩), (155, ⟨9, false⟩)], last := 77 } }
def wEventAndBell_b : State := { wrun [] [] with gal := { GalSt.reset with bells := [⟨100, some [(3, ⟨1, false⟩)]⟩] } }
def wEventAndBell_c : State := { wrun [] [] with laneA := { wlane [] [] with stage := { Stage.empty with bells := 32 } } }
def wEventAndBell_f : State := { wrun [] [] with gal := { GalSt.reset with bells := [⟨100, none⟩] } }

/-- States and operands that meet the hypotheses of Obligations.EventAndBellResults, clause by clause. -/
theorem test_witness_event_and_bell_results :
    ((wEventAndBell_b.runs 0) ∧ ((wEventAndBell_b.lane 0).pres = [])) ∧
    ((wEventAndBell_a.runs 0) ∧ ((wEventAndBell_a.lane 0).pres = [(150, { stamp := 5, ovr := true }), (155, { stamp := 9, ovr := false })])) ∧
    ((wEventAndBell_a.runs 0) ∧ ((wEventAndBell_a.lane 0).pres = [(150, { stamp := 5, ovr := true }), (155, { stamp := 9, ovr := false })]) ∧
      (Rising (wEventAndBell_a.lane 0).pres)) ∧
    ((wEventAndBell_a.runs 0)) ∧
    ((wEventAndBell_a.runs 0) ∧ ((wEventAndBell_a.lane 0).stage.bells < 32) ∧ (wEventAndBell_a.gal.bells[(wEventAndBell_a.lane 0).stage.bells]?
      = none)) ∧
    ((wEventAndBell_f.runs 0) ∧ ((wEventAndBell_f.lane 0).stage.bells < 32) ∧ (wEventAndBell_f.gal.bells[(wEventAndBell_f.lane 0).stage.bells]?
      = some { cut := 100, set := none })) ∧
    ((wEventAndBell_b.runs 0) ∧ ((wEventAndBell_b.lane 0).stage.bells < 32) ∧ (wEventAndBell_b.gal.bells[(wEventAndBell_b.lane 0).stage.bells]?
      = some { cut := 100, set := some [(3, { stamp := 1, ovr := false })] })) ∧
    ((wEventAndBell_c.runs 0) ∧ (32 ≤ (wEventAndBell_c.lane 0).stage.bells)) ∧
    ((wEventAndBell_f.gal.bells[0]? = some { cut := 100, set := none })) := by
  refine ⟨?_, ?_, ?_, ?_, ?_, ?_, ?_, ?_, ?_⟩ <;> decide +kernel

/-! ### FoldResults -/

def wFold_a : State := { wrun [(1, 9#32)] [] with gal := { GalSt.reset with folds := [⟨[(1, 5#32)], 0, some 5#32⟩] } }
def wFold_b : State := wrun [(1, 9#32)] []
def wFold_c : State := { wrun [] [] with laneA := { wlane [(1, 9#32)] [] with stage := { Stage.empty with folds := 64 } } }
def wFold_d : State := { State.reset with gal := { GalSt.reset with folds := [⟨[(0, 5#32), (1, 0xFFFFFFFF#32)], 0, none⟩] }, laneB := { LaneSt.reset with run := true, wait := some (.fold 4 0) } }
def wFold_e0 : State := { wFold_d with gal := { GalSt.reset with folds := [⟨[(0, 5#32), (1, 6#32), (2, 7#32)], 0, none⟩] } }
def wFold_e1 : State := { wFold_d with gal := { GalSt.reset with folds := [⟨[(0, 6#32), (1, 5#32), (2, 7#32)], 0, none⟩] } }
def wFold_e2 : State := { wFold_d with gal := { GalSt.reset with folds := [⟨[(0, 6#32), (1, 7#32), (2, 5#32)], 0, none⟩] } }
def wFold_e3 : State := { wFold_d with gal := { GalSt.reset with folds := [⟨[(0, 5#32), (1, 7#32), (2, 6#32)], 0, none⟩] } }
def wFold_e4 : State := { wFold_d with gal := { GalSt.reset with folds := [⟨[(0, 7#32), (1, 6#32), (2, 5#32)], 0, none⟩] } }
def wFold_e5 : State := { wFold_d with gal := { GalSt.reset with folds := [⟨[(0, 7#32), (1, 5#32), (2, 6#32)], 0, none⟩] } }

/-- States and operands that meet the hypotheses of Obligations.FoldResults, clause by clause. -/
theorem test_witness_fold_results :
    ((wFold_a.runs 0) ∧ ((wFold_a.lane 0).stage.folds < 64) ∧ ((wFold_a.gal.folds.getD (wFold_a.lane 0).stage.folds { subs := [], at' := 0, value := none }).value
      = some 5#32)) ∧
    ((wFold_b.runs 0) ∧ ((wFold_b.lane 0).stage.folds < 64) ∧ ((wFold_b.gal.folds.getD (wFold_b.lane 0).stage.folds { subs := [], at' := 0, value := none }).value
      = none) ∧ ((wFold_b.lane 0).stage.folds ≤ wFold_b.gal.folds.length)) ∧
    ((wFold_c.runs 0) ∧ (64 ≤ (wFold_c.lane 0).stage.folds) ∧ ((wFold_c.lane 0).tc = 0)) ∧
    ((wFold_d.gal.folds[0]? = some { subs := [(0, 5#32), (1, 4294967295#32)], at' := 0, value := none }) ∧ (wFold_d.voters.length ≤ [(0, 5#32),
      (1, 4294967295#32)].length ∨ 0 + 2000 ≤ max wFold_d.now 2000)) ∧
    (((5#32).sle 6#32 = true) ∧ ((6#32).sle 7#32 = true) ∧ (wFold_e0.gal.folds[0]? = some { subs := [(0, 5#32), (1, 6#32), (2, 7#32)], at' := 0, value := none })
      ∧ (wFold_e0.voters.length ≤ [(0, 5#32), (1, 6#32), (2, 7#32)].length ∨ 0 + 2000 ≤ max wFold_e0.now 2000)) ∧
    (((5#32).sle 6#32 = true) ∧ ((6#32).sle 7#32 = true) ∧ (wFold_e1.gal.folds[0]? = some { subs := [(0, 6#32), (1, 5#32), (2, 7#32)], at' := 0, value := none })
      ∧ (wFold_e1.voters.length ≤ [(0, 6#32), (1, 5#32), (2, 7#32)].length ∨ 0 + 2000 ≤ max wFold_e1.now 2000)) ∧
    (((5#32).sle 6#32 = true) ∧ ((6#32).sle 7#32 = true) ∧ (wFold_e2.gal.folds[0]? = some { subs := [(0, 6#32), (1, 7#32), (2, 5#32)], at' := 0, value := none })
      ∧ (wFold_e2.voters.length ≤ [(0, 6#32), (1, 7#32), (2, 5#32)].length ∨ 0 + 2000 ≤ max wFold_e2.now 2000)) ∧
    (((5#32).sle 6#32 = true) ∧ ((6#32).sle 7#32 = true) ∧ (wFold_e3.gal.folds[0]? = some { subs := [(0, 5#32), (1, 7#32), (2, 6#32)], at' := 0, value := none })
      ∧ (wFold_e3.voters.length ≤ [(0, 5#32), (1, 7#32), (2, 6#32)].length ∨ 0 + 2000 ≤ max wFold_e3.now 2000)) ∧
    (((5#32).sle 6#32 = true) ∧ ((6#32).sle 7#32 = true) ∧ (wFold_e4.gal.folds[0]? = some { subs := [(0, 7#32), (1, 6#32), (2, 5#32)], at' := 0, value := none })
      ∧ (wFold_e4.voters.length ≤ [(0, 7#32), (1, 6#32), (2, 5#32)].length ∨ 0 + 2000 ≤ max wFold_e4.now 2000)) ∧
    (((5#32).sle 6#32 = true) ∧ ((6#32).sle 7#32 = true) ∧ (wFold_e5.gal.folds[0]? = some { subs := [(0, 7#32), (1, 5#32), (2, 6#32)], at' := 0, value := none })
      ∧ (wFold_e5.voters.length ≤ [(0, 7#32), (1, 5#32), (2, 6#32)].length ∨ 0 + 2000 ≤ max wFold_e5.now 2000)) := by
  refine ⟨?_, ?_, ?_, ?_, ?_, ?_, ?_, ?_, ?_, ?_⟩ <;> decide +kernel

/-! ### TimeResults -/

def wTime_a : State := { wrun [(1, 9#32)] [] with snap := ⟨[], 5000000123456789, 777⟩ }

/-- States and operands that meet the hypotheses of Obligations.TimeResults, clause by clause. -/
theorem test_witness_time_results :
    ((wTime_a.runs 0) ∧ (8 % 4 = 0) ∧ (4 ≤ 8) ∧ (8 ≤ 28)) ∧
    ((wTime_a.runs 0)) ∧
    ((wTime_a.runs 0) ∧ (8 % 2 = 0) ∧ (2 ≤ 8)) := by
  refine ⟨?_, ?_, ?_⟩ <;> decide +kernel

/-! ### RingResults -/

def wRing_a : State := { wrun [] [] with laneA := { wlane [(1, 0#32), (2, 0x10000100#32), (3, 1#32)] [] with dram := [(0x101, 7)], stage := { Stage.empty with opened := some [], items := 3 } } }
def wRing_b : State := { wRing_a with regs := [(RINGS.RING_HEAD 0, 2#32), (RINGS.RING_HEAD 1, 256#32)], snap := ⟨[(RINGS.RING_HEAD 0, 2#32), (RINGS.RING_HEAD 1, 256#32)], 0, 0⟩ }
def wRing_d : State := wRing_b.setFld (RINGS.RING_CFG_POLICY 1) 1

/-- States and operands that meet the hypotheses of Obligations.RingResults, clause by clause. -/
theorem test_witness_ring_results :
    ((wRing_a.runs 0) ∧ (BitVec.toNat (wRing_a.gv 0 1) < 64) ∧ (wRing_a.flag (RINGS.RING_CFG_EN (BitVec.toNat (wRing_a.gv 0 1))) = true)) ∧
    ((wRing_a.runs 0) ∧ (BitVec.toNat (wRing_a.gv 0 3) < 64) ∧ (wRing_a.flag (RINGS.RING_CFG_EN (BitVec.toNat (wRing_a.gv 0 3))) = true) ∧
      ((wRing_a.lane 0).stage.opened = some []) ∧ ((wRing_a.lane 0).stage.items < 1024) ∧ (BitVec.toNat (wRing_a.gv 0 2) % wRing_a.ringEnt
      (BitVec.toNat (wRing_a.gv 0 3)) = 0) ∧ (268435456 ≤ BitVec.toNat (wRing_a.gv 0 2)) ∧ (BitVec.toNat (wRing_a.gv 0 2) + wRing_a.ringEnt
      (BitVec.toNat (wRing_a.gv 0 3)) ≤ 268697600) ∧ (wRing_a.progProduces (BitVec.toNat (wRing_a.gv 0 3)) = true) ∧ (ringDiff
      ((BitVec.toNat (wRing_a.snapReg (RINGS.RING_HEAD (BitVec.toNat (wRing_a.gv 0 3)))) + ((wRing_a.lane 0).stagedPushes (BitVec.toNat
      (wRing_a.gv 0 3))).length) % 65536) ((BitVec.toNat (wRing_a.snapReg (RINGS.RING_TAIL (BitVec.toNat (wRing_a.gv 0 3)))) + (wRing_a.lane
      0).stagedTail (BitVec.toNat (wRing_a.gv 0 3))) % 65536) < wRing_a.ringSize (BitVec.toNat (wRing_a.gv 0 3)))) ∧
    ((wRing_d.runs 0) ∧ (BitVec.toNat (wRing_d.gv 0 3) < 64) ∧ (wRing_d.flag (RINGS.RING_CFG_EN (BitVec.toNat (wRing_d.gv 0 3))) = true) ∧
      ((wRing_d.lane 0).stage.opened = some []) ∧ ((wRing_d.lane 0).stage.items < 1024) ∧ (BitVec.toNat (wRing_d.gv 0 2) % wRing_d.ringEnt
      (BitVec.toNat (wRing_d.gv 0 3)) = 0) ∧ (268435456 ≤ BitVec.toNat (wRing_d.gv 0 2)) ∧ (BitVec.toNat (wRing_d.gv 0 2) + wRing_d.ringEnt
      (BitVec.toNat (wRing_d.gv 0 3)) ≤ 268697600) ∧ (wRing_d.progProduces (BitVec.toNat (wRing_d.gv 0 3)) = true) ∧ (wRing_d.ringSize
      (BitVec.toNat (wRing_d.gv 0 3)) ≤ ringDiff ((BitVec.toNat (wRing_d.snapReg (RINGS.RING_HEAD (BitVec.toNat (wRing_d.gv 0 3)))) +
      ((wRing_d.lane 0).stagedPushes (BitVec.toNat (wRing_d.gv 0 3))).length) % 65536) ((BitVec.toNat (wRing_d.snapReg (RINGS.RING_TAIL
      (BitVec.toNat (wRing_d.gv 0 3)))) + (wRing_d.lane 0).stagedTail (BitVec.toNat (wRing_d.gv 0 3))) % 65536)) ∧ (wRing_d.fld
      (RINGS.RING_CFG_POLICY (BitVec.toNat (wRing_d.gv 0 3))) = 1)) ∧
    ((wRing_b.runs 0) ∧ (BitVec.toNat (wRing_b.gv 0 3) < 64) ∧ (wRing_b.flag (RINGS.RING_CFG_EN (BitVec.toNat (wRing_b.gv 0 3))) = true) ∧
      ((wRing_b.lane 0).stage.opened = some []) ∧ ((wRing_b.lane 0).stage.items < 1024) ∧ (BitVec.toNat (wRing_b.gv 0 2) % wRing_b.ringEnt
      (BitVec.toNat (wRing_b.gv 0 3)) = 0) ∧ (268435456 ≤ BitVec.toNat (wRing_b.gv 0 2)) ∧ (BitVec.toNat (wRing_b.gv 0 2) + wRing_b.ringEnt
      (BitVec.toNat (wRing_b.gv 0 3)) ≤ 268697600) ∧ (wRing_b.progProduces (BitVec.toNat (wRing_b.gv 0 3)) = true) ∧ (wRing_b.ringSize
      (BitVec.toNat (wRing_b.gv 0 3)) ≤ ringDiff ((BitVec.toNat (wRing_b.snapReg (RINGS.RING_HEAD (BitVec.toNat (wRing_b.gv 0 3)))) +
      ((wRing_b.lane 0).stagedPushes (BitVec.toNat (wRing_b.gv 0 3))).length) % 65536) ((BitVec.toNat (wRing_b.snapReg (RINGS.RING_TAIL
      (BitVec.toNat (wRing_b.gv 0 3)))) + (wRing_b.lane 0).stagedTail (BitVec.toNat (wRing_b.gv 0 3))) % 65536)) ∧ (wRing_b.fld
      (RINGS.RING_CFG_POLICY (BitVec.toNat (wRing_b.gv 0 3))) ≠ 1)) ∧
    ((wRing_b.runs 0) ∧ (BitVec.toNat (wRing_b.gv 0 1) < 64) ∧ (wRing_b.flag (RINGS.RING_CFG_EN (BitVec.toNat (wRing_b.gv 0 1))) = true) ∧
      ((wRing_b.lane 0).stage.opened = some []) ∧ ((wRing_b.lane 0).stage.items < 1024) ∧ (BitVec.toNat (wRing_b.gv 0 2) % wRing_b.ringEnt
      (BitVec.toNat (wRing_b.gv 0 1)) = 0) ∧ (268435456 ≤ BitVec.toNat (wRing_b.gv 0 2)) ∧ (BitVec.toNat (wRing_b.gv 0 2) + wRing_b.ringEnt
      (BitVec.toNat (wRing_b.gv 0 1)) ≤ 268697600) ∧ (wRing_b.progConsumes (BitVec.toNat (wRing_b.gv 0 1)) = true) ∧ (0 < ringDiff
      ((BitVec.toNat (wRing_b.snapReg (RINGS.RING_HEAD (BitVec.toNat (wRing_b.gv 0 1)))) + ((wRing_b.lane 0).stagedPushes (BitVec.toNat
      (wRing_b.gv 0 1))).length) % 65536) ((BitVec.toNat (wRing_b.snapReg (RINGS.RING_TAIL (BitVec.toNat (wRing_b.gv 0 1)))) + (wRing_b.lane
      0).stagedTail (BitVec.toNat (wRing_b.gv 0 1))) % 65536))) ∧
    ((wRing_a.runs 0) ∧ (BitVec.toNat (wRing_a.gv 0 1) < 64) ∧ (wRing_a.flag (RINGS.RING_CFG_EN (BitVec.toNat (wRing_a.gv 0 1))) = true) ∧
      ((wRing_a.lane 0).stage.opened = some []) ∧ ((wRing_a.lane 0).stage.items < 1024) ∧ (BitVec.toNat (wRing_a.gv 0 2) % wRing_a.ringEnt
      (BitVec.toNat (wRing_a.gv 0 1)) = 0) ∧ (268435456 ≤ BitVec.toNat (wRing_a.gv 0 2)) ∧ (BitVec.toNat (wRing_a.gv 0 2) + wRing_a.ringEnt
      (BitVec.toNat (wRing_a.gv 0 1)) ≤ 268697600) ∧ (wRing_a.progConsumes (BitVec.toNat (wRing_a.gv 0 1)) = true) ∧ (ringDiff
      ((BitVec.toNat (wRing_a.snapReg (RINGS.RING_HEAD (BitVec.toNat (wRing_a.gv 0 1)))) + ((wRing_a.lane 0).stagedPushes (BitVec.toNat
      (wRing_a.gv 0 1))).length) % 65536) ((BitVec.toNat (wRing_a.snapReg (RINGS.RING_TAIL (BitVec.toNat (wRing_a.gv 0 1)))) + (wRing_a.lane
      0).stagedTail (BitVec.toNat (wRing_a.gv 0 1))) % 65536) = 0)) := by
  refine ⟨?_, ?_, ?_, ?_, ?_, ?_⟩ <;> decide +kernel

/-! ### StatusResults -/

def wStatus_a : State := { wrun [] [] with laneA := { wlane [(1, 0xFFFFFFFF#32)] [] with sw := 0x00000005#32, tp := 8, tv := 9 } }

/-- States and operands that meet the hypotheses of Obligations.StatusResults, clause by clause. -/
theorem test_witness_status_results :
    ((wStatus_a.runs 0) ∧ ((wStatus_a.lane 0).tc = 0)) ∧
    ((wStatus_a.runs 0)) ∧
    ((wStatus_a.runs 0) ∧ (legalWord 0#32 = false) ∧ ((wStatus_a.lane 0).tc = 0)) := by
  refine ⟨?_, ?_, ?_⟩ <;> decide +kernel

/-! ### EncoderCounts -/

def wEncoderCounts_a : State := wst [(POS.ENC_CFG_EN 2, 1), (POS.ENC_CFG_MODE 2, 0)]
def wEncoderCounts_b : State := wEncoderCounts_a.setEnc 2 { wEncoderCounts_a.enc 2 with a := true }

/-- States and operands that meet the hypotheses of Obligations.EncoderCounts, clause by clause. -/
theorem test_witness_encoder_counts :
    ((10000 ≠ 10000 + wEncoderCounts_b.fld (POS.ENC_CFG_FILT 2) * 10)) ∧
    ((wEncoderCounts_b.flag (POS.ENC_CFG_EN 2) = true) ∧ ((wEncoderCounts_b.enc 2).a = false ∧ (wEncoderCounts_b.enc 2).b ≠ false ∨
      (wEncoderCounts_b.enc 2).a ≠ false ∧ (wEncoderCounts_b.enc 2).b = false) ∧ (10010 = 10000 + wEncoderCounts_b.fld (POS.ENC_CFG_FILT 2)
      * 10) ∧ ((wEncoderCounts_b.enc 2).enAt ≤ 10000)) := by
  refine ⟨?_, ?_⟩ <;> decide +kernel

/-! ### IllegalTransition -/

def wIllegalTransition_a : State := wst [(POS.ENC_CFG_EN 2, 1), (POS.ENC_CFG_MODE 2, 0)]
def wIllegalTransition_b : State := wIllegalTransition_a.setEnc 2 { wIllegalTransition_a.enc 2 with a := true }
def wIllegalTransition_d : State := wIllegalTransition_b.setFld (POS.ENC_STS_LOSS_NOW 2) 1

/-- States and operands that meet the hypotheses of Obligations.IllegalTransition, clause by clause. -/
theorem test_witness_illegal_transition :
    ((wIllegalTransition_d.flag (POS.ENC_CFG_EN 2) = true) ∧ ((wIllegalTransition_d.enc 2).a ≠ false) ∧ ((wIllegalTransition_d.enc 2).b ≠ true)
      ∧ (10010 = 10000 + wIllegalTransition_d.fld (POS.ENC_CFG_FILT 2) * 10) ∧ ((wIllegalTransition_d.enc 2).enAt ≤ 10000) ∧
      ((wIllegalTransition_d.atTime 10010).lossNow 2 = true)) ∧
    ((wIllegalTransition_b.flag (POS.ENC_CFG_EN 2) = true) ∧ ((wIllegalTransition_b.enc 2).a ≠ false) ∧ ((wIllegalTransition_b.enc 2).b ≠ true)
      ∧ (10010 = 10000 + wIllegalTransition_b.fld (POS.ENC_CFG_FILT 2) * 10) ∧ ((wIllegalTransition_b.enc 2).enAt ≤ 10000) ∧
      ((wIllegalTransition_b.atTime 10010).lossNow 2 = false)) := by
  refine ⟨?_, ?_⟩ <;> decide +kernel

/-! ### PositionInputEvents -/

def wPositionInput_a : State := wst [(POS.ENC_CFG_EN 2, 1), (POS.ENC_CFG_LOSS_EN 2, 1), (POS.ENC_CFG_Z_MODE 2, 1), (POS.DM_CFG_EN 3, 1),
  (POS.DM_CFG_FILT 3, 2), (FIELD.CH_STS_VALID 35, 1), (POS.SSI_CFG_EN 0, 1), (POS.SSI_CFG_BITS 0, 20), (POS.SSI_CFG_CLKDIV 0, 99),
  (POS.FUS_SRC_TYPE 1, 3), (POS.FUS_SRC_INPUT 1, 0)]
def wPositionInput_b : State := wrg (wPositionInput_a.setFld (POS.ENC_STS_LOSS_NOW 2) 1) [(POS.ENC_CNT_LO 2, 77), (POS.FUS_STS, 0)]
def wPositionInput_c : State := (wPositionInput_a.setFld (POS.SSI_CFG_BITS 0) 40).setSsi 0 { SsiSt.reset with ends := some 500000 }
def wPositionInput_d : State := (wrg (wst [(POS.FUS_SRC_TYPE 1, 3), (POS.FUS_SRC_INPUT 1, 0)]) [(POS.FUS_STS, 0)]).setSsi 0 { SsiSt.reset with bad := 4 }
def wPositionInput_g : State := wPositionInput_a.setFld (POS.DM_CFG_EN 3) 0

/-- States and operands that meet the hypotheses of Obligations.PositionInputEvents, clause by clause. -/
theorem test_witness_position_input_events :
    ((wPositionInput_a.flag (POS.ENC_CFG_EN 2) = true) ∧ (wPositionInput_a.flag (POS.ENC_CFG_LOSS_EN 2) = true) ∧ (wPositionInput_a.flag
      (POS.ENC_STS_LOSS_NOW 2) = false) ∧ (0 < 2 ∨ wPositionInput_a.fld (POS.ENC_CFG_Z_MODE 2) ≠ 0)) ∧
    ((wPositionInput_b.flag (POS.ENC_STS_LOSS_NOW 2) = true)) ∧
    ((wPositionInput_a.flag (POS.ENC_CFG_EN 2) = true) ∧ (wPositionInput_a.fld (POS.ENC_CFG_Z_MODE 2) = 1) ∧ (10100 = 10090 +
      wPositionInput_a.fld (POS.ENC_CFG_FILT 2) * 10) ∧ ((wPositionInput_a.enc 2).enAt ≤ 10090)) ∧
    ((wPositionInput_a.flag (FIELD.CH_STS_VALID (32 + 3)) = true) ∧ (5 + wPositionInput_a.fld (POS.DM_CFG_FILT 3) * 5000 ≤
      (wPositionInput_a.atTime 10100).now) ∧ ((wPositionInput_a.atTime 10100).now ≤ 5 + wPositionInput_a.fld (POS.DM_CFG_FILT 3) * 5000 +
      2000) ∧ (wPositionInput_a.flag (POS.DM_CFG_EN 3) = true)) ∧
    ((wPositionInput_g.flag (FIELD.CH_STS_VALID (32 + 3)) = true) ∧ (5 + wPositionInput_g.fld (POS.DM_CFG_FILT 3) * 5000 ≤
      (wPositionInput_g.atTime 10100).now) ∧ ((wPositionInput_g.atTime 10100).now ≤ 5 + wPositionInput_g.fld (POS.DM_CFG_FILT 3) * 5000 +
      2000) ∧ (wPositionInput_g.flag (POS.DM_CFG_EN 3) = false)) ∧
    ((wPositionInput_a.flag (POS.SSI_CFG_EN 0) = true) ∧ (wPositionInput_a.ssiDue 0 ((wPositionInput_a.atTime (31250 * 64 - 2000 - 21000)).now +
      wPositionInput_a.ssiFrame 0 + 2000) = true)) ∧
    ((wPositionInput_c.flag (POS.SSI_CFG_EN 0) = true) ∧ ((wPositionInput_c.ssi 0).ends = some (wPositionInput_c.atTime 500000).now) ∧
      (wPositionInput_c.fld (POS.SSI_CFG_PAR 0) = 0) ∧ (wPositionInput_c.fld (POS.SSI_CFG_STAT_BITS 0) = 0) ∧ (wPositionInput_c.flag
      (POS.SSI_CFG_DBL 0) = false) ∧ (wPositionInput_c.flag (POS.SSI_CFG_CODE 0) = false)) ∧
    ((wPositionInput_c.flag (POS.SSI_CFG_EN 0) = true) ∧ ((wPositionInput_c.ssi 0).ends = some (wPositionInput_c.atTime 500000).now) ∧
      (wPositionInput_c.fld (POS.SSI_CFG_PAR 0) = 0) ∧ (wPositionInput_c.fld (POS.SSI_CFG_STAT_BITS 0) = 0) ∧ (wPositionInput_c.flag
      (POS.SSI_CFG_DBL 0) = false) ∧ (wPositionInput_c.flag (POS.SSI_CFG_CODE 0) = false) ∧ ((wPositionInput_c.ssi 0).bad < 3)) ∧
    ((4 ≤ (wPositionInput_d.ssi 0).bad) ∧ (wPositionInput_d.slotOf 3 = some 1) ∧ (wPositionInput_d.fld (POS.FUS_SRC_INPUT 1) = 0) ∧
      (wPositionInput_d.health 1 = 0 ∨ wPositionInput_d.health 1 = 1)) := by
  refine ⟨?_, ?_, ?_, ?_, ?_, ?_, ?_, ?_, ?_⟩ <;> decide +kernel

/-! ### PosTimedEvents -/

def wPosTimed_a : State := wst [(POS.FUS_STS_STATE, 3), (POS.CKPT_CFG_STILL_V, 5), (POS.FUS_STS_MOVING, 1), (POS.MAP_STS_SAVE, 1)]
def wPosTimed_b : State := { wPosTimed_a with pos := { wPosTimed_a.pos with ckptBusy := some (List.replicate 32 7), saveImg := some (List.replicate 8256 3) } }

set_option maxRecDepth 100000 in
/-- States and operands that meet the hypotheses of Obligations.PosTimedEvents, clause by clause. -/
theorem test_witness_pos_timed_events :
    ((wPosTimed_a.posState ≠ 0) ∧ ((wPosTimed_a.atTime 1000000000000).stillHeld wPosTimed_a.pos.still = true) ∧ (wPosTimed_a.moving = true) ∧
      (wPosTimed_a.mot.levelTgt = none)) ∧
    ((wPosTimed_b.pos.ckptBusy = some (List.replicate 32 7))) ∧
    ((wPosTimed_b.pos.saveImg = some (List.replicate 8256 3)) ∧ ((List.replicate 8256 3).length = 8256)) := by
  refine ⟨?_, ?_, ?_⟩ <;> decide +kernel

/-! ### PositionCommits -/

def wPosition_a : State := wst [(POS.ENC_STS_Z_SEEN 2, 1), (POS.ENC_STS_LOSS 2, 1), (POS.ENC_STS_ILLEGAL 2, 1), (POS.ENC_STS_IDX_ERR 2, 1),
  (POS.SSI_CFG_BITS 0, 20), (POS.SSI_CFG_CLKDIV 0, 24), (POS.SSI_STS_LINE 0, 1), (POS.SSI_STS_STALE 0, 1), (POS.CMP_STS_BEHIND 4, 1)]
def wPosition_b : State := wrg wPosition_a [(POS.ENC_ERRCNT 2, 0x10002), (POS.SSI_ERRCNT 0, 7), (POS.CMP_POS_LO 4, 12345), (POS.CMP_POS_LO 4
  + 4, 0xFFFFFFFF)]
def wPosition_d : State := (wPosition_b.setEnc 2 { EncSt.reset with zAt := some (0, true) })
def wPosition_e : State := ((wPosition_b.setFld (POS.ENC_CFG_EN 2) 1).setFld (POS.ENC_CFG_Z_MODE 2) 2).setEnc 2 { EncSt.reset with zAt := some (0, false) }

/-- States and operands that meet the hypotheses of Obligations.PositionCommits, clause by clause. -/
theorem test_witness_position_commits :
    ((Option.map (fun x => x.fst) (wPosition_a.enc 2).zAt ≠ some wPosition_a.now)) ∧
    (((wPosition_d.enc 2).zAt = some (wPosition_d.now, true))) ∧
    (((wPosition_e.enc 2).zAt = some (wPosition_e.now, false)) ∧ (wPosition_e.flag (POS.ENC_CFG_EN 2) = true) ∧ (wPosition_e.fld
      (POS.ENC_CFG_Z_MODE 2) = 2)) ∧
    ((wPosition_a.moving = false)) ∧
    ((wPosition_a.moving = false) ∧ (true = false ∨ wPosition_a.ssiFits 0 = true)) ∧
    ((wPosition_a.flag (POS.CMP_CFG_AUTO 4) = false) ∧ (wPosition_a.flag (POS.CMP_CFG_EN 4) = false)) ∧
    ((wPosition_a.flag (POS.CMP_CFG_AUTO 4) = false)) := by
  refine ⟨?_, ?_, ?_, ?_, ?_, ?_, ?_⟩ <;> decide +kernel

/-! ### FusionCommits -/

def wFusion_a : State := wrg (wst [(POS.FUS_SRC_TYPE 0, 1), (⟨POS.FUS_STS, 20, 8⟩, 0), (POS.FUS_STS_STATE, 3), (POS.CKPT_STS_MIS, 1),
  (POS.FUS_STS_SLIP, 1)]) [(POS.FUS_SCALE 0, 0x10000), (POS.FUS_SCALE 1, 0x10000)]

/-- States and operands that meet the hypotheses of Obligations.FusionCommits, clause by clause. -/
theorem test_witness_fusion_commits :
    ((wFusion_a.moving = false) ∧ (∀ (i : Nat), i < 4 → bitsOf (BitVec.toNat ([257#32, 768#32, 0#32, 0#32].getD i 0)) 8 3 = 0 ∨ bitsOf
      (BitVec.toNat ([257#32, 768#32, 0#32, 0#32].getD i 0)) 8 3 ≤ 2 ∧ bitsOf (BitVec.toNat ([257#32, 768#32, 0#32, 0#32].getD i 0)) 0 4 ≤ 5
      ∨ bitsOf (BitVec.toNat ([257#32, 768#32, 0#32, 0#32].getD i 0)) 8 3 = 3 ∧ bitsOf (BitVec.toNat ([257#32, 768#32, 0#32, 0#32].getD i
      0)) 0 4 ≤ 1 ∨ bitsOf (BitVec.toNat ([257#32, 768#32, 0#32, 0#32].getD i 0)) 8 3 = 4 ∧ bitsOf (BitVec.toNat ([257#32, 768#32, 0#32,
      0#32].getD i 0)) 0 4 = 0) ∧ (∀ (t : Nat), t < 8 → 1 ≤ t → List.count t (List.map (fun w => bitsOf (BitVec.toNat w) 8 3) [257#32,
      768#32, 0#32, 0#32]) ≤ 1) ∧ (((List.map (fun w => bitsOf (BitVec.toNat w) 8 3) [257#32, 768#32, 0#32, 0#32]).any fun t => decide (1 <
      t)) = true → 1 ∈ List.map (fun w => bitsOf (BitVec.toNat w) 8 3) [257#32, 768#32, 0#32, 0#32]) ∧ (∀ (i : Nat), i < 4 → bitsOf
      (BitVec.toNat ([257#32, 768#32, 0#32, 0#32].getD i 0)) 8 3 ≠ 0 → 256 ≤ wFusion_a.regN (POS.FUS_SCALE i))) ∧
    ((wFusion_a.posState = 3)) := by
  refine ⟨?_, ?_⟩ <;> decide +kernel

/-! ### MapAndLearnCommits -/

def wMapAndLearn_a : State := wst [(SYS.MODE_MODE, 4), (POS.MAP_SEL_INDEX, 2), (SYS.CAPS_MAX_LANDING, 63)]
def wMapAndLearn_b : State := wrg ((wst [(SYS.MODE_MODE, 4), (POS.MAP_STS_LANDINGS, 1), (POS.MAP_STS_VALID, 1), (POS.LEARN_CFG_EXPECT, 1),
  (POS.LEARN_STS_STATE, 3)])) []
def wMapAndLearn_c : State := { wMapAndLearn_b with pos := { wMapAndLearn_b.pos with learn := [⟨0, 4, true, 0, false, false⟩, ⟨0, 2, true, 65536, false, false⟩, ⟨0, 1, true, 131072, false, false⟩, ⟨0, 2, false, 196608, false, false⟩, ⟨0, 5, true, 262144, false, false⟩] } }
def wMapAndLearn_d : State := wMapAndLearn_b.setFld POS.LEARN_STS_STATE 1
def wMapAndLearn_e : State := { wMapAndLearn_b with pos := { wMapAndLearn_b.pos with learnSaved := true, wmap := [(2, 5#32), (4, 9#32), (6, 5#32), (8, 9#32)] } }

/-- States and operands that meet the hypotheses of Obligations.MapAndLearnCommits, clause by clause. -/
theorem test_witness_map_and_learn_commits :
    ((wMapAndLearn_a.mode = 4 ∨ wMapAndLearn_a.mode = 5) ∧ (3 ≠ 15)) ∧
    ((wMapAndLearn_a.mode = 4 ∨ wMapAndLearn_a.mode = 5) ∧ (1 ≤ 2) ∧ (2 ≤ 128) ∧ (2 ≤ wMapAndLearn_a.fld SYS.CAPS_MAX_LANDING + 1)) ∧
    ((wMapAndLearn_e.mode = 4 ∨ wMapAndLearn_e.mode = 5) ∧ (wMapAndLearn_e.fld POS.MAP_STS_SAVE ≠ 1) ∧ (1 ≤ wMapAndLearn_e.landings) ∧
      (wMapAndLearn_e.landings ≤ wMapAndLearn_e.fld SYS.CAPS_MAX_LANDING + 1) ∧ (∀ (i : Nat), i < wMapAndLearn_e.landings - 1 →
      wMapAndLearn_e.mapPos i 0 + 500000 ≤ wMapAndLearn_e.mapPos (i + 1) 0) ∧ (∀ (i : Nat), i < wMapAndLearn_e.landings →
      wMapAndLearn_e.mapPos i 8 < wMapAndLearn_e.mapPos i 16 ∧ wMapAndLearn_e.mapPos i 24 < wMapAndLearn_e.mapPos i 32)) ∧
    ((wMapAndLearn_b.mode = 4 ∨ wMapAndLearn_b.mode = 5) ∧ (wMapAndLearn_b.fld POS.MAP_STS_SAVE ≠ 1) ∧ (1 ≤ wMapAndLearn_b.landings) ∧
      (wMapAndLearn_b.landings ≤ wMapAndLearn_b.fld SYS.CAPS_MAX_LANDING + 1) ∧ (∃ i, i < wMapAndLearn_b.landings ∧ wMapAndLearn_b.mapPos i
      16 ≤ wMapAndLearn_b.mapPos i 8)) ∧
    ((wMapAndLearn_b.mode = 4 ∨ wMapAndLearn_b.mode = 5) ∧ (wMapAndLearn_b.flag POS.MAP_STS_VALID = true)) ∧
    ((wMapAndLearn_a.mode = 4)) ∧
    ((wMapAndLearn_b.mode = 4) ∧ (wMapAndLearn_b.fld POS.LEARN_STS_STATE = 3)) ∧
    ((wMapAndLearn_c.mode = 4) ∧ (wMapAndLearn_c.fld POS.LEARN_STS_STATE = 3) ∧ (0 < 131072) ∧ (131072 < 262144) ∧ (65536 ≤ 131072) ∧ (131072 ≤
      196608) ∧ (wMapAndLearn_c.fld POS.LEARN_CFG_EXPECT = 1) ∧ (wMapAndLearn_c.pos.learn = [{ d := 0, role := 4, active := true, pos := 0, down := false, fast := false },
      { d := 0, role := 2, active := true, pos := 65536, down := false, fast := false }, { d := 0, role := 1, active := true, pos := 131072, down := false, fast := false },
      { d := 0, role := 2, active := false, pos := 196608, down := false, fast := false }, { d := 0, role := 5, active := true, pos := 262144, down := false, fast := false }])) ∧
    ((wMapAndLearn_b.mode = 4) ∧ (wMapAndLearn_b.fld POS.LEARN_STS_STATE = 3) ∧ (wMapAndLearn_b.pos.learn = []) ∧ (wMapAndLearn_b.fld
      POS.LEARN_CFG_EXPECT ≠ 0)) ∧
    ((wMapAndLearn_d.mode = 4) ∧ (wMapAndLearn_d.fld POS.LEARN_STS_STATE = 1 ∨ wMapAndLearn_d.fld POS.LEARN_STS_STATE = 2)) ∧
    ((wMapAndLearn_b.mode = 4) ∧ (wMapAndLearn_b.fld POS.LEARN_STS_STATE ≠ 0) ∧ (wMapAndLearn_b.pos.learnSaved = false)) ∧
    ((wMapAndLearn_e.mode = 4) ∧ (wMapAndLearn_e.pos.learnSaved = true)) := by
  refine ⟨?_, ?_, ?_, ?_, ?_, ?_, ?_, ?_, ?_, ?_, ?_, ?_⟩ <;> decide +kernel

/-! ### AxisCommits -/

def wAxis_a : State := wrg (wst [(SYS.MODE_MODE, 5), (MOTION.AX_STS_STATE 1, 1)]) [(MOTION.AX_VMAX 1, 2000000), (MOTION.AX_AMAX 1, 1000000),
  (MOTION.AX_JMAX 1, 1000000), (MOTION.MQ_V 1, 1000000), (MOTION.MQ_A 1, 500000), (MOTION.MQ_D 1, 500000), (MOTION.MQ_J 1, 1000000),
  (MOTION.MQ_TGT_LO 1, 5000000), (MOTION.REV_TGT_LO 1, 5), (MOTION.REV_V 1, 5), (MOTION.REV_D 1, 5), (MOTION.AX_FLAGS 1, 0x7F)]
def wAxis_d : State := wAxis_a.setAx 1 { AxSt.reset with queue := [⟨0, 7, 5, 5, 5, 5, 3, false, 0⟩] }

/-- States and operands that meet the hypotheses of Obligations.AxisCommits, clause by clause. -/
theorem test_witness_axis_commits :
    ((wAxis_a.axSoon 1 = 1) ∧ (1 ≠ 0) ∧ ((wAxis_a.window 1).mode ≤ 2) ∧ ((wAxis_a.effOf 1 (wAxis_a.window 1)).fst.v ≠ 0) ∧ ((wAxis_a.effOf 1
      (wAxis_a.window 1)).fst.a ≠ 0) ∧ ((wAxis_a.effOf 1 (wAxis_a.window 1)).fst.d ≠ 0) ∧ ((wAxis_a.effOf 1 (wAxis_a.window 1)).fst.j ≠ 0) ∧
      ((wAxis_a.queueSoon 1).length < 16)) ∧
    ((wAxis_d.axState 1 = 1) ∧ ((wAxis_d.ax 1).exec = none)) ∧
    ((1 ≠ 0) ∧ (wAxis_a.pos48 (MOTION.REV_TGT_LO 1) ≠ 0) ∧ (wAxis_a.regN (MOTION.REV_V 1) ≠ 0) ∧ (wAxis_a.regN (MOTION.REV_D 1) ≠ 0)) ∧
    ((1 ≠ 0)) := by
  refine ⟨?_, ?_, ?_, ?_⟩ <;> decide +kernel

/-! ### AxisStateCommits -/

def wAxisState_a : State := wrg (wst [(SYS.MODE_MODE, 4), (MOTION.AX_STS_STATE 1, 0)]) [(MOTION.AX_VMAX 1, 2000000), (MOTION.AX_AMAX 1,
  1000000), (MOTION.AX_JMAX 1, 1000000), (MOTION.AX_QS_D 1, 5), (MOTION.AX_QS_J 1, 7)]
def wAxisState_b : State := wAxisState_a.setFld (MOTION.AX_STS_STATE 1) 7
def wAxisState_c : State := wrg ((((wAxisState_a.setFld (MOTION.AX_STS_STATE 1) 1).setFld (MOTION.HOME_CFG_METHOD 1) 1).setFld
  (MOTION.HOME_V_V1 1) 10).setFld (MOTION.HOME_V_V2 1) 5) [(MOTION.HOME_MAXD 1, 1000)]
def wAxisState_d : State := wst [(MOTION.AX_STS_STATE 3, 1), (MOTION.AX_CFG_EN 3, 1)]
def wAxisState_e : State := wst [(MOTION.AX_STS_STATE 3, 5), (MOTION.GEAR_CFG_EN, 1), (MOTION.GEAR_STS_ENGAGED, 1)]

/-- States and operands that meet the hypotheses of Obligations.AxisStateCommits, clause by clause. -/
theorem test_witness_axis_state_commits :
    ((4 ≤ wAxisState_a.mode) ∧ (∀ (k : Nat), k ∈ [MOTION.AX_VMAX 1, MOTION.AX_AMAX 1, MOTION.AX_JMAX 1, MOTION.AX_QS_D 1, MOTION.AX_QS_J 1] →
      wAxisState_a.regN k ≠ 0)) ∧
    ((wAxisState_b.axState 1 = 7) ∧ ((wAxisState_b.ax 1).prof.segs = [])) ∧
    ((wAxisState_a.axState 1 = 0)) ∧
    ((wAxisState_a.axState 1 = 0 ∨ wAxisState_a.axState 1 = 7)) ∧
    ((wAxisState_c.axState 1 ≠ 0) ∧ (wAxisState_c.axState 1 ≠ 7)) ∧
    ((wAxisState_b.axState 1 = 7)) ∧
    ((wAxisState_c.fld (MOTION.HOME_CFG_METHOD 1) ≠ 0)) ∧
    ((1 ≠ 0) ∧ (wAxisState_c.axSoon 1 = 1) ∧ (wAxisState_c.fld (MOTION.HOME_CFG_METHOD 1) = 1) ∧ (wAxisState_c.regN (MOTION.HOME_MAXD 1) ≠ 0) ∧
      (0 < wAxisState_c.fld (MOTION.HOME_V_V1 1) * 1000) ∧ (wAxisState_c.fld (MOTION.HOME_V_V1 1) * 1000 ≤ wAxisState_c.regN (MOTION.AX_VMAX
      1)) ∧ (0 < wAxisState_c.fld (MOTION.HOME_V_V2 1) * 1000) ∧ (wAxisState_c.fld (MOTION.HOME_V_V2 1) * 1000 ≤ wAxisState_c.regN
      (MOTION.AX_VMAX 1))) ∧
    ((wAxisState_d.axSoon 3 = 1) ∧ (8 ≤ (wAxisState_d.enc (wAxisState_d.fld MOTION.GEAR_CFG_MASTER)).quiet)) ∧
    ((wAxisState_d.axState 3 = 1)) ∧
    ((wAxisState_e.axState 3 = 5)) := by
  refine ⟨?_, ?_, ?_, ?_, ?_, ?_, ?_, ?_, ?_, ?_, ?_⟩ <;> decide +kernel

/-! ### MotionEvents -/

def wMotion_a : State := (wrg (wst [(MOTION.AX_STS_STATE 1, 1), (MOTION.AX_CFG_FERR_EN 1, 1)]) [(MOTION.AX_FERR_MAX 1, 5), (MOTION.FERR 1,
  0xFFFFFFF0)]).setAx 1 { AxSt.reset with ferr := 4 }
def wMotion_b : State := (wst [(MOTION.AX_STS_STATE 1, 3), (MOTION.HOME_CFG_METHOD 1, 2), (MOTION.HOME_CFG_EXP_CH 1, 9), (FIELD.CH_STS_VALID
  9, 1), (MOTION.HOME_STS_STEP 1, 1)]).setAx 1 { AxSt.reset with spHist := [(0, 65536 * 70000, 0), (31250, 65536 * 80000, 0)] }
def wMotion_c : State := wst [(MOTION.AX_STS_STATE 0, 1), (MOTION.RELEV_CFG_EN, 1), (POS.ZONE_STS_ZF, 1)]
def wMotion_d : State := { wMotion_c with pos := { wMotion_c.pos with x := 65536 * 100000 }, mot := { wMotion_c.mot with relSince := some 0 } }
def wMotion_e : State := wMotion_b.setAx 1 { wMotion_b.ax 1 with home := { wMotion_b.ax 1 |>.home with since := 60 } }
def wMotion_f : State := wMotion_b.setAx 1 { wMotion_b.ax 1 with home := { wMotion_b.ax 1 |>.home with latch := some 40 } }

/-- States and operands that meet the hypotheses of Obligations.MotionEvents, clause by clause. -/
theorem test_witness_motion_events :
    ((wMotion_a.ferrOver 1 = true) ∧ (4 ≤ (wMotion_a.ax 1).ferr) ∧ (wMotion_a.axState 1 ≠ 0) ∧ (wMotion_a.axState 1 ≠ 7) ∧ (wMotion_a.axState 1
      ≠ 3)) ∧
    ((wMotion_b.flag (FIELD.CH_STS_VALID 9) = true)) ∧
    ((wMotion_b.axState 1 = 3) ∧ (wMotion_b.fld (MOTION.HOME_CFG_METHOD 1) = 2) ∧ (wMotion_b.fld (MOTION.HOME_STS_STEP 1) = 1) ∧ ((wMotion_b.ax
      1).home.edge = none) ∧ ((wMotion_b.ax 1).home.stopping = false) ∧ (wMotion_b.fld (MOTION.HOME_CFG_EXP_CH 1) = 9) ∧ (wMotion_b.flag
      (MOTION.HOME_CFG_EXP_POL 1) = false) ∧ (wMotion_b.flag (MOTION.HOME_CFG_OPP_EN 1) = false) ∧ ((wMotion_b.ax 1).home.latch = none) ∧
      ((wMotion_b.ax 1).home.since < 55)) ∧
    ((wMotion_e.axState 1 = 3) ∧ (wMotion_e.fld (MOTION.HOME_CFG_METHOD 1) = 2) ∧ (wMotion_e.fld (MOTION.HOME_STS_STEP 1) = 1) ∧ ((wMotion_e.ax
      1).home.edge = none) ∧ ((wMotion_e.ax 1).home.stopping = false) ∧ (wMotion_e.fld (MOTION.HOME_CFG_EXP_CH 1) = 9) ∧ (wMotion_e.flag
      (MOTION.HOME_CFG_EXP_POL 1) = false) ∧ (wMotion_e.flag (MOTION.HOME_CFG_OPP_EN 1) = false) ∧ ((wMotion_e.ax 1).home.latch = none) ∧
      (55 ≤ (wMotion_e.ax 1).home.since)) ∧
    ((wMotion_f.axState 1 = 3) ∧ (wMotion_f.fld (MOTION.HOME_CFG_METHOD 1) = 2) ∧ (wMotion_f.fld (MOTION.HOME_STS_STEP 1) = 1) ∧ ((wMotion_f.ax
      1).home.edge = none) ∧ ((wMotion_f.ax 1).home.stopping = false) ∧ (wMotion_f.fld (MOTION.HOME_CFG_EXP_CH 1) = 9) ∧ (wMotion_f.flag
      (MOTION.HOME_CFG_EXP_POL 1) = false) ∧ (wMotion_f.flag (MOTION.HOME_CFG_OPP_EN 1) = false) ∧ ((wMotion_f.ax 1).home.latch = some 40) ∧
      (40 < 55) ∧ (55 ≤ 40 + 50000000)) ∧
    ((wMotion_d.relevOff = true) ∧ ((wMotion_d.atTime 10000000000).relevLong = true) ∧ (wMotion_d.mot.relDone = false)) := by
  refine ⟨?_, ?_, ?_, ?_, ?_, ?_⟩ <;> decide +kernel

/-! ### TideVerdicts -/

def wTideVerdicts_a : State := { State.reset with sys := { SysSt.reset with phase := 2, up := true }, img := { ImgSt.none with valid := true }, gal := { GalSt.reset with started := true, edge := ⟨0, 1000000, 1000000, 20000, false, 3⟩ }, laneA := { LaneSt.reset with run := true, stage := { Stage.empty with done := true, elems := [⟨1, 0, 0, 0, 0, 0⟩], closed := [(0, [Item.idle 0 3])] } }, laneB := { LaneSt.reset with run := true, stage := { Stage.empty with done := true, elems := [⟨1, 0, 0, 0, 0, 0⟩], closed := [(0, [Item.idle 0 3])] } }, laneC := { LaneSt.reset with run := true, stage := { Stage.empty with done := true, elems := [⟨1, 0, 0, 0, 0, 0⟩], closed := [(0, [Item.idle 0 3])] } } }
def wTideVerdicts_d : State := { wTideVerdicts_a with laneB := { wTideVerdicts_a.laneC with stage := { Stage.empty with done := true } } }
def wTideVerdicts_e : State := { wTideVerdicts_d with laneA := { wTideVerdicts_a.laneA with stage := { Stage.empty with done := true, elems := [⟨2, 0, 0, 0, 0, 0⟩] } } }
def wTideVerdicts_q1 : State := wTideVerdicts_a.setFld (GALLERY.LANE_STS_STATE 2) 3
def wTideVerdicts_q2 : State := wTideVerdicts_e.setFld (GALLERY.LANE_STS_STATE 2) 3
def wTideVerdicts_n1 : State := { wTideVerdicts_a with laneB := { wTideVerdicts_a.laneB with stage := Stage.empty } }
def wTideVerdicts_n2 : State := { wTideVerdicts_n1 with laneC := { wTideVerdicts_a.laneC with stage := Stage.empty } }
def wTideVerdicts_q3 : State := wTideVerdicts_n1.setFld (GALLERY.LANE_STS_STATE 2) 3
def wTideVerdicts_n3 : State := { wTideVerdicts_a with laneC := { wTideVerdicts_a.laneC with stage := Stage.empty } }
def wTideVerdicts_n4 : State := { wTideVerdicts_e with laneC := { wTideVerdicts_a.laneC with stage := Stage.empty } }

/-- States and operands that meet the hypotheses of Obligations.TideVerdicts, clause by clause. -/
theorem test_witness_tide_verdicts :
    (((wTideVerdicts_a.atTime 980000).now = 980000) ∧ ((wTideVerdicts_a.atTime 980000).edgeDue wTideVerdicts_a.gal.edge.guard = true) ∧
      (wTideVerdicts_a.tideRuns = true) ∧ (wTideVerdicts_a.gal.verdict = none) ∧ (wTideVerdicts_a.gal.started = true) ∧
      (wTideVerdicts_a.recipient = none) ∧ (∀ (l : Lane), wTideVerdicts_a.laneState ↑l ≤ 2 ∧ (wTideVerdicts_a.lane ↑l).stage.done = true)) ∧
    (((wTideVerdicts_n3.atTime 980000).now = 980000) ∧ ((wTideVerdicts_n3.atTime 980000).edgeDue wTideVerdicts_n3.gal.edge.guard = true) ∧
      (wTideVerdicts_n3.tideRuns = true) ∧ (wTideVerdicts_n3.gal.verdict = none) ∧ (wTideVerdicts_n3.gal.started = true) ∧
      (wTideVerdicts_n3.recipient = none) ∧ (0 < 1) ∧ (2 ≠ 0) ∧ (2 ≠ 1) ∧ (wTideVerdicts_n3.laneState 0 ≤ 2) ∧ (wTideVerdicts_n3.laneState 1
      ≤ 2) ∧ ((wTideVerdicts_n3.lane 0).stage.done = true) ∧ (wTideVerdicts_n3.laneState 2 ≤ 2) ∧ ((wTideVerdicts_n3.lane 2).stage.done =
      false) ∧ ((wTideVerdicts_n3.lane 1).stage.done = true) ∧ ((wTideVerdicts_n3.lane 0).digest = (wTideVerdicts_n3.lane 1).digest) ∧
      (false = false)) ∧
    (((wTideVerdicts_n4.atTime 980000).now = 980000) ∧ ((wTideVerdicts_n4.atTime 980000).edgeDue wTideVerdicts_n4.gal.edge.guard = true) ∧
      (wTideVerdicts_n4.tideRuns = true) ∧ (wTideVerdicts_n4.gal.verdict = none) ∧ (wTideVerdicts_n4.gal.started = true) ∧
      (wTideVerdicts_n4.recipient = none) ∧ (0 < 1) ∧ (2 ≠ 0) ∧ (2 ≠ 1) ∧ (wTideVerdicts_n4.laneState 0 ≤ 2) ∧ (wTideVerdicts_n4.laneState 1
      ≤ 2) ∧ ((wTideVerdicts_n4.lane 0).stage.done = true) ∧ (wTideVerdicts_n4.laneState 2 ≤ 2) ∧ ((wTideVerdicts_n4.lane 2).stage.done =
      false) ∧ ((wTideVerdicts_n4.lane 1).stage.done = true) ∧ ((wTideVerdicts_n4.lane 0).digest ≠ (wTideVerdicts_n4.lane 1).digest)) ∧
    (((wTideVerdicts_n2.atTime 980000).now = 980000) ∧ ((wTideVerdicts_n2.atTime 980000).edgeDue wTideVerdicts_n2.gal.edge.guard = true) ∧
      (wTideVerdicts_n2.tideRuns = true) ∧ (wTideVerdicts_n2.gal.verdict = none) ∧ (wTideVerdicts_n2.gal.started = true) ∧
      (wTideVerdicts_n2.recipient = none) ∧ (0 < 1) ∧ (2 ≠ 0) ∧ (2 ≠ 1) ∧ (wTideVerdicts_n2.laneState 0 ≤ 2) ∧ (wTideVerdicts_n2.laneState 1
      ≤ 2) ∧ ((wTideVerdicts_n2.lane 0).stage.done = true) ∧ (wTideVerdicts_n2.laneState 2 ≤ 2) ∧ ((wTideVerdicts_n2.lane 2).stage.done =
      false) ∧ ((wTideVerdicts_n2.lane 1).stage.done = false)) ∧
    (((wTideVerdicts_q1.atTime 980000).now = 980000) ∧ ((wTideVerdicts_q1.atTime 980000).edgeDue wTideVerdicts_q1.gal.edge.guard = true) ∧
      (wTideVerdicts_q1.tideRuns = true) ∧ (wTideVerdicts_q1.gal.verdict = none) ∧ (wTideVerdicts_q1.gal.started = true) ∧
      (wTideVerdicts_q1.recipient = none) ∧ (0 < 1) ∧ (2 ≠ 0) ∧ (2 ≠ 1) ∧ (wTideVerdicts_q1.laneState 0 ≤ 2) ∧ (wTideVerdicts_q1.laneState 1
      ≤ 2) ∧ ((wTideVerdicts_q1.lane 0).stage.done = true) ∧ (wTideVerdicts_q1.laneState 2 = 3) ∧ ((wTideVerdicts_q1.lane 1).stage.done =
      true) ∧ ((wTideVerdicts_q1.lane 0).digest = (wTideVerdicts_q1.lane 1).digest) ∧ (false = false)) ∧
    (((wTideVerdicts_q1.atTime 980000).now = 980000) ∧ ((wTideVerdicts_q1.atTime 980000).edgeDue wTideVerdicts_q1.gal.edge.guard = true) ∧
      (wTideVerdicts_q1.tideRuns = true) ∧ (wTideVerdicts_q1.gal.verdict = none) ∧ (wTideVerdicts_q1.gal.started = true) ∧
      (wTideVerdicts_q1.recipient = none) ∧ (0 < 1) ∧ (2 ≠ 0) ∧ (2 ≠ 1) ∧ (wTideVerdicts_q1.laneState 0 ≤ 2) ∧ (wTideVerdicts_q1.laneState 1
      ≤ 2) ∧ ((wTideVerdicts_q1.lane 0).stage.done = true) ∧ (wTideVerdicts_q1.laneState 2 = 3) ∧ ((wTideVerdicts_q1.lane 1).stage.done =
      true) ∧ ((wTideVerdicts_q1.lane 0).digest = (wTideVerdicts_q1.lane 1).digest) ∧ (true = true)) ∧
    (((wTideVerdicts_q2.atTime 980000).now = 980000) ∧ ((wTideVerdicts_q2.atTime 980000).edgeDue wTideVerdicts_q2.gal.edge.guard = true) ∧
      (wTideVerdicts_q2.tideRuns = true) ∧ (wTideVerdicts_q2.gal.verdict = none) ∧ (wTideVerdicts_q2.gal.started = true) ∧
      (wTideVerdicts_q2.recipient = none) ∧ (0 < 1) ∧ (2 ≠ 0) ∧ (2 ≠ 1) ∧ (wTideVerdicts_q2.laneState 0 ≤ 2) ∧ (wTideVerdicts_q2.laneState 1
      ≤ 2) ∧ ((wTideVerdicts_q2.lane 0).stage.done = true) ∧ (wTideVerdicts_q2.laneState 2 = 3) ∧ ((wTideVerdicts_q2.lane 1).stage.done =
      true) ∧ ((wTideVerdicts_q2.lane 0).digest ≠ (wTideVerdicts_q2.lane 1).digest)) ∧
    (((wTideVerdicts_q3.atTime 980000).now = 980000) ∧ ((wTideVerdicts_q3.atTime 980000).edgeDue wTideVerdicts_q3.gal.edge.guard = true) ∧
      (wTideVerdicts_q3.tideRuns = true) ∧ (wTideVerdicts_q3.gal.verdict = none) ∧ (wTideVerdicts_q3.gal.started = true) ∧
      (wTideVerdicts_q3.recipient = none) ∧ (0 < 1) ∧ (2 ≠ 0) ∧ (2 ≠ 1) ∧ (wTideVerdicts_q3.laneState 0 ≤ 2) ∧ (wTideVerdicts_q3.laneState 1
      ≤ 2) ∧ ((wTideVerdicts_q3.lane 0).stage.done = true) ∧ (wTideVerdicts_q3.laneState 2 = 3) ∧ ((wTideVerdicts_q3.lane 1).stage.done =
      false)) := by
  refine ⟨?_, ?_, ?_, ?_, ?_, ?_, ?_, ?_⟩ <;> decide +kernel

/-! ### BoundaryAndTick -/

def wBoundaryAndTick_a : State := { (wst [(SYS.MODE_MODE, 4)]) with now := 1000000, gal := { GalSt.reset with edge := ⟨1000000, 2000000, 1000000, 20000, false, 3⟩ }, sys := { SysSt.reset with phase := 2, up := true }, img := { ImgSt.none with valid := true, entry := 0x100 } }
def wBoundaryAndTick_b : State := State.reset
def wBoundaryAndTick_c : State := wBoundaryAndTick_a.setFld SYS.PWR_STS_STATE 3

/-- States and operands that meet the hypotheses of Obligations.BoundaryAndTick, clause by clause. -/
theorem test_witness_boundary_and_tick :
    ((wBoundaryAndTick_b.sys.phase ≠ 2 ∨ 2 < wBoundaryAndTick_b.power ∨ (wBoundaryAndTick_b.atTime 2000000).now ≠ 2000000 ∨
      (wBoundaryAndTick_b.atTime 2000000).edgeDue 0 = false)) ∧
    ((wBoundaryAndTick_a.sys.phase = (2 : Nat)) ∧ (wBoundaryAndTick_a.power ≤ (2 : Nat)) ∧ ((wBoundaryAndTick_a.atTime (2000000 : Nat)).now =
      (2000000 : Nat)) ∧ ((wBoundaryAndTick_a.atTime (2000000 : Nat)).edgeDue (0 : Nat) = true) ∧ ((State.mk (wBoundaryAndTick_a.atTime
      (2000000 : Nat)).pending (wBoundaryAndTick_a.atTime (2000000 : Nat)).now ((wBoundaryAndTick_a.atTime (2000000 : Nat)).oscAt (2000000 :
      Nat) (5 : Nat)) (wBoundaryAndTick_a.atTime (2000000 : Nat)).stepped (wBoundaryAndTick_a.atTime (2000000 : Nat)).regs
      (wBoundaryAndTick_a.atTime (2000000 : Nat)).regs0 (wBoundaryAndTick_a.atTime (2000000 : Nat)).again (wBoundaryAndTick_a.atTime
      (2000000 : Nat)).snap (wBoundaryAndTick_a.atTime (2000000 : Nat)).laneA (wBoundaryAndTick_a.atTime (2000000 : Nat)).laneB
      (wBoundaryAndTick_a.atTime (2000000 : Nat)).laneC (wBoundaryAndTick_a.atTime (2000000 : Nat)).sram (wBoundaryAndTick_a.atTime (2000000
      : Nat)).mram (wBoundaryAndTick_a.atTime (2000000 : Nat)).gal (wBoundaryAndTick_a.atTime (2000000 : Nat)).ringWait
      (wBoundaryAndTick_a.atTime (2000000 : Nat)).ringOff (wBoundaryAndTick_a.atTime (2000000 : Nat)).ringPre (wBoundaryAndTick_a.atTime
      (2000000 : Nat)).tickAt (wBoundaryAndTick_a.atTime (2000000 : Nat)).img (wBoundaryAndTick_a.atTime (2000000 : Nat)).straps
      (wBoundaryAndTick_a.atTime (2000000 : Nat)).pos (wBoundaryAndTick_a.atTime (2000000 : Nat)).mot (wBoundaryAndTick_a.atTime (2000000 :
      Nat)).door (wBoundaryAndTick_a.atTime (2000000 : Nat)).dsp (wBoundaryAndTick_a.atTime (2000000 : Nat)).safe (wBoundaryAndTick_a.atTime
      (2000000 : Nat)).llp (wBoundaryAndTick_a.atTime (2000000 : Nat)).field (wBoundaryAndTick_a.atTime (2000000 : Nat)).range
      (wBoundaryAndTick_a.atTime (2000000 : Nat)).net (wBoundaryAndTick_a.atTime (2000000 : Nat)).link (wBoundaryAndTick_a.atTime (2000000 :
      Nat)).host (wBoundaryAndTick_a.atTime (2000000 : Nat)).tests (wBoundaryAndTick_a.atTime (2000000 : Nat)).keep
      (wBoundaryAndTick_a.atTime (2000000 : Nat)).sys (wBoundaryAndTick_a.atTime (2000000 : Nat)).freeCtr).ltrLess.fst.boundaryEnd.sys.phase
      = (2 : Nat)) ∧ ((State.mk (wBoundaryAndTick_a.atTime (2000000 : Nat)).pending (wBoundaryAndTick_a.atTime (2000000 : Nat)).now
      ((wBoundaryAndTick_a.atTime (2000000 : Nat)).oscAt (2000000 : Nat) (5 : Nat)) (wBoundaryAndTick_a.atTime (2000000 : Nat)).stepped
      (wBoundaryAndTick_a.atTime (2000000 : Nat)).regs (wBoundaryAndTick_a.atTime (2000000 : Nat)).regs0 (wBoundaryAndTick_a.atTime (2000000
      : Nat)).again (wBoundaryAndTick_a.atTime (2000000 : Nat)).snap (wBoundaryAndTick_a.atTime (2000000 : Nat)).laneA
      (wBoundaryAndTick_a.atTime (2000000 : Nat)).laneB (wBoundaryAndTick_a.atTime (2000000 : Nat)).laneC (wBoundaryAndTick_a.atTime
      (2000000 : Nat)).sram (wBoundaryAndTick_a.atTime (2000000 : Nat)).mram (wBoundaryAndTick_a.atTime (2000000 : Nat)).gal
      (wBoundaryAndTick_a.atTime (2000000 : Nat)).ringWait (wBoundaryAndTick_a.atTime (2000000 : Nat)).ringOff (wBoundaryAndTick_a.atTime
      (2000000 : Nat)).ringPre (wBoundaryAndTick_a.atTime (2000000 : Nat)).tickAt (wBoundaryAndTick_a.atTime (2000000 : Nat)).img
      (wBoundaryAndTick_a.atTime (2000000 : Nat)).straps (wBoundaryAndTick_a.atTime (2000000 : Nat)).pos (wBoundaryAndTick_a.atTime (2000000
      : Nat)).mot (wBoundaryAndTick_a.atTime (2000000 : Nat)).door (wBoundaryAndTick_a.atTime (2000000 : Nat)).dsp
      (wBoundaryAndTick_a.atTime (2000000 : Nat)).safe (wBoundaryAndTick_a.atTime (2000000 : Nat)).llp (wBoundaryAndTick_a.atTime (2000000 :
      Nat)).field (wBoundaryAndTick_a.atTime (2000000 : Nat)).range (wBoundaryAndTick_a.atTime (2000000 : Nat)).net
      (wBoundaryAndTick_a.atTime (2000000 : Nat)).link (wBoundaryAndTick_a.atTime (2000000 : Nat)).host (wBoundaryAndTick_a.atTime (2000000
      : Nat)).tests (wBoundaryAndTick_a.atTime (2000000 : Nat)).keep (wBoundaryAndTick_a.atTime (2000000 : Nat)).sys
      (wBoundaryAndTick_a.atTime (2000000 : Nat)).freeCtr).ltrLess.fst.boundaryEnd.power ≠ (4 : Nat))) ∧
    (((wBoundaryAndTick_c.atTime 2000000).now = 2000000) ∧ ((wBoundaryAndTick_c.atTime 2000000).tickDue = true) ∧ (wBoundaryAndTick_c.sys.phase
      ≠ 2 ∨ 2 < wBoundaryAndTick_c.power ∨ (wBoundaryAndTick_c.atTime 2000000).edgeDue 0 = false)) ∧
    (((wBoundaryAndTick_a.atTime 2000000).now ≠ 2000000 ∨ (wBoundaryAndTick_a.atTime 2000000).tickDue = false ∨ wBoundaryAndTick_a.sys.phase = 2
      ∧ wBoundaryAndTick_a.power ≤ 2 ∧ (wBoundaryAndTick_a.atTime 2000000).edgeDue 0 = true)) := by
  refine ⟨?_, ?_, ?_, ?_⟩ <;> decide +kernel

/-! ### LaneHealthAndReliefEvents -/

def wLaneHealthAndRelief_a : State := (wst [(GALLERY.LANE_STS_STATE 1, 1), (GALLERY.LANE_STS_DOUBT_LEFT 1, 0)])
def wLaneHealthAndRelief_b : State := { wLaneHealthAndRelief_a with gal := { wLaneHealthAndRelief_a.gal with chars := [(2, 15), (3, 16)] } }
def wLaneHealthAndRelief_c : State := wLaneHealthAndRelief_b.setFld GALLERY.CHAR_STS_SILENT 2
def wLaneHealthAndRelief_d : State := wLaneHealthAndRelief_b.setFld GALLERY.CHAR_STS_WIRE_LOST 2
def wLaneHealthAndRelief_c2 : State := { wLaneHealthAndRelief_c with gal := { wLaneHealthAndRelief_c.gal with chars := [] } }
def wLaneHealthAndRelief_r4 : State := { (wst [(GALLERY.LANE_STS_STATE 1, 4), (GALLERY.RELIEF_STS_RECIPIENT, 1)]) with img := { ImgSt.none with valid := true }, now := 100000000, laneB := { LaneSt.reset with dram := [(5,7)] } }
def wLaneHealthAndRelief_r5 : State := wLaneHealthAndRelief_r4.setFld (GALLERY.LANE_STS_STATE 1) 5
def wLaneHealthAndRelief_r6 : State := (wLaneHealthAndRelief_r4.setFld (GALLERY.LANE_STS_STATE 1) 6).onRelief fun r => { r with phase := 1 }
def wLaneHealthAndRelief_r65 : State := (wLaneHealthAndRelief_r4.setFld (GALLERY.LANE_STS_STATE 1) 6).onRelief fun r => { r with phase := 5 }
def wLaneHealthAndRelief_r62 : State := (wLaneHealthAndRelief_r4.setFld (GALLERY.LANE_STS_STATE 1) 6).onRelief fun r => { r with phase := 2, tides := 16 }
def wLaneHealthAndRelief_r64 : State := (wLaneHealthAndRelief_r4.setFld (GALLERY.LANE_STS_STATE 1) 6).onRelief fun r => { r with phase := 4, at' := 5 }
def wLaneHealthAndRelief_r7 : State := ((wLaneHealthAndRelief_r4.setFld (GALLERY.LANE_STS_STATE 1) 7).setFld (GALLERY.LANE_STS_SHADOW_CNT 1)
  64)
def wLaneHealthAndRelief_h1 : State := wLaneHealthAndRelief_a.onGal fun g => { g with heard := [(3, 199999999)] }
def wLaneHealthAndRelief_h2 : State := wLaneHealthAndRelief_h1.setFld GALLERY.CHAR_STS_GAL_LOST 2

/-- States and operands that meet the hypotheses of Obligations.LaneHealthAndReliefEvents, clause by clause. -/
theorem test_witness_lane_health_and_relief_events :
    ((wLaneHealthAndRelief_h1.laneState 1 = 1) ∧ (wLaneHealthAndRelief_h1.fld (GALLERY.LANE_STS_DOUBT_LEFT 1) = 0)) ∧
    ((wLaneHealthAndRelief_h1.judged 1 = true) ∧ (bitB (wLaneHealthAndRelief_h1.fld GALLERY.CHAR_STS_SILENT) 1 = false)) ∧
    ((wLaneHealthAndRelief_h1.judged 1 = true) ∧ (bitB (wLaneHealthAndRelief_h1.fld GALLERY.CHAR_STS_SILENT) 1 = false) ∧ (mget zeroNat
      wLaneHealthAndRelief_h1.gal.heard (2 * 1 + 0) + 40000 ≤ (wLaneHealthAndRelief_h1.atTime 200000000).now) ∧
      ((wLaneHealthAndRelief_h1.atTime 200000000).now < mget zeroNat wLaneHealthAndRelief_h1.gal.heard (2 * 1 + (1 - 0)) + 40000) ∧ (bitB
      (wLaneHealthAndRelief_h1.fld (pathFld 0)) 1 = false)) ∧
    ((wLaneHealthAndRelief_h2.judged 1 = true) ∧ (bitB (wLaneHealthAndRelief_h2.fld GALLERY.CHAR_STS_SILENT) 1 = false) ∧ (mget zeroNat
      wLaneHealthAndRelief_h2.gal.heard (2 * 1 + 0) + 40000 ≤ (wLaneHealthAndRelief_h2.atTime 200000000).now) ∧
      ((wLaneHealthAndRelief_h2.atTime 200000000).now < mget zeroNat wLaneHealthAndRelief_h2.gal.heard (2 * 1 + (1 - 0)) + 40000) ∧ (bitB
      (wLaneHealthAndRelief_h2.fld (pathFld 0)) 1 = true)) ∧
    ((wLaneHealthAndRelief_a.judged 1 = true) ∧ (bitB (wLaneHealthAndRelief_a.fld GALLERY.CHAR_STS_SILENT) 1 = false) ∧ (mget zeroNat
      wLaneHealthAndRelief_a.gal.heard (2 * 1 + 0) + 40000 ≤ (wLaneHealthAndRelief_a.atTime 200000000).now) ∧ (mget zeroNat
      wLaneHealthAndRelief_a.gal.heard (2 * 1 + (1 - 0)) + 40000 ≤ (wLaneHealthAndRelief_a.atTime 200000000).now)) ∧
    ((wLaneHealthAndRelief_c2.judged 1 = true) ∧ (bitB (wLaneHealthAndRelief_c2.fld GALLERY.CHAR_STS_SILENT) 1 = true) ∧ (mget zeroNat
      wLaneHealthAndRelief_c2.gal.chars (2 * 1 + 0) < 15) ∧ ((wLaneHealthAndRelief_c2.lane 1).railHeld = false)) ∧
    ((16 ≤ mget zeroNat wLaneHealthAndRelief_d.gal.chars (2 * 1 + 1))) ∧
    ((wLaneHealthAndRelief_r4.recipient = some 1) ∧ (wLaneHealthAndRelief_r4.laneState 1 = 4) ∧ ((wLaneHealthAndRelief_r4.lane 1).railLost =
      false) ∧ (wLaneHealthAndRelief_r4.flag HEALTH.ST_STS_IMG_BAD = false) ∧ (wLaneHealthAndRelief_r4.img.valid = true)) ∧
    ((wLaneHealthAndRelief_r4.recipient = some 1) ∧ (wLaneHealthAndRelief_r4.laneState 1 = 4) ∧ ((wLaneHealthAndRelief_r4.lane 1).railLost =
      false) ∧ (wLaneHealthAndRelief_r4.flag HEALTH.ST_STS_IMG_BAD = false) ∧ (wLaneHealthAndRelief_r4.img.valid = true) ∧
      ((wLaneHealthAndRelief_r4.atTime 200000000).failsOf 1 < 2)) ∧
    ((wLaneHealthAndRelief_r5.recipient = some 1) ∧ (wLaneHealthAndRelief_r5.laneState 1 = 5)) ∧
    ((wLaneHealthAndRelief_r5.recipient = some 1) ∧ (wLaneHealthAndRelief_r5.laneState 1 = 5) ∧ ((wLaneHealthAndRelief_r5.atTime
      200000000).failsOf 1 < 2)) ∧
    ((wLaneHealthAndRelief_r6.recipient = some 1) ∧ (wLaneHealthAndRelief_r6.laneState 1 = 6) ∧ (wLaneHealthAndRelief_r6.gal.relief.phase = 1) ∧
      (wLaneHealthAndRelief_r6.gal.relief.at' + 164864 ≤ (wLaneHealthAndRelief_r6.atTime 200000000).now)) ∧
    ((wLaneHealthAndRelief_r6.recipient = some 1) ∧ (wLaneHealthAndRelief_r6.laneState 1 = 6) ∧ (wLaneHealthAndRelief_r6.gal.relief.phase = 1)) ∧
    ((wLaneHealthAndRelief_r65.recipient = some 1) ∧ (wLaneHealthAndRelief_r65.laneState 1 = 6) ∧ (wLaneHealthAndRelief_r65.gal.relief.phase =
      5) ∧ (wLaneHealthAndRelief_r65.gal.edge.last + 4000 ≤ (wLaneHealthAndRelief_r65.atTime 200000000).now)) ∧
    ((wLaneHealthAndRelief_r65.recipient = some 1) ∧ (wLaneHealthAndRelief_r65.laneState 1 = 6) ∧ (wLaneHealthAndRelief_r65.gal.relief.phase =
      5) ∧ ((wLaneHealthAndRelief_r65.atTime 200000000).failsOf 1 < 2)) ∧
    ((wLaneHealthAndRelief_r65.recipient = some 1) ∧ (wLaneHealthAndRelief_r65.laneState 1 = 6) ∧ (wLaneHealthAndRelief_r65.gal.relief.phase =
      5)) ∧
    ((wLaneHealthAndRelief_r62.gal.relief.phase = 2) ∧ (16 ≤ wLaneHealthAndRelief_r62.gal.relief.tides)) ∧
    ((wLaneHealthAndRelief_r64.gal.relief.phase = 4) ∧ (wLaneHealthAndRelief_r64.gal.relief.at' + 1000000000 ≤ 2000000000)) ∧
    ((wLaneHealthAndRelief_r7.laneState 1 = 7) ∧ (64 ≤ wLaneHealthAndRelief_r7.fld (GALLERY.LANE_STS_SHADOW_CNT 1))) := by
  refine ⟨?_, ?_, ?_, ?_, ?_, ?_, ?_, ?_, ?_, ?_, ?_, ?_, ?_, ?_, ?_, ?_, ?_, ?_, ?_⟩ <;> decide +kernel

/-! ### GalleryAndRingCommits -/

def wGalleryAndRing_a : State := wst [(GALLERY.TIDE_STS_SNAP_MIS, 1), (GALLERY.LANE_STS_STATE 1, 3)]
def wGalleryAndRing_b : State := wGalleryAndRing_a.setFld GALLERY.RELIEF_STS_RECIPIENT 2
def wGalleryAndRing_c : State := { ((wGalleryAndRing_a.setFld (RINGS.RING_CFG_POLICY 40) 0).setFld (RINGS.RING_STS_WAITING 40) 1) with ringWait := [(40, [[1, 2, 3], [4]])], sram := [(0, 9), (3, 9), (5, 9)] }
def wGalleryAndRing_w1 : State := { wGalleryAndRing_a with regs0 := wGalleryAndRing_a.regs }

/-- States and operands that meet the hypotheses of Obligations.GalleryAndRingCommits, clause by clause. -/
theorem test_witness_gallery_and_ring_commits :
    ((wGalleryAndRing_a.laneState 1 = 3 ∨ wGalleryAndRing_a.laneState 1 = 8) ∧ (wGalleryAndRing_a.recipient = none) ∧ (wGalleryAndRing_a.flag
      HEALTH.ST_STS_IMG_BAD = false)) ∧
    ((wGalleryAndRing_b.laneState 1 = 3 ∨ wGalleryAndRing_b.laneState 1 = 8) ∧ (wGalleryAndRing_b.recipient ≠ none)) ∧
    ((wGalleryAndRing_a.fld (RINGS.RING_CFG_POLICY 40) ≠ 2 ∨ wGalleryAndRing_a.flag (RINGS.RING_CFG_CANWAIT 40) = true) ∧ (wGalleryAndRing_a.fld
      (RINGS.RING_BASE_BASE 40) % (wGalleryAndRing_a.ringSize 40 * wGalleryAndRing_a.ringEnt 40) = 0) ∧ (wGalleryAndRing_a.fld
      (RINGS.RING_WMARK_WMARK 40) ≤ wGalleryAndRing_a.ringSize 40)) ∧
    ((wGalleryAndRing_c.flag (RINGS.RING_STS_WAITING 40) = true) ∧ (wGalleryAndRing_c.ringCnt 40 < wGalleryAndRing_c.ringSize 40) ∧ (mget (fun _
      => []) wGalleryAndRing_c.ringWait 40 = [[1, 2, 3], [4]])) ∧
    ((wGalleryAndRing_a.inRing 5 = false)) ∧
    ((¬keyAddr 5 / 65536 ∈ [16385, 16390, 16391, 16397, 16398, 16399, 16400, 16402])) ∧
    ((mwf wGalleryAndRing_w1.rst wGalleryAndRing_w1.regs = true) ∧ (wGalleryAndRing_w1.regs0 = wGalleryAndRing_w1.regs) ∧
      (wGalleryAndRing_w1.again = [])) := by
  refine ⟨?_, ?_, ?_, ?_, ?_, ?_, ?_⟩ <;> decide +kernel

/-! ### ControlSlots -/

def wControlSlots_a : State := wst [(CTRL.SL_CFG_OUT_PHASE 0 3, 1023), (CTRL.SL_CFG_OUT_PHASE 1 3, 1023), (CTRL.SL_CFG_OUT_PHASE 2 3, 1023)]
def wControlSlots_b : State := wst [(CTRL.SL_CFG_EN 0 3, 1), (CTRL.SL_CFG_EN 1 3, 1), (CTRL.SL_CFG_EN 2 3, 1), (CTRL.SL_STS_LIMITED 1 3, 1),
  (CTRL.SL_STS_STATE 1 3, 3)]
def wControlSlots_c : State := wst [(CTRL.SL_STS_STATE 0 3, 3), (CTRL.SL_STS_STATE 1 3, 3), (CTRL.SL_STS_STATE 2 3, 3)]
def wControlSlots_e0 : EngSlot := { ((State.reset).eng 0 3) with due := true, at' := 1000, dst := 0x20, phase := 40, mis := 1 }
def wControlSlots_d : State := ((State.reset.setEng 0 3 wControlSlots_e0).setEng 1 3 wControlSlots_e0).setEng 2 3 wControlSlots_e0
def wControlSlots_d1 : State := wrg wControlSlots_d [(CTRL.SL_OUT 0 3, 0xC0000001), (CTRL.SL_OUT 1 3, 5), (CTRL.SL_OUT 2 3, 6)]
def wControlSlots_d2 : State := wrg wControlSlots_d [(CTRL.SL_OUT 0 3, 0xC0000001), (CTRL.SL_OUT 1 3, 0xC0000001), (CTRL.SL_OUT 2 3,
  0xC0000001)]
def wControlSlots_f0 : EngSlot := { wControlSlots_e0 with dst := 0 }
def wControlSlots_d3 : State := ((State.reset.setEng 0 3 wControlSlots_f0).setEng 1 3 wControlSlots_f0).setEng 2 3 wControlSlots_f0
def wControlSlots_k1 : State := wrg ((wst [(CTRL.SL_STS_STATE 1 3, 3)]).setEng 1 3 { wControlSlots_f0 with clrCells := true, clrF := true, live := true, runs0 := true })
  [(CTRL.CELL 1 3 5, 77), (CTRL.OUT_SAFE 1 3, 9)]
def wControlSlots_k2 : State := (wst []).setEng 1 3 { wControlSlots_f0 with pre := [(5, 8#32)] }
def wControlSlots_d4 : State := wControlSlots_d2.setFld (GALLERY.LANE_STS_STATE 2) 3
def wControlSlots_d5 : State := wControlSlots_d1.setFld (GALLERY.LANE_STS_STATE 2) 3
def wControlSlots_d6 : State := wrg wControlSlots_d [(CTRL.SL_OUT 0 3, 8), (CTRL.SL_OUT 1 3, 8), (CTRL.SL_OUT 2 3, 6)]

/-- States and operands that meet the hypotheses of Obligations.ControlSlots, clause by clause. -/
theorem test_witness_control_slots :
    (((wControlSlots_k1.eng 1 3).clrCells = true) ∧ ((wControlSlots_k1.eng 1 3).pre = [])) ∧
    (((wControlSlots_k2.eng 1 3).pre = [(5, 8#32)])) ∧
    ((wControlSlots_k1.flag (CTRL.SL_CFG_EN 1 3) = false) ∧ ((wControlSlots_k1.eng 1 3).clrF = true)) ∧
    ((wControlSlots_k1.flag (CTRL.SL_CFG_EN 1 3) = false) ∧ ((wControlSlots_k1.eng 1 3).live = true)) ∧
    (((wControlSlots_k1.eng 1 3).runs0 = true)) ∧
    ((wControlSlots_d4.voters = [0, 1]) ∧ (0 ≠ 1) ∧ ((wControlSlots_d4.eng 0 3).due = true ∧ (wControlSlots_d4.eng 0 3).at' = 1000 ∧
      (wControlSlots_d4.eng 0 3).dst = 32 ∧ (wControlSlots_d4.eng 0 3).phase = 40) ∧ ((wControlSlots_d4.eng 1 3).due = true ∧
      (wControlSlots_d4.eng 1 3).at' = 1000 ∧ (wControlSlots_d4.eng 1 3).dst = 32 ∧ (wControlSlots_d4.eng 1 3).phase = 40) ∧
      ((wControlSlots_d4.atTime 11000).now = 1000 + 250 * 40) ∧ (wControlSlots_d4.reg (CTRL.SL_OUT 0 3) = 3221225473#32) ∧
      (wControlSlots_d4.reg (CTRL.SL_OUT 1 3) = 3221225473#32)) ∧
    ((wControlSlots_d5.voters = [0, 1]) ∧ (0 ≠ 1) ∧ ((wControlSlots_d5.eng 0 3).due = true ∧ (wControlSlots_d5.eng 0 3).at' = 1000 ∧
      (wControlSlots_d5.eng 0 3).dst = 32 ∧ (wControlSlots_d5.eng 0 3).phase = 40) ∧ ((wControlSlots_d5.eng 1 3).due = true ∧
      (wControlSlots_d5.eng 1 3).at' = 1000 ∧ (wControlSlots_d5.eng 1 3).dst = 32 ∧ (wControlSlots_d5.eng 1 3).phase = 40) ∧
      ((wControlSlots_d5.atTime 11000).now = 1000 + 250 * 40) ∧ (wControlSlots_d5.reg (CTRL.SL_OUT 0 3) ≠ wControlSlots_d5.reg (CTRL.SL_OUT
      1 3))) ∧
    ((wControlSlots_a.voters = [0, 1, 2]) ∧ (∀ (l : Lane), wControlSlots_a.flag (CTRL.SL_CFG_ILIM_EN (↑l) 3) = false ∧ wControlSlots_a.flag
      (CTRL.SL_CFG_RAMP_EN (↑l) 3) = false ∧ wControlSlots_a.flag (CTRL.SL_CFG_RC_EN (↑l) 3) = false ∧ wControlSlots_a.regI (CTRL.OUT_LO
      (↑l) 3) ≤ wControlSlots_a.regI (CTRL.OUT_HI (↑l) 3) ∧ wControlSlots_a.fld (CTRL.SL_DST_DST (↑l) 3) = 0 ∧ (∀ (k : Fin 12), k ≠ 3 →
      wControlSlots_a.flag (CTRL.SL_CFG_EN ↑l ↑k) = false) ∧ wControlSlots_a.slotCost (↑l) 3 * 10000 + 350 * 49104 ≤ wControlSlots_a.fld
      (CTRL.SL_CFG_OUT_PHASE (↑l) 3) * 25 * 49104)) ∧
    ((wControlSlots_a.voters = [0, 1, 2])) ∧
    ((wControlSlots_b.voters = [0, 1, 2]) ∧ (∀ (l : Lane), wControlSlots_b.flag (CTRL.SL_CFG_EN (↑l) 3) = true)) ∧
    ((wControlSlots_c.voters = [0, 1, 2]) ∧ (∀ (l : Lane), wControlSlots_c.slotState (↑l) 3 = 3 ∧ wControlSlots_c.regN (CTRL.SL_SRC (↑l) 3) = 0
      ∧ wControlSlots_c.flag (CTRL.SL_CFG_RC_EN (↑l) 3) = false)) ∧
    ((wControlSlots_a.voters = [0, 1, 2]) ∧ (∀ (l : Lane), 5 < wControlSlots_a.rcN (↑l) 3)) ∧
    ((wControlSlots_d2.voters = [0, 1, 2]) ∧ ((wControlSlots_d2.atTime 11000).now = 1000 + 250 * 40) ∧ (∀ (l : Lane), (wControlSlots_d2.eng (↑l)
      3).due = true ∧ (wControlSlots_d2.eng (↑l) 3).at' = 1000 ∧ (wControlSlots_d2.eng (↑l) 3).dst = 32 ∧ (wControlSlots_d2.eng (↑l)
      3).phase = 40) ∧ (∀ (l : Lane), wControlSlots_d2.reg (CTRL.SL_OUT (↑l) 3) = 3221225473#32)) ∧
    ((wControlSlots_d6.voters = [0, 1, 2]) ∧ ((wControlSlots_d6.atTime 11000).now = 1000 + 250 * 40) ∧ (∀ (l : Lane), (wControlSlots_d6.eng (↑l)
      3).due = true ∧ (wControlSlots_d6.eng (↑l) 3).at' = 1000 ∧ (wControlSlots_d6.eng (↑l) 3).dst = 32 ∧ (wControlSlots_d6.eng (↑l)
      3).phase = 40) ∧ (0 ≠ 1) ∧ (2 ≠ 0) ∧ (2 ≠ 1) ∧ (wControlSlots_d6.reg (CTRL.SL_OUT 0 3) = 8#32) ∧ (wControlSlots_d6.reg (CTRL.SL_OUT 1
      3) = 8#32) ∧ (wControlSlots_d6.reg (CTRL.SL_OUT 2 3) ≠ 8#32)) ∧
    ((wControlSlots_d1.voters = [0, 1, 2]) ∧ ((wControlSlots_d1.atTime 11000).now = 1000 + 250 * 40) ∧ (∀ (l : Lane), (wControlSlots_d1.eng (↑l)
      3).due = true ∧ (wControlSlots_d1.eng (↑l) 3).at' = 1000 ∧ (wControlSlots_d1.eng (↑l) 3).dst = 32 ∧ (wControlSlots_d1.eng (↑l)
      3).phase = 40) ∧ (∀ (l m : Lane), l ≠ m → wControlSlots_d1.reg (CTRL.SL_OUT (↑l) 3) ≠ wControlSlots_d1.reg (CTRL.SL_OUT (↑m) 3))) ∧
    ((wControlSlots_d3.voters = [0, 1, 2]) ∧ ((wControlSlots_d3.atTime 11000).now = 1000 + 250 * 40) ∧ (∀ (l : Lane), (wControlSlots_d3.eng (↑l)
      3).due = true ∧ (wControlSlots_d3.eng (↑l) 3).at' = 1000 ∧ (wControlSlots_d3.eng (↑l) 3).dst = 0 ∧ (wControlSlots_d3.eng (↑l) 3).phase
      = 40)) := by
  refine ⟨?_, ?_, ?_, ?_, ?_, ?_, ?_, ?_, ?_, ?_, ?_, ?_, ?_, ?_, ?_, ?_⟩ <;> decide +kernel

/-! ### DoorResults -/

def wDoor_a : State := wst [(DOOR.DRV_CFG_TRIP_EN 1, 1), (DOOR.ADC_CFG_EN, 0xFFFF), (DOOR.DOOR_STS_TRIP_NOW 0, 1)]
def wDoor_b3 : State := { wDoor_a with door := { DoorsSt.reset with adc := [(0, ⟨3, 0, false⟩), (1, ⟨0, 3, true⟩), (3, ⟨4, 0, false⟩)] } }
def wDoor_pw : State := { (wst [(DOOR.DRV_CFG_EN 1, 1), (DOOR.PWM_CFG_PER 1, 8000)]) with door := { DoorsSt.reset with doors := [(1, { DoorSt.reset with pwmAt := some 0, enOn := true })] } }
def wDoor_c : State := { ((wDoor_pw.setFld (DOOR.DRV_CFG_MODE 1) 1).setFld (MOTION.AX_STS_STATE 2) 1) with door := { DoorsSt.reset with doors := [(1, { DoorSt.reset with pwmAt := some 0, enOn := true, cmode := 1 })] } }
def wDoor_c1 : State := { wDoor_c with door := { DoorsSt.reset with doors := [(1, { DoorSt.reset with pwmAt := some 0, enOn := true, cmode := 1, ins := [(0, ⟨0#32, 0#32, 10000, 0⟩)] })] } }
def wDoor_d : State := { (wst [(DOOR.OBS_CFG_EDGE_EN 1, 1), (DOOR.OBS_CFG_EDGE_POL 1, 1), (DOOR.BLANK_EDGE 1, 0), (MOTION.AX_STS_STATE 2, 2)]) with mot := { MotSt.reset with axes := [(2, { AxSt.reset with prof := ⟨0, -4294967296, 0, 0, []⟩, moves := 3 })] } }
def wDoor_st : State := wst [(DOOR.DRV_CFG_EN 1, 1), (DOOR.DRV_CFG_MODE 1, 2), (DOOR.LA_CFG_LA_STALL 1, 0), (DOOR.LA_CFG_STALL_T 1, 4),
  (DOOR.DOOR_STS_UNSURE 1, 1)]
def wDoor_st2 : State := { wDoor_st with door := { wDoor_st.door with doors := [(1, { DoorSt.reset with bad := 0, cStall := 4 })] } }
def wDoor_e : State := { State.reset with door := { DoorsSt.reset with doors := [(1, { DoorSt.reset with writes := [⟨5, true, true, 7⟩, ⟨6, false, true, 8⟩] })], prof := some ⟨false, 1, 0, 5, [1, 2, 3], 0, 0⟩ } }
def wDoor_f : State := wst [(DOOR.ELEC1_CUR_FS 1, 5), (DOOR.ELEC1_VBUS_FS 1, 5), (DOOR.DRV_CFG_MODE 1, 1)]
def wDoor_g : State := wDoor_f.setFld DOOR.PROF_STS_STATE 1
def wDoor_k1 : State := wst [(DOOR.DRV_CFG_EN 1, 1), (DOOR.DRV_CFG_MODE 1, 2)]
def wDoor_k2 : State := { State.reset with door := { DoorsSt.reset with doors := [(1, { DoorSt.reset with enOn := true, swap := true, frClr := true })] } }
def wDoor_k3 : State := { State.reset with door := { DoorsSt.reset with doors := [(1, { DoorSt.reset with frPre := [(261, 3#32)] })] } }
def wDoor_dt : State := { wDoor_d with tickAt := some 100 }
def wDoor_n1 : State := wrg (wst []) [(CTRL.CELL 0 11 2, 5), (CTRL.CELL 1 11 2, 6), (CTRL.CELL 2 11 2, 7)]

/-- States and operands that meet the hypotheses of Obligations.DoorResults, clause by clause. -/
theorem test_witness_door_results :
    ((wDoor_a.flag (DOOR.DRV_CFG_TRIP_EN 1) = true) ∧ (wDoor_a.flag (DOOR.DOOR_STS_TRIP 1) = false)) ∧
    ((wDoor_a.regN DOOR.ADC_LIMACT = 0) ∧ ((wDoor_a.atTime 0).now = 0) ∧ (500 * 0 ≤ 0) ∧ ((0 - 500 * 0) % 31250 = 0) ∧ (∃ i, i < 4 ∧ bitB
      (wDoor_a.fld DOOR.ADC_CFG_EN) (4 * 0 + i) = true)) ∧
    (((mget (fun _ => { sat := 0, ok := 0, bad := false }) wDoor_b3.door.adc 3).sat = 4)) ∧
    (((wDoor_pw.dr 1).closing = false) ∧ ((wDoor_pw.atTime 40000).now = 40000) ∧ ((wDoor_pw.atTime 40000).updateDue 1 false = true) ∧
      (wDoor_pw.drvRuns 1 = false)) ∧
    (((wDoor_c1.dr 1).closing = false) ∧ ((wDoor_c1.atTime 40000).now = 40000) ∧ ((wDoor_c1.atTime 40000).updateDue 1 false = true) ∧
      (wDoor_c1.drvRuns 1 = true) ∧ (wDoor_c1.drvMode 1 = 1) ∧ ((wDoor_c1.atTime 40000).loadDue 1 = true) ∧ ((wDoor_c1.atTime 40000).engIn 1
      0 = 0) ∧ ((wDoor_c1.atTime 40000).engIn 1 1 = 0)) ∧
    (((wDoor_c.dr 1).closing = false) ∧ ((wDoor_c.atTime 40000).now = 40000) ∧ ((wDoor_c.atTime 40000).updateDue 1 false = true) ∧
      (wDoor_c.drvRuns 1 = true) ∧ ((wDoor_c.atTime 40000).loadDue 1 = false)) ∧
    (((wDoor_a.atTime 0).updateDue 1 false = false)) ∧
    ((1 ≤ 3) ∧ (3 ≤ 4) ∧ (3 = 1 → wDoor_dt.fld (DOOR.OBS_CFG_OBS_T 1) ≤ (wDoor_dt.dr 1).cForce) ∧ (3 = 2 → wDoor_dt.fld (DOOR.OBS_CFG_OBS_T 1) ≤
      (wDoor_dt.dr 1).cLoad) ∧ ((wDoor_dt.atTime 100).obsTest 1 (decide (wDoor_dt.fld (DOOR.LA_CFG_STALL_T 1) ≤ (wDoor_dt.dr 1).cStall)) 3 =
      true) ∧ ((wDoor_dt.dr 1).declared ≠ some (wDoor_dt.ax (1 + 1)).moves) ∧ ((wDoor_dt.atTime 100).tickAt = some (wDoor_dt.atTime
      100).now)) ∧
    (((wDoor_a.atTime 0).tickAt ≠ some (wDoor_a.atTime 0).now)) ∧
    (((wDoor_st2.atTime 100).stallNow 1 (wDoor_st2.dr 1).fbOld = true) ∧ (wDoor_st2.fld (DOOR.LA_CFG_STALL_T 1) ≤ (wDoor_st2.dr 1).cStall) ∧
      ((wDoor_st2.dr 1).stalled = false) ∧ (wDoor_st2.axState (1 + 1) ≠ 3)) ∧
    (((wDoor_e.dr 1).writes = [{ ms := 5, moving := true, valid := true, crc := 7 }, { ms := 6, moving := false, valid := true, crc := 8 }])) ∧
    ((wDoor_e.door.prof = some (ProfSt.mk false (1 : Nat) (0 : Nat) (5 : Nat) [(1 : Nat), (2 : Nat), (3 : Nat)] (0 : Nat) (0 : Nat))) ∧
      ((ProfSt.mk false (1 : Nat) (0 : Nat) (5 : Nat) [(1 : Nat), (2 : Nat), (3 : Nat)] (0 : Nat) (0 : Nat)).rec' < (32 : Nat)) ∧
      ((ProfSt.mk false (1 : Nat) (0 : Nat) (5 : Nat) [(1 : Nat), (2 : Nat), (3 : Nat)] (0 : Nat) (0 : Nat)).load = false)) ∧
    (((wDoor_k1.dr 1).enOn = false) ∧ (wDoor_k1.flag (DOOR.DRV_CFG_EN 1) = true)) ∧
    (((wDoor_k1.dr 1).enOn = false) ∧ (wDoor_k1.flag (DOOR.DRV_CFG_EN 1) = true) ∧ (wDoor_k1.fld (DOOR.DRV_CFG_MODE 1) = 2)) ∧
    (((wDoor_k2.dr 1).enOn = true) ∧ (wDoor_k2.flag (DOOR.DRV_CFG_EN 1) = false)) ∧
    (((wDoor_k2.dr 1).swap = true)) ∧
    (((wDoor_k2.dr 1).swap = true) ∧ (0 < 1024)) ∧
    (((wDoor_k2.dr 1).frClr = true) ∧ ((wDoor_k2.dr 1).frPre = [])) ∧
    (((wDoor_k3.dr 1).frPre = [(256 * 1 + 5, 3#32)])) ∧
    ((wDoor_f.flag (DOOR.DRV_CFG_SYNC 1) = false) ∧ (wDoor_f.flag (DOOR.OBS_CFG_LA_EN 1) = false) ∧ ((wDoor_f.dr 1).pin ≠ some (wDoor_f.flag
      (DOOR.DRV_CFG_TRIP_POL 1))) ∧ (wDoor_f.fld (DOOR.ELEC1_CUR_FS 1) ≠ 0) ∧ (wDoor_f.fld (DOOR.ELEC1_VBUS_FS 1) ≠ 0)) ∧
    ((wDoor_a.flag (DOOR.DRV_CFG_SYNC 1) = false) ∧ (wDoor_a.flag (DOOR.OBS_CFG_LA_EN 1) = false) ∧ ((wDoor_a.dr 1).pin ≠ some (wDoor_a.flag
      (DOOR.DRV_CFG_TRIP_POL 1)))) ∧
    ((wDoor_a.flag (DOOR.DOOR_STS_TRIP_NOW 1) = false) ∧ (wDoor_a.fld (DOOR.DOOR_STS_TRIP_CAUSE 1) ≠ 2)) ∧
    ((wDoor_b3.flag (DOOR.DOOR_STS_TRIP_NOW 0) = true)) ∧
    ((wDoor_a.fld DOOR.PROF_STS_STATE ≠ 1) ∧ (1 ≤ 1)) ∧
    ((wDoor_a.fld DOOR.PROF_STS_STATE ≠ 1) ∧ (1 ≤ 11)) ∧
    ((wDoor_a.fld DOOR.PROF_STS_STATE ≠ 1) ∧ (1 ≤ 11) ∧ (∀ (j : Nat), j < (wDoor_k1.profKeys 2 1).fst → wDoor_k1.cellVote 1 j = some 0#32)) ∧
    ((wDoor_f.fld DOOR.PROF_STS_STATE ≠ 1) ∧ (11 ≤ 11) ∧ (2 < (wDoor_n1.profKeys 2 11).fst) ∧ (wDoor_n1.cellVote 11 2 = none)) ∧
    ((wDoor_a.fld DOOR.PROF_STS_STATE ≠ 1) ∧ (1 = 1 ∧ 1 ≤ 1 ∨ 1 = 2 ∧ 1 ≤ 11)) ∧
    ((wDoor_g.fld DOOR.PROF_STS_STATE = 1) ∧ (1 = 1) ∧ (1 ≤ 1)) := by
  refine ⟨?_, ?_, ?_, ?_, ?_, ?_, ?_, ?_, ?_, ?_, ?_, ?_, ?_, ?_, ?_, ?_, ?_, ?_, ?_, ?_, ?_, ?_, ?_, ?_, ?_, ?_, ?_, ?_, ?_⟩ <;> decide +kernel

/-! ### DispatchResults -/

def wDispatch_z : State := wup (wst [(SYS.MODE_MODE, 6), (DISPATCH.DSP_CFG_EN, 1), (DISPATCH.DSP_CFG_CAR, 1), (DISPATCH.DSP_CFG_NET, 3),
  (DISPATCH.DSP_MASK_CARS, 0xF), (DISPATCH.DSP_STS_GSTATE, 2), (SYS.CAPS_MAX_LANDING, 63), (POS.MAP_STS_LANDINGS, 4), (NET.PORT_CFG_EN 0 0,
  1), (NET.PORT_CFG_EN 1 1, 1)])
def wDispatch_a : State := { wDispatch_z with pos := { wDispatch_z.pos with wmap := [(14, 1#32), (30, 1#32), (46, 1#32), (62, 1#32)] } }
def wDispatch_t1 : State := { wDispatch_a with tickAt := some 100000000 }
def wDispatch_t2 : State := { wDispatch_a.onDsp (fun d => { d with ePend := some ⟨100000000, .clean⟩ }) with now := 100000000 }
def wDispatch_b : State := wDispatch_a.setFld DISPATCH.DSP_STS_EVAL_BUSY 1
def wDispatch_b2 : State := wDispatch_b.onDsp fun d => { d with costs := [(5, 77)], evalN := 1, calls := [(5, { CallRec.none with state := 1, holder := 1 })] }
def wDispatch_c : State := wDispatch_b2.setFld DISPATCH.DSP_STS_GSTATE 4
def wDispatch_e : State := wDispatch_a.onDsp fun d => { d with rx := [⟨3, 0, [], 7, 1⟩] }
def wDispatch_f : State := wDispatch_a.onDsp fun d => { d with calls := [(256, { CallRec.none with state := 1, holder := 1 })] }
def wDispatch_p0 : List Byte := leBytes 1 2 ++ leBytes 1 1 ++ leBytes 1 3 ++ leBytes 1 0x30 ++ leBytes 4 0 ++ leBytes 4 0 ++ List.replicate
  1364 0
def wDispatch_pg : List Byte := wDispatch_p0 ++ leBytes 4 (crc32c wDispatch_p0)
def wDispatch_pb : List Byte := wDispatch_p0 ++ leBytes 4 5

set_option maxRecDepth 100000 in
/-- States and operands that meet the hypotheses of Obligations.DispatchResults, clause by clause. -/
theorem test_witness_dispatch_results :
    (((wDispatch_a.atTime 100000000).now = 100000000) ∧ (100000000 % 100000000 = 0) ∧ (wDispatch_a.dsp.e0 ≠ 100000000) ∧ (wDispatch_a.tickAt ≠
      some 100000000)) ∧
    ((wDispatch_t2.dsp.ePend = some { what := wDispatch_t2.now, ecc := Ecc.clean }) ∧ (wDispatch_t2.now % 100000000 = 0) ∧ (wDispatch_t2.dsp.e0
      ≠ wDispatch_t2.now)) ∧
    (((wDispatch_t1.atTime 100000000).now = 100000000) ∧ (100000000 % 100000000 = 0) ∧ (wDispatch_t1.dsp.e0 ≠ 100000000) ∧ (wDispatch_t1.tickAt
      = some 100000000) ∧ (wDispatch_t1.flag DISPATCH.DSP_CFG_EN = true) ∧ (4 ≤ wDispatch_t1.mode) ∧ (wDispatch_t1.dsp.alloc = none) ∧
      (wDispatch_t1.ringCnt 37 = 0)) ∧
    ((wDispatch_b2.flag DISPATCH.DSP_STS_EVAL_BUSY = true) ∧ (500000 ≤ wDispatch_b2.dsp.e0 + 800000 + 120000 * max (ceilDiv
      wDispatch_b2.dsp.evalN 8) (ceilDiv (3 * wDispatch_b2.dsp.evalB.snd) 8))) ∧
    ((wDispatch_a.gstate = 2) ∧ (1 < wDispatch_a.fragN) ∧ (wDispatch_a.drives = true) ∧ ((wDispatch_a.atTime 63150000).now = 63150000) ∧
      (63150000 = wDispatch_a.dsp.e0 + 62000000 + 1000000 * wDispatch_a.me + 150000 * 1) ∧ (∀ (x y : Fin 2), (wDispatch_a.port ↑x ↑y).cur =
      none ∧ (wDispatch_a.port ↑x ↑y).queue = [] ∧ (wDispatch_a.port ↑x ↑y).till ≤ 63150000)) ∧
    ((wDispatch_a.flag DISPATCH.DSP_CFG_EN = true) ∧ (wDispatch_a.netHears { k := 1, p := 1 } = true) ∧ (wDispatch_pg.length = 1380) ∧ (byteAt
      wDispatch_pg 0 = 2) ∧ (byteAt wDispatch_pg 1 = 1) ∧ (crc32c (List.take 1376 wDispatch_pg) = leAt wDispatch_pg 1376 4) ∧ (byteAt
      wDispatch_pg 2 ≠ wDispatch_a.me) ∧ (leAt wDispatch_pg 8 4 = wDispatch_a.regN DISPATCH.DSP_GROUP) ∧ (byteAt wDispatch_pg 2 ≤ if
      wDispatch_a.straps.variantC = true then 3 else 15) ∧ (bitB (wDispatch_a.fld DISPATCH.DSP_MASK_CARS) (byteAt wDispatch_pg 2) = true) ∧
      (leAt wDispatch_pg 4 4 = epochNo 5000) ∧ (byteAt wDispatch_pg 3 % 16 < wDispatch_a.fragN) ∧ (5000 % 100000000 < 90000000) ∧ (∀ (x :
      RxFrag), x ∈ wDispatch_a.dsp.rx → x.car ≠ byteAt wDispatch_pg 2 ∨ x.frag ≠ byteAt wDispatch_pg 3 % 16)) ∧
    ((wDispatch_a.flag DISPATCH.DSP_CFG_EN = true) ∧ (wDispatch_a.netHears { k := 1, p := 1 } = true) ∧ (wDispatch_pb.length ≠ 1380 ∨ byteAt
      wDispatch_pb 0 ≠ 2 ∨ byteAt wDispatch_pb 1 ≠ 1 ∨ crc32c (List.take 1376 wDispatch_pb) ≠ leAt wDispatch_pb 1376 4)) ∧
    ((wDispatch_c.gstate = (4 : Nat)) ∧ ((90000000 : Nat) = wDispatch_c.dsp.e0 + (90000000 : Nat) ∧ ∀ (a : Nat × List AllocCh),
      wDispatch_c.dsp.alloc = some a → a.fst ≠ epochNo (90000000 : Nat)) ∧ (wDispatch_c.dsp.rx = []) ∧ (wDispatch_c.dsp.calls = [((5 : Nat),
      CallRec.mk (1 : Nat) (1 : Nat) CallRec.none.origin CallRec.none.dest CallRec.none.pax CallRec.none.flags CallRec.none.seqA
      CallRec.none.cost CallRec.none.epoch CallRec.none.bias CallRec.none.veto CallRec.none.listed)]) ∧ ((CallRec.mk (1 : Nat) (1 : Nat)
      CallRec.none.origin CallRec.none.dest CallRec.none.pax CallRec.none.flags CallRec.none.seqA CallRec.none.cost CallRec.none.epoch
      CallRec.none.bias CallRec.none.veto CallRec.none.listed).state = (1 : Nat)) ∧ ((CallRec.mk (1 : Nat) (1 : Nat) CallRec.none.origin
      CallRec.none.dest CallRec.none.pax CallRec.none.flags CallRec.none.seqA CallRec.none.cost CallRec.none.epoch CallRec.none.bias
      CallRec.none.veto CallRec.none.listed).holder = wDispatch_c.me)) ∧
    ((wDispatch_a.gstate = 2 ∨ wDispatch_a.gstate = 4) ∧ (90000000 = wDispatch_a.dsp.e0 + 90000000 ∧ ∀ (a : Nat × List AllocCh),
      wDispatch_a.dsp.alloc = some a → a.fst ≠ epochNo 90000000) ∧ (wDispatch_a.dsp.rx = []) ∧ (wDispatch_a.dsp.calls = [])) ∧
    ((wDispatch_e.gstate = 2 ∨ wDispatch_e.gstate = 4) ∧ (92000000 = wDispatch_e.dsp.e0 + 92000000) ∧ (wDispatch_e.dsp.rx = [{ car := 3, frag := 0, data := [], stamp := 7, nets := 1 }])) ∧
    (((wDispatch_a.call (2 * 1 + 0)).state = 0)) ∧
    (((wDispatch_a.call (2 * 1 + 0)).state = 0) ∧ (wDispatch_a.dsp.queue.length < 128)) ∧
    ((wDispatch_a.dsp.queue.length < 128)) ∧
    (((wDispatch_a.call (256 + 0)).state = 0)) ∧
    (((wDispatch_a.call (256 + 0)).state = 0) ∧ (wDispatch_a.dsp.queue.length < 128)) ∧
    (((wDispatch_f.call (256 + 0)).state ≠ 0)) ∧
    (((wDispatch_f.call (256 + 0)).state ≠ 0) ∧ (wDispatch_f.dsp.queue.length < 128)) ∧
    ((wDispatch_a.dsp.ops = []) ∧ (wDispatch_a.flag DISPATCH.DSP_CFG_EN = true) ∧ (wDispatch_a.mode = 6) ∧ (wDispatch_a.dsp.queue.length < 128)
      ∧ (bitsOf 66051 DISPATCH.CALL_WIN_ORIGIN.lo DISPATCH.CALL_WIN_ORIGIN.width ≤ wDispatch_a.fld SYS.CAPS_MAX_LANDING) ∧ (bitsOf 66051
      DISPATCH.CALL_WIN_DEST.lo DISPATCH.CALL_WIN_DEST.width ≤ wDispatch_a.fld SYS.CAPS_MAX_LANDING) ∧ (256 + 1 ≤ wDispatch_a.lastId) ∧
      (wDispatch_a.landingFlag (bitsOf 66051 DISPATCH.CALL_WIN_ORIGIN.lo DISPATCH.CALL_WIN_ORIGIN.width) 0 = true) ∧ (bitsOf 66051
      DISPATCH.CALL_WIN_DIR.lo DISPATCH.CALL_WIN_DIR.width = 0 → wDispatch_a.servedList.getLast? ≠ some (bitsOf 66051
      DISPATCH.CALL_WIN_ORIGIN.lo DISPATCH.CALL_WIN_ORIGIN.width)) ∧ (bitsOf 66051 DISPATCH.CALL_WIN_DIR.lo DISPATCH.CALL_WIN_DIR.width = 1
      → wDispatch_a.servedList.head? ≠ some (bitsOf 66051 DISPATCH.CALL_WIN_ORIGIN.lo DISPATCH.CALL_WIN_ORIGIN.width))) ∧
    ((wDispatch_a.dsp.ops = []) ∧ (wDispatch_a.flag DISPATCH.DSP_CFG_EN = true) ∧ (wDispatch_a.mode = 6) ∧ (wDispatch_a.dsp.queue.length < 128)
      ∧ (bitsOf 66051 DISPATCH.CALL_WIN_ORIGIN.lo DISPATCH.CALL_WIN_ORIGIN.width ≤ wDispatch_a.fld SYS.CAPS_MAX_LANDING) ∧ (bitsOf 66051
      DISPATCH.CALL_WIN_DEST.lo DISPATCH.CALL_WIN_DEST.width ≤ wDispatch_a.fld SYS.CAPS_MAX_LANDING) ∧ (256 + 1 ≤ wDispatch_a.lastId) ∧
      (wDispatch_a.landingFlag (bitsOf 66051 DISPATCH.CALL_WIN_ORIGIN.lo DISPATCH.CALL_WIN_ORIGIN.width) 0 = true) ∧
      (wDispatch_a.landingFlag (bitsOf 66051 DISPATCH.CALL_WIN_DEST.lo DISPATCH.CALL_WIN_DEST.width) 0 = true) ∧ (bitsOf 66051
      DISPATCH.CALL_WIN_DEST.lo DISPATCH.CALL_WIN_DEST.width ≠ bitsOf 66051 DISPATCH.CALL_WIN_ORIGIN.lo DISPATCH.CALL_WIN_ORIGIN.width) ∧
      (bitsOf 66051 DISPATCH.CALL_WIN_PAX.lo DISPATCH.CALL_WIN_PAX.width ≠ 0) ∧ ((1 % if wDispatch_a.narrow = true then 4 else 16) =
      wDispatch_a.me) ∧ ((wDispatch_a.call (256 + 1)).state = 0)) ∧
    ((wDispatch_a.dsp.ops = []) ∧ (wDispatch_a.flag DISPATCH.DSP_CFG_EN = true) ∧ (wDispatch_a.mode = 6) ∧ (wDispatch_a.dsp.queue.length < 128)
      ∧ (bitsOf 66051 DISPATCH.CALL_WIN_ORIGIN.lo DISPATCH.CALL_WIN_ORIGIN.width ≤ wDispatch_a.fld SYS.CAPS_MAX_LANDING) ∧ (bitsOf 66051
      DISPATCH.CALL_WIN_DEST.lo DISPATCH.CALL_WIN_DEST.width ≤ wDispatch_a.fld SYS.CAPS_MAX_LANDING) ∧ (256 + 1 ≤ wDispatch_a.lastId)) ∧
    ((wDispatch_f.dsp.ops = []) ∧ (wDispatch_f.flag DISPATCH.DSP_CFG_EN = true) ∧ (wDispatch_f.mode = 6) ∧ (wDispatch_f.dsp.queue.length < 128)
      ∧ (bitsOf 66051 DISPATCH.CALL_WIN_ORIGIN.lo DISPATCH.CALL_WIN_ORIGIN.width ≤ wDispatch_f.fld SYS.CAPS_MAX_LANDING) ∧ (bitsOf 66051
      DISPATCH.CALL_WIN_DEST.lo DISPATCH.CALL_WIN_DEST.width ≤ wDispatch_f.fld SYS.CAPS_MAX_LANDING) ∧ (256 + 0 ≤ wDispatch_f.lastId) ∧
      ((wDispatch_f.call (256 + 0)).state ≠ 0) ∧ ((wDispatch_f.call (256 + 0)).holder = wDispatch_f.me)) ∧
    ((wDispatch_a.dsp.ops = []) ∧ (wDispatch_a.flag DISPATCH.DSP_CFG_EN = true) ∧ (wDispatch_a.mode = 6) ∧ (wDispatch_a.dsp.queue.length < 128)
      ∧ (bitsOf 66051 DISPATCH.CALL_WIN_ORIGIN.lo DISPATCH.CALL_WIN_ORIGIN.width ≤ wDispatch_a.fld SYS.CAPS_MAX_LANDING) ∧ (bitsOf 66051
      DISPATCH.CALL_WIN_DEST.lo DISPATCH.CALL_WIN_DEST.width ≤ wDispatch_a.fld SYS.CAPS_MAX_LANDING) ∧ (256 + 1 ≤ wDispatch_a.lastId) ∧
      (wDispatch_a.landingFlag (bitsOf 66051 DISPATCH.CALL_WIN_ORIGIN.lo DISPATCH.CALL_WIN_ORIGIN.width) 0 = true) ∧ (wDispatch_a.dsp.calls
      = []) ∧ (wDispatch_a.dsp.cars = [])) ∧
    ((wDispatch_a.dsp.ops = []) ∧ (wDispatch_a.flag DISPATCH.DSP_CFG_EN = true) ∧ (wDispatch_a.mode = 6) ∧ (wDispatch_a.dsp.queue.length < 128)
      ∧ (bitsOf 66051 DISPATCH.CALL_WIN_ORIGIN.lo DISPATCH.CALL_WIN_ORIGIN.width ≤ wDispatch_a.fld SYS.CAPS_MAX_LANDING) ∧ (bitsOf 66051
      DISPATCH.CALL_WIN_DEST.lo DISPATCH.CALL_WIN_DEST.width ≤ wDispatch_a.fld SYS.CAPS_MAX_LANDING) ∧ (256 + 1 ≤ wDispatch_a.lastId) ∧
      (wDispatch_a.landingFlag (bitsOf 66051 DISPATCH.CALL_WIN_ORIGIN.lo DISPATCH.CALL_WIN_ORIGIN.width) 0 = true)) ∧
    ((false = false ∨ wDispatch_e.regN DISPATCH.DSP_V ≠ 0 ∧ wDispatch_e.regN DISPATCH.DSP_A ≠ 0 ∧ wDispatch_e.regN DISPATCH.DSP_J ≠ 0 ∧
      wDispatch_e.fld DISPATCH.DSP_CFG_NET ≠ 0 ∧ bitB (wDispatch_e.fld DISPATCH.DSP_MASK_CARS) wDispatch_e.me = true ∧ bitB
      (wDispatch_e.regN DISPATCH.DSP_MAC_HI) 8 = true)) := by
  refine ⟨?_, ?_, ?_, ?_, ?_, ?_, ?_, ?_, ?_, ?_, ?_, ?_, ?_, ?_, ?_, ?_, ?_, ?_, ?_, ?_, ?_, ?_, ?_, ?_⟩ <;> decide +kernel

/-! ### SafeResults -/

def wSafe_a : State := wup (wst [(SAFE.SPD_CFG_EN 1, 1), (SAFE.SPD_CFG_FILT 1, 1)])
def wSafe_b : State := wSafe_a.setMon 1 { MonSt.reset with started := true, cRest := 65535 }
def wSafe_c : State := { State.reset with laneB := { LaneSt.reset with clkLost := true } }
def wSafe_d : State := wrg (wst [(SYS.MODE_MODE, 6), (SAFE.SPD_CFG_EN 0, 1), (SAFE.SPD_CFG_EN 1, 1), (SAFE.SPD_CFG_EN 2, 1), (SAFE.IN_EN 0
  0, 1), (SAFE.IN_EN 0 2, 1), (SAFE.IN_EN 0 7, 1), (SAFE.IN_EN 1 0, 1), (SAFE.IN_EN 1 2, 1), (SAFE.IN_EN 1 7, 1), (SAFE.IN_EN 2 0, 1),
  (SAFE.IN_EN 2 2, 1), (SAFE.IN_EN 2 7, 1)]) [(SAFE.SPD_SCALE 0, 256), (SAFE.SPD_SCALE 1, 256), (SAFE.SPD_SCALE 2, 256), (SAFE.OS_NORM 0,
  1), (SAFE.OS_INSP 0, 1), (SAFE.OS_RESC 0, 1), (SAFE.OS_NORM 1, 1), (SAFE.OS_INSP 1, 1), (SAFE.OS_RESC 1, 1), (SAFE.OS_NORM 2, 1),
  (SAFE.OS_INSP 2, 1), (SAFE.OS_RESC 2, 1), (SAFE.IN_LVL 0, 128), (SAFE.IN_LVL 1, 128), (SAFE.IN_LVL 2, 128)]
def wSafe_e : State := ((wSafe_d.setFld (SAFE.STS_ARMED 0) 1).setFld (SAFE.STS_ARMED 1) 1).setFld (SAFE.STS_ARMED 2) 1
def wSafe_f : State := ((wSafe_e.setFld (SAFE.STS_AT_REST 0) 1).setFld (SAFE.STS_AT_REST 1) 1).setFld (SAFE.STS_AT_REST 2) 1

/-- States and operands that meet the hypotheses of Obligations.SafeResults, clause by clause. -/
theorem test_witness_safe_results :
    (((wSafe_a.atTime 50000).monDue 1 = true) ∧ (wSafe_a.flag (SAFE.STS_ARMED 1) = false)) ∧
    (((wSafe_c.atTime 50000).monDue 1 = false)) ∧
    ((wSafe_b.monRuns 1 = true) ∧ (wSafe_b.fld (SAFE.REST_REST_T 1) * 20 ≤ (wSafe_b.mon 1).cRest)) ∧
    ((4 ≤ wSafe_d.mode) ∧ (∀ (k : Lane), wSafe_d.armOk ↑k = true) ∧ (wSafe_d.voters = [0, 1, 2])) ∧
    ((wSafe_a.mode ≤ 3) ∧ (wSafe_a.voters = [0, 1, 2])) ∧
    ((wSafe_e.mode = 6) ∧ (∀ (k : Lane), wSafe_e.flag (SAFE.STS_ARMED ↑k) = true) ∧ (wSafe_e.voters = [0, 1, 2])) ∧
    ((∀ (k : Lane), wSafe_f.safeResetOk ↑k = true) ∧ (wSafe_f.voters = [0, 1, 2])) ∧
    ((∀ (k : Lane), wSafe_e.releaseOk ↑k = true) ∧ (wSafe_e.voters = [0, 1, 2])) := by
  refine ⟨?_, ?_, ?_, ?_, ?_, ?_, ?_, ?_⟩ <;> decide +kernel

/-! ### LlpResults -/

def wLlp_a : State := wst [(LLP.CFG_EN, 1), (LLP.STS_TIME_OK, 1), (LLP.CFG_HEART_EN, 1), (NET.PORT_CFG_EN 0 0, 1), (NET.PORT_CFG_EN 1 1, 1)]
def wLlp_b : State := wrg wLlp_a [(LLP.NODE_EN 0, 0xFF)]
def wLlp_b0 : List Byte := [1, 1, 3, 8, 7, 0, 1, 0, 0, 0, 0, 0, 0, 0, 0, 0, 9, 9, 9, 9, 9, 9, 9, 9]
def wLlp_b1 : List Byte := [1, 1, 3, 8, 7, 0] ++ leBytes 2 (wLlp_a.fld LLP.CYCLE_CYCLE) ++ [0, 0, 0, 0, 0, 0, 0, 0, 9, 9, 9, 9, 9, 9, 9, 9]
def wLlp_pg : List Byte := wLlp_b1 ++ leBytes 4 (wLlp_a.llpCrc true wLlp_b1)
def wLlp_c2 : State := wLlp_b.onStream 3 1 fun x => { x with held := some ⟨7, false, wLlp_b1, 5, 1000000⟩ }
def wLlp_d : State := (wLlp_b.onStream 3 1 fun x => { x with last := some 4, stamp := 0, past := true }).setFld (LLP.NODE_STATE 3) 2

/-- States and operands that meet the hypotheses of Obligations.LlpResults, clause by clause. -/
theorem test_witness_llp_results :
    ((wLlp_a.now ≤ (128 + wLlp_a.fld LLP.CFG_NODE) * (wLlp_a.fld LLP.CYCLE_CYCLE / 136) * 1000) ∧ ((wLlp_a.atTime ((128 + wLlp_a.fld
      LLP.CFG_NODE) * (wLlp_a.fld LLP.CYCLE_CYCLE / 136) * 1000)).llpSlotNow = true) ∧ (wLlp_a.flag LLP.CFG_EN = true) ∧ (wLlp_a.flag
      LLP.STS_TIME_OK = true) ∧ (wLlp_a.fld SYS.PWR_STS_STATE ≤ 2) ∧ (wLlp_a.flag LLP.CFG_HEART_EN = true) ∧ (wLlp_a.ringCnt 10 = 0) ∧ (∀ (k
      q : Fin 2), wLlp_a.flag (NET.PORT_CFG_EN ↑k ↑q) = true → (wLlp_a.port ↑k ↑q).cur = none ∧ (wLlp_a.port ↑k ↑q).queue = [] ∧
      (wLlp_a.port ↑k ↑q).till ≤ (128 + wLlp_a.fld LLP.CFG_NODE) * (wLlp_a.fld LLP.CYCLE_CYCLE / 136) * 1000)) ∧
    (((wLlp_a.flag LLP.CFG_EN = true ∧ wLlp_a.flag LLP.STS_TIME_OK = true) ∧ wLlp_a.netHears (NetPort.mk (0 : Fin (2 : Nat)) (0 : Fin (2 :
      Nat))) = true) ∧ ((20 : Nat) + byteAt (wLlp_b0 ++ [(0 : Byte), (0 : Byte), (0 : Byte), (0 : Byte)]) (3 : Nat) ≤ (wLlp_b0 ++ [(0 :
      Byte), (0 : Byte), (0 : Byte), (0 : Byte)]).length) ∧ (wLlp_a.llpCrc ((NetPort.mk (0 : Fin (2 : Nat)) (0 : Fin (2 : Nat))).k == (1 :
      Fin (2 : Nat))) (List.take ((16 : Nat) + byteAt (wLlp_b0 ++ [(0 : Byte), (0 : Byte), (0 : Byte), (0 : Byte)]) (3 : Nat)) (wLlp_b0 ++
      [(0 : Byte), (0 : Byte), (0 : Byte), (0 : Byte)])) ≠ leAt (wLlp_b0 ++ [(0 : Byte), (0 : Byte), (0 : Byte), (0 : Byte)]) ((16 : Nat) +
      byteAt (wLlp_b0 ++ [(0 : Byte), (0 : Byte), (0 : Byte), (0 : Byte)]) (3 : Nat)) (4 : Nat))) ∧
    (((wLlp_b.flag LLP.CFG_EN = true ∧ wLlp_b.flag LLP.STS_TIME_OK = true) ∧ wLlp_b.netHears (NetPort.mk (1 : Fin (2 : Nat)) (1 : Fin (2 :
      Nat))) = true) ∧ (wLlp_b.flag LLP.CFG_RAW_EN = false) ∧ ((20 : Nat) + byteAt wLlp_pg (3 : Nat) ≤ wLlp_pg.length ∧ wLlp_b.llpCrc
      ((NetPort.mk (1 : Fin (2 : Nat)) (1 : Fin (2 : Nat))).k == (1 : Fin (2 : Nat))) (List.take ((16 : Nat) + byteAt wLlp_pg (3 : Nat))
      wLlp_pg) = leAt wLlp_pg ((16 : Nat) + byteAt wLlp_pg (3 : Nat)) (4 : Nat)) ∧ (byteAt wLlp_pg (0 : Nat) = (1 : Nat) ∧ byteAt wLlp_pg (3
      : Nat) = (8 : Nat) ∧ byteAt wLlp_pg (2 : Nat) < (128 : Nat) ∨ byteAt wLlp_pg (0 : Nat) = (2 : Nat) ∧ byteAt wLlp_pg (3 : Nat) = (16 :
      Nat) ∧ (128 : Nat) ≤ byteAt wLlp_pg (2 : Nat) ∨ byteAt wLlp_pg (0 : Nat) = (3 : Nat) ∧ (8 : Nat) ≤ byteAt wLlp_pg (3 : Nat) ∧ byteAt
      wLlp_pg (3 : Nat) ≤ (64 : Nat) ∧ byteAt wLlp_pg (3 : Nat) % (4 : Nat) = (0 : Nat)) ∧ (byteAt wLlp_pg (1 : Nat) = (1 : Nat)) ∧ (leAt
      wLlp_pg (6 : Nat) (2 : Nat) = wLlp_b.fld LLP.CYCLE_CYCLE) ∧ (byteAt wLlp_pg (2 : Nat) < (136 : Nat)) ∧ (wLlp_b.nodeOn (byteAt wLlp_pg
      (2 : Nat)) = true) ∧ (byteAt wLlp_pg (2 : Nat) ≠ (128 : Nat) + wLlp_b.fld LLP.CFG_NODE) ∧ ((wLlp_b.atTime (50000 : Nat)).now ≤
      (wLlp_b.atTime (50000 : Nat)).pduStamp wLlp_pg + wLlp_b.fld LLP.AGE_MAX_AGE * (1000 : Nat)) ∧ ((wLlp_b.atTime (50000 : Nat)).pduStamp
      wLlp_pg ≤ (wLlp_b.atTime (50000 : Nat)).now + (200000 : Nat))) ∧
    (((wLlp_b.flag LLP.CFG_EN = true ∧ wLlp_b.flag LLP.STS_TIME_OK = true) ∧ wLlp_b.netHears (NetPort.mk (1 : Fin (2 : Nat)) (1 : Fin (2 :
      Nat))) = true) ∧ (wLlp_b.flag LLP.CFG_RAW_EN = false) ∧ ((20 : Nat) + byteAt wLlp_pg (3 : Nat) ≤ wLlp_pg.length ∧ wLlp_b.llpCrc
      ((NetPort.mk (1 : Fin (2 : Nat)) (1 : Fin (2 : Nat))).k == (1 : Fin (2 : Nat))) (List.take ((16 : Nat) + byteAt wLlp_pg (3 : Nat))
      wLlp_pg) = leAt wLlp_pg ((16 : Nat) + byteAt wLlp_pg (3 : Nat)) (4 : Nat)) ∧ (byteAt wLlp_pg (0 : Nat) = (1 : Nat) ∧ byteAt wLlp_pg (3
      : Nat) = (8 : Nat) ∧ byteAt wLlp_pg (2 : Nat) < (128 : Nat) ∨ byteAt wLlp_pg (0 : Nat) = (2 : Nat) ∧ byteAt wLlp_pg (3 : Nat) = (16 :
      Nat) ∧ (128 : Nat) ≤ byteAt wLlp_pg (2 : Nat) ∨ byteAt wLlp_pg (0 : Nat) = (3 : Nat) ∧ (8 : Nat) ≤ byteAt wLlp_pg (3 : Nat) ∧ byteAt
      wLlp_pg (3 : Nat) ≤ (64 : Nat) ∧ byteAt wLlp_pg (3 : Nat) % (4 : Nat) = (0 : Nat)) ∧ (byteAt wLlp_pg (1 : Nat) = (1 : Nat)) ∧ (leAt
      wLlp_pg (6 : Nat) (2 : Nat) = wLlp_b.fld LLP.CYCLE_CYCLE) ∧ (byteAt wLlp_pg (2 : Nat) < (136 : Nat)) ∧ (wLlp_b.nodeOn (byteAt wLlp_pg
      (2 : Nat)) = true) ∧ (byteAt wLlp_pg (2 : Nat) ≠ (128 : Nat) + wLlp_b.fld LLP.CFG_NODE) ∧ ((wLlp_b.atTime (50000 : Nat)).now ≤
      (wLlp_b.atTime (50000 : Nat)).pduStamp wLlp_pg + wLlp_b.fld LLP.AGE_MAX_AGE * (1000 : Nat)) ∧ ((wLlp_b.atTime (50000 : Nat)).pduStamp
      wLlp_pg ≤ (wLlp_b.atTime (50000 : Nat)).now + (200000 : Nat)) ∧ (∀ (a : Nat), (wLlp_b.stream (byteAt wLlp_pg (2 : Nat)) (byteAt
      wLlp_pg (0 : Nat))).last = some a → (1 : Nat) ≤ (leAt wLlp_pg (4 : Nat) (2 : Nat) + (65536 : Nat) - a % (65536 : Nat)) % (65536 : Nat)
      ∧ (leAt wLlp_pg (4 : Nat) (2 : Nat) + (65536 : Nat) - a % (65536 : Nat)) % (65536 : Nat) ≤ (32767 : Nat)) ∧ ((wLlp_b.stream (byteAt
      wLlp_pg (2 : Nat)) (byteAt wLlp_pg (0 : Nat))).held = none)) ∧
    (((wLlp_c2.flag LLP.CFG_EN = true ∧ wLlp_c2.flag LLP.STS_TIME_OK = true) ∧ wLlp_c2.netHears (NetPort.mk (1 : Fin (2 : Nat)) (1 : Fin (2 :
      Nat))) = true) ∧ (wLlp_c2.flag LLP.CFG_RAW_EN = false) ∧ ((20 : Nat) + byteAt wLlp_pg (3 : Nat) ≤ wLlp_pg.length ∧ wLlp_c2.llpCrc
      ((NetPort.mk (1 : Fin (2 : Nat)) (1 : Fin (2 : Nat))).k == (1 : Fin (2 : Nat))) (List.take ((16 : Nat) + byteAt wLlp_pg (3 : Nat))
      wLlp_pg) = leAt wLlp_pg ((16 : Nat) + byteAt wLlp_pg (3 : Nat)) (4 : Nat)) ∧ (byteAt wLlp_pg (0 : Nat) = (1 : Nat) ∧ byteAt wLlp_pg (3
      : Nat) = (8 : Nat) ∧ byteAt wLlp_pg (2 : Nat) < (128 : Nat) ∨ byteAt wLlp_pg (0 : Nat) = (2 : Nat) ∧ byteAt wLlp_pg (3 : Nat) = (16 :
      Nat) ∧ (128 : Nat) ≤ byteAt wLlp_pg (2 : Nat) ∨ byteAt wLlp_pg (0 : Nat) = (3 : Nat) ∧ (8 : Nat) ≤ byteAt wLlp_pg (3 : Nat) ∧ byteAt
      wLlp_pg (3 : Nat) ≤ (64 : Nat) ∧ byteAt wLlp_pg (3 : Nat) % (4 : Nat) = (0 : Nat)) ∧ (byteAt wLlp_pg (1 : Nat) = (1 : Nat)) ∧ (leAt
      wLlp_pg (6 : Nat) (2 : Nat) = wLlp_c2.fld LLP.CYCLE_CYCLE) ∧ (byteAt wLlp_pg (2 : Nat) < (136 : Nat)) ∧ (wLlp_c2.nodeOn (byteAt
      wLlp_pg (2 : Nat)) = true) ∧ (byteAt wLlp_pg (2 : Nat) ≠ (128 : Nat) + wLlp_c2.fld LLP.CFG_NODE) ∧ ((wLlp_c2.atTime (50000 : Nat)).now
      ≤ (wLlp_c2.atTime (50000 : Nat)).pduStamp wLlp_pg + wLlp_c2.fld LLP.AGE_MAX_AGE * (1000 : Nat)) ∧ ((wLlp_c2.atTime (50000 :
      Nat)).pduStamp wLlp_pg ≤ (wLlp_c2.atTime (50000 : Nat)).now + (200000 : Nat)) ∧ (∀ (a : Nat), (wLlp_c2.stream (byteAt wLlp_pg (2 :
      Nat)) (byteAt wLlp_pg (0 : Nat))).last = some a → (1 : Nat) ≤ (leAt wLlp_pg (4 : Nat) (2 : Nat) + (65536 : Nat) - a % (65536 : Nat)) %
      (65536 : Nat) ∧ (leAt wLlp_pg (4 : Nat) (2 : Nat) + (65536 : Nat) - a % (65536 : Nat)) % (65536 : Nat) ≤ (32767 : Nat)) ∧
      ((wLlp_c2.stream (byteAt wLlp_pg (2 : Nat)) (byteAt wLlp_pg (0 : Nat))).held = some (HeldCopy.mk (7 : Nat) false wLlp_b1 (5 : Nat)
      (1000000 : Nat))) ∧ ((wLlp_c2.atTime (50000 : Nat)).now < (HeldCopy.mk (7 : Nat) false wLlp_b1 (5 : Nat) (1000000 : Nat)).expiry) ∧
      ((HeldCopy.mk (7 : Nat) false wLlp_b1 (5 : Nat) (1000000 : Nat)).seq = leAt wLlp_pg (4 : Nat) (2 : Nat)) ∧ ((HeldCopy.mk (7 : Nat)
      false wLlp_b1 (5 : Nat) (1000000 : Nat)).net ≠ ((NetPort.mk (1 : Fin (2 : Nat)) (1 : Fin (2 : Nat))).k == (1 : Fin (2 : Nat)))) ∧
      ((HeldCopy.mk (7 : Nat) false wLlp_b1 (5 : Nat) (1000000 : Nat)).data = List.take ((16 : Nat) + byteAt wLlp_pg (3 : Nat)) wLlp_pg)) ∧
    (((wLlp_c2.stream (3 : Nat) (1 : Nat)).held = some (HeldCopy.mk (7 : Nat) false wLlp_b1 (5 : Nat) (1000000 : Nat))) ∧ (wLlp_c2.flag
      LLP.CFG_EN = true ∧ wLlp_c2.flag LLP.STS_TIME_OK = true) ∧ ((HeldCopy.mk (7 : Nat) false wLlp_b1 (5 : Nat) (1000000 : Nat)).expiry ≤
      (wLlp_c2.atTime (2000000 : Nat)).now)) ∧
    (((wLlp_c2.stream (3 : Nat) (1 : Nat)).held = some (HeldCopy.mk (7 : Nat) false wLlp_b1 (5 : Nat) (1000000 : Nat))) ∧ ((wLlp_c2.atTime
      (50000 : Nat)).now < (HeldCopy.mk (7 : Nat) false wLlp_b1 (5 : Nat) (1000000 : Nat)).expiry)) ∧
    ((wLlp_d.nodeOn 3 = true) ∧ (1 ≤ 1) ∧ (((wLlp_d.stream 3 1).prev ≠ none ∨ (wLlp_d.stream 3 1).past = true) ∧ (wLlp_d.stream 3 1).lost =
      false ∧ (wLlp_d.stream 3 1).stamp + wLlp_d.lostAfter < (wLlp_d.atTime 2000000000).now) ∧ (∀ (k : Fin 4), k ≠ 1 → ¬(((wLlp_d.stream 3
      ↑k).prev ≠ none ∨ (wLlp_d.stream 3 ↑k).past = true) ∧ (wLlp_d.stream 3 ↑k).lost = false ∧ (wLlp_d.stream 3 ↑k).stamp +
      wLlp_d.lostAfter < (wLlp_d.atTime 2000000000).now))) := by
  refine ⟨?_, ?_, ?_, ?_, ?_, ?_, ?_, ?_⟩ <;> decide +kernel

/-! ### FieldEvents -/

def wFieldEvents_a : State := wup (wst [(FIELD.CH_CFG_MODE 40, 1), (FIELD.CH_STS_VALID 40, 1), (FIELD.CH_CFG_PER_EN 40, 1),
  (FIELD.CH_CFG_WB_EN 40, 1), (FIELD.CH_CFG_CNT 40, 3), (FIELD.CH_CFG_MODE 6, 2), (FIELD.CH_STS_SW 6, 1)])
def wFieldEvents_b : State := (wFieldEvents_a.setFld (FIELD.CH_CFG_CHG_EV 40) 1).setFld (FIELD.CH_STS_SW 6) 0
def wFieldEvents_b2 : State := { wFieldEvents_b with field := { FieldSt.reset with ch := [(6, { ChSt.reset with hi := 1, swAt := 2000000000 }), (40, { ChSt.reset with edge := some 10 })] } }
def wFieldEvents_g7 : State := wFieldEvents_a.setFld (FIELD.CH_STS_TCYC 6) 7
def wFieldEvents_u1 : State := { wFieldEvents_a.setFld (FIELD.DIE_STS_UVL 1) 0 with field := { FieldSt.reset with die := [(1, { DieSt.reset with up := some 0, low := some 5 })] } }
def wFieldEvents_u2 : State := { wFieldEvents_a.setFld (FIELD.DIE_STS_VF_OK 1) 0 with field := { FieldSt.reset with die := [(1, { DieSt.reset with up := some 0, hi17 := some 5 })] } }
def wFieldEvents_f1 : State := { wup (wst [(FIELD.CH_CFG_MODE 6, 2), (FIELD.CH_STS_SW 6, 1), (FIELD.CH_TEST_OFF_EN 6, 1), (FIELD.CH_TEST_INTERVAL 6, 2), (FIELD.CH_TEST_OFF_W 6, 3)]) with field := { FieldSt.reset with ch := [(6, { ChSt.reset with due := some 500, gate := true })] } }
def wFieldEvents_f2 : State := { wup (wst [(FIELD.CH_CFG_MODE 6, 2)]) with field := { FieldSt.reset with ch := [(6, { ChSt.reset with pulse := some ⟨false, 5, 900⟩ })], die := [(0, { DieSt.reset with up := some 0, good := [(2, 15)] })] } }
def wFieldEvents_f3 : State := wFieldEvents_f2.setFld (FIELD.DIE_STS_LINK 0) 4
def wFieldEvents_f4 : State := { wup (wrg (wst [(FIELD.CH_CFG_MODE 6, 2), (LEDGER.CFG_WAIT_MAX, 0)]) []) with field := { FieldSt.reset with die := [(0, { DieSt.reset with qs := [(6, 10)] })] } }

/-- States and operands that meet the hypotheses of Obligations.FieldEvents, clause by clause. -/
theorem test_witness_field_events :
    ((wFieldEvents_a.chMode 40 = 1) ∧ ((wFieldEvents_a.atTime 2030000000).dieUp (dieOf 40) = true) ∧ (500 + wFieldEvents_a.fld
      (FIELD.CH_CFG_FILT 40) * 10000 ≤ (wFieldEvents_a.atTime 2030000000).now) ∧ (wFieldEvents_a.flag (FIELD.CH_STS_VALID 40) = true) ∧
      ((true != wFieldEvents_a.flag (FIELD.CH_CFG_POL 40)) ≠ wFieldEvents_a.flag (FIELD.CH_STS_IN 40)) ∧ (wFieldEvents_a.fld
      (FIELD.CH_CFG_CAP 40) = 0)) ∧
    ((wFieldEvents_a.flag (FIELD.CH_STS_VALID 40) = true) ∧ ((wFieldEvents_a.atTime 2030000000).dieUp (dieOf 40) = true) ∧ (500 +
      wFieldEvents_a.fld (FIELD.CH_CFG_CFILT 40) * 25 ≤ (wFieldEvents_a.atTime 2030000000).now)) ∧
    ((wFieldEvents_a.chMode 40 = 1) ∧ (wFieldEvents_a.flag (FIELD.CH_CFG_WB_EN 40) = true) ∧ (wFieldEvents_a.flag (FIELD.CH_STS_WB 40) ≠ true) ∧
      ((wFieldEvents_a.atTime 2030000000).dieUp (dieOf 40) = true) ∧ (500 + 20000000 ≤ (wFieldEvents_a.atTime 2030000000).now)) ∧
    ((wFieldEvents_a.chMode 6 = 2) ∧ (wFieldEvents_a.flag (FIELD.CH_STS_SW 6) = true) ∧ (wFieldEvents_a.flag (FIELD.CH_STS_STG 6) = false) ∧
      ((wFieldEvents_a.atTime 2030000000).dieUp (dieOf 6) = true) ∧ (500 + 1000000 ≤ (wFieldEvents_a.atTime 2030000000).now) ∧
      ((wFieldEvents_a.ch 6).swAt + 1000000 ≤ (wFieldEvents_a.atTime 2030000000).now) ∧ (∀ (a : Nat), (wFieldEvents_a.ch
      (wFieldEvents_a.headOf 6)).adm = some a → a + wFieldEvents_a.fld (LEDGER.DECL_T_T (if wFieldEvents_a.pairKind (wFieldEvents_a.headOf
      6) = 1 then wFieldEvents_a.headOf 6 else 6)) * 250000 + 1000000 ≤ (wFieldEvents_a.atTime 2030000000).now)) ∧
    ((wFieldEvents_a.flag (FIELD.CH_STS_SW 6) = true) ∧ ((wFieldEvents_a.ch (wFieldEvents_a.testHead 6)).pulse = none) ∧ (wFieldEvents_a.fld
      (FIELD.CH_STS_TCYC 6) < 7)) ∧
    ((wFieldEvents_g7.flag (FIELD.CH_STS_SW 6) = true) ∧ (wFieldEvents_g7.fld (FIELD.CH_STS_TCYC 6) = 7)) ∧
    ((wFieldEvents_a.flag (FIELD.CH_STS_SW 6) = true) ∧ ((wFieldEvents_a.ch 6).swAt + 1000000000 ≤ (wFieldEvents_a.atTime 2030000000).now)) ∧
    ((wFieldEvents_b2.chMode 6 = 2) ∧ (wFieldEvents_b2.flag (FIELD.CH_STS_SW 6) = false) ∧ (wFieldEvents_b2.isQueued (wFieldEvents_b2.headOf 6)
      = false) ∧ (wFieldEvents_b2.fld SYS.PWR_STS_STATE < 3) ∧ ((wFieldEvents_b2.ch 6).swAt + 15000000 ≤ (wFieldEvents_b2.atTime
      2030000000).now) ∧ (((wFieldEvents_b2.atTime 2030000000).now - (wFieldEvents_b2.ch 6).swAt) % 5000000 = 0) ∧ ((wFieldEvents_b2.ch
      6).source = false) ∧ ((wFieldEvents_b2.ch 6).hi = 1) ∧ ((wFieldEvents_b2.ch 6).hit < 2) ∧ ((wFieldEvents_b2.ch 6).miss < 2) ∧
      (wFieldEvents_b2.flag (FIELD.CH_STS_STV 6) = false) ∧ (wFieldEvents_b2.flag (FIELD.CH_STS_STG 6) = false)) ∧
    (((wFieldEvents_a.atTime 2030000000).dieUp 1 = true) ∧ (-500 ≤ 24000)) ∧
    (((State.reset.atTime 1000).dieUp 0 = false)) ∧
    (((wFieldEvents_u1.atTime 2030000000).dieUp 1 = true) ∧ (((wFieldEvents_u1.atTime 2030000000).dieSync 1).flag (FIELD.DIE_STS_UVL 1) = false)
      ∧ ((((wFieldEvents_u1.atTime 2030000000).dieSync 1).die 1).low = some 5) ∧ (5 + 2000000 < (wFieldEvents_u1.atTime 2030000000).now)) ∧
    (((wFieldEvents_u2.atTime 2030000000).dieUp 1 = true) ∧ (((wFieldEvents_u2.atTime 2030000000).dieSync 1).flag (FIELD.DIE_STS_VF_OK 1) =
      false) ∧ ((((wFieldEvents_u2.atTime 2030000000).dieSync 1).die 1).hi17 = some 5) ∧ (5 + 20000000 ≤ (wFieldEvents_u2.atTime
      2030000000).now)) ∧
    ((wFieldEvents_f1.fld SYS.PWR_STS_STATE < 3) ∧ (2100000 % 1000000 = 100000) ∧ (∀ (m : Nat), m < 32 → m ≠ 6 → (wFieldEvents_f1.ch m).due =
      none) ∧ ((wFieldEvents_f1.ch 6).due = some 500) ∧ (500 ≤ 2100000 - 100000) ∧ ((wFieldEvents_f1.atTime 2100000).dieUp (dieOf 6) = true)
      ∧ (wFieldEvents_f1.isQueued (wFieldEvents_f1.headOf 6) = false) ∧ ((wFieldEvents_f1.atTime 2100000).testKind 6 2100000 = some false)) ∧
    (((wFieldEvents_f2.ch (wFieldEvents_f2.testHead (6 : Nat))).pulse = some (Pulse.mk false (5 : Nat) (900 : Nat))) ∧ ((Pulse.mk false (5 :
      Nat) (900 : Nat)).on = false) ∧ ((Pulse.mk false (5 : Nat) (900 : Nat)).stop ≤ (wFieldEvents_f2.atTime (2100000 : Nat)).now)) ∧
    ((wFieldEvents_f4.now ≤ 250000) ∧ (250000 % 250000 = 0) ∧ (wFieldEvents_f4.field.slotAt ≠ some 250000) ∧ ((wFieldEvents_f4.atTime
      250000).edgeWaits = false) ∧ ((wFieldEvents_f4.atTime 250000).dieUp (dieOf 6) = true) ∧ (wFieldEvents_f4.fld SYS.PWR_STS_STATE ≠ 3) ∧
      ((wFieldEvents_f4.die (dieOf 6)).qs = [(6, 10)]) ∧ (∀ (j : Fin 2), (wFieldEvents_f4.die ↑j).qo = [] ∧ wFieldEvents_f4.admitted ↑j = []
      ∧ (↑j ≠ dieOf 6 → (wFieldEvents_f4.die ↑j).qs = [])) ∧ (wFieldEvents_f4.fld LEDGER.CFG_WAIT_MAX = 0) ∧ ((wFieldEvents_f4.atTime
      250000).fits 6 (wFieldEvents_f4.members 6) 250000 = true)) ∧
    (((wFieldEvents_a.atTime 2030000000).dieUp 1 = true)) ∧
    (((wFieldEvents_f3.atTime 2100000).dieUp 0 = true) ∧ (bitB (((wFieldEvents_f3.atTime 2100000).dieSync 0).fld (FIELD.DIE_STS_LINK 0)) 2 =
      true) ∧ (mget zeroNat (((wFieldEvents_f3.atTime 2100000).dieSync 0).die 0).good 2 = 15)) ∧
    (((wFieldEvents_u1.atTime 2030000000).dieUp 1 = true) ∧ (wFieldEvents_u1.fld SYS.PWR_STS_STATE ≠ 3) ∧ (bitB (((wFieldEvents_u1.atTime
      2030000000).dieSync 1).fld (FIELD.DIE_STS_LINK 1)) 0 = false) ∧ (max (mget zeroNat (((wFieldEvents_u1.atTime 2030000000).dieSync
      1).die 1).heard 0) ((((wFieldEvents_u1.atTime 2030000000).dieSync 1).die 1).up.getD 0) + 1000000 ≤ (wFieldEvents_u1.atTime
      2030000000).now)) := by
  refine ⟨?_, ?_, ?_, ?_, ?_, ?_, ?_, ?_, ?_, ?_, ?_, ?_, ?_, ?_, ?_, ?_, ?_, ?_⟩ <;> decide +kernel

/-! ### FieldCommits -/

def wFieldCommits_a : State := wst [(FIELD.CH_CFG_MODE 6, 2), (FIELD.DIE_STS_VF_OK 1, 1), (FIELD.DIE_STS_UVL 1, 1)]
def wFieldCommits_b : State := { (wFieldCommits_a.setFld (FIELD.CH_OUT_ON 6) 1) with field := { wFieldCommits_a.field with ch := [(6, { ChSt.reset with gate := true })] } }

/-- States and operands that meet the hypotheses of Obligations.FieldCommits, clause by clause. -/
theorem test_witness_field_commits :
    ((wFieldCommits_a.isSecond 6 = false) ∧ (wFieldCommits_a.chMode 6 = 2)) ∧
    ((wFieldCommits_a.isSecond 6 = false)) ∧
    (((wFieldCommits_a.ch (wFieldCommits_a.headOf 6)).gate = false ∨ wFieldCommits_a.flag (FIELD.CH_OUT_ON (wFieldCommits_a.headOf 6)) = false)) ∧
    ((wFieldCommits_b.isSecond 6 = false) ∧ ((wFieldCommits_b.ch 6).gate = true) ∧ (wFieldCommits_b.flag (FIELD.CH_OUT_ON 6) = true)) ∧
    ((wFieldCommits_a.flag (FIELD.DIE_STS_VF_OK 1) = true) ∧ (wFieldCommits_a.flag (FIELD.DIE_STS_REV 1) = false)) ∧
    ((wFieldCommits_a.flag (FIELD.DIE_STS_VF_OK 0) = false)) := by
  refine ⟨?_, ?_, ?_, ?_, ?_, ?_⟩ <;> decide +kernel

/-! ### PtpReceiveResults -/

def wPtpReceive_z : State := { (wst [(NET.PTP_CFG_EN 0, 1), (NET.PORT_CFG_EN 0 0, 1), (NET.PTP_CFG_ROLE 0, 2), (NET.PTP_CFG_ANN_TO 0, 3), (NET.PTP_CFG_DOMAIN 0, 5), (NET.LAT_INGRESS 0 0, 100)]) with now := 5000000, sys := { SysSt.reset with phase := 2 } }
def wPtpReceive_b : State := wPtpReceive_z.onPtp 0 fun x => { x with foreign := [⟨77, 1, 1, 1, 1, 1, 1, 0, 100, none, 1000⟩], parent := some 77 }
def wPtpReceive_c : State := (wPtpReceive_b.setFld (NET.PTP_STS_PORT_STATE 0) 9).onPtp 0 fun x => { x with syncNs := 1000, syncAt := 10, path := ⟨some 6553600, none⟩ }
def wPtpReceive_d : State := wPtpReceive_c.onPtp 0 fun x => { x with wait := some (9, 300000000000, 5, 1) }
def wPtpReceive_n9 : State := wst [(NET.PTP_CFG_EN 0, 1)]
def wPtpReceive_e1 : State := (wPtpReceive_c.setFld TIME.CFG2_PD_JUMP 255).onPtp 0 fun x => { x with reqs := [(9, 327680000, 10)], sync := some (4000000, 1000, 0, 1), path := ⟨some 6553600, none⟩ }
def wPtpReceive_e2 : State := (wst [(NET.PTP_CFG_EN 0, 1), (NET.PORT_CFG_EN 0 0, 1), (NET.PTP_CFG_ROLE 0, 2), (NET.PTP_CFG_TCMODE 0, 2),
  (TIME.CFG2_PD_JUMP, 255)]).onPtp 0 fun x => { x with preqs := [(0, (9, 327680000))], peer := [(0, ⟨some 6553600, none⟩)] }

/-- States and operands that meet the hypotheses of Obligations.PtpReceiveResults, clause by clause. -/
theorem test_witness_ptp_receive_results :
    ((wPtpReceive_n9.flag (NET.PORT_CFG_EN 0 0) = false)) ∧
    ((wPtpReceive_z.ptpOn 0 = true) ∧ (wPtpReceive_z.flag (NET.PORT_CFG_EN 0 0) = true)) ∧
    ((wPtpReceive_z.ptpOn 0 = true) ∧ (wPtpReceive_z.flag (NET.PORT_CFG_EN 0 0) = true) ∧ (5 = wPtpReceive_z.fld (NET.PTP_CFG_DOMAIN 0)) ∧ (77 /
      65536 ≠ wPtpReceive_z.clockId 0)) ∧
    ((wPtpReceive_b.ptpOn (0 : Nat) = true) ∧ (wPtpReceive_b.flag (NET.PORT_CFG_EN (0 : Nat) (0 : Nat)) = true) ∧ (List.find? (fun (y : Master)
      => some y.src == (wPtpReceive_b.ptp (0 : Nat)).parent) (wPtpReceive_b.ptp (0 : Nat)).foreign = some (Master.mk (77 : Nat) (1 : Nat) (1
      : Nat) (1 : Nat) (1 : Nat) (1 : Nat) (1 : Nat) (0 : Nat) (100 : Nat) none (1000 : Nat))) ∧ ((Master.mk (77 : Nat) (1 : Nat) (1 : Nat)
      (1 : Nat) (1 : Nat) (1 : Nat) (1 : Nat) (0 : Nat) (100 : Nat) none (1000 : Nat)).last + wPtpReceive_b.fld (NET.PTP_CFG_ANN_TO (0 :
      Nat)) * (Master.mk (77 : Nat) (1 : Nat) (1 : Nat) (1 : Nat) (1 : Nat) (1 : Nat) (1 : Nat) (0 : Nat) (100 : Nat) none (1000 :
      Nat)).annNs ≤ (wPtpReceive_b.atTime (5500000 : Nat)).now)) ∧
    ((wPtpReceive_c.ptpOn 0 = true) ∧ (wPtpReceive_c.flag (NET.PORT_CFG_EN 0 0) = true) ∧ (wPtpReceive_c.follows 0 = true) ∧ ((wPtpReceive_c.ptp
      0).syncNs ≠ 0) ∧ ((wPtpReceive_c.ptp 0).syncAt + 4 * (wPtpReceive_c.ptp 0).syncNs ≤ (wPtpReceive_c.atTime 5500000).now)) ∧
    ((wPtpReceive_c.ptpOn 0 = true) ∧ (wPtpReceive_c.flag (NET.PORT_CFG_EN 0 0) = true) ∧ (wPtpReceive_c.follows 0 = true) ∧ ((wPtpReceive_c.ptp
      0).parent = some 77) ∧ (5 = wPtpReceive_c.fld (NET.PTP_CFG_DOMAIN 0))) ∧
    ((wPtpReceive_c.ptpOn 0 = true) ∧ (wPtpReceive_c.flag (NET.PORT_CFG_EN 0 0) = true) ∧ (wPtpReceive_c.follows 0 = true) ∧ ((wPtpReceive_c.ptp
      0).parent = some 77) ∧ (5 = wPtpReceive_c.fld (NET.PTP_CFG_DOMAIN 0)) ∧ (wPtpReceive_c.pathFor 0 0 = { filt := some 6553600, remeas := none })) ∧
    ((wPtpReceive_d.ptpOn 0 = true) ∧ (wPtpReceive_d.flag (NET.PORT_CFG_EN 0 0) = true) ∧ (wPtpReceive_d.follows 0 = true) ∧ ((wPtpReceive_d.ptp
      0).parent = some 77) ∧ ((wPtpReceive_d.ptp 0).wait = some (9, 300000000000, 5, 1)) ∧ (wPtpReceive_d.pathFor 0 1 = { filt := some 6553600, remeas := none })) ∧
    ((wPtpReceive_c.ptpOn 0 = true) ∧ (wPtpReceive_c.flag (NET.PORT_CFG_EN 0 0) = true) ∧ (wPtpReceive_c.follows 0 = true) ∧ ((wPtpReceive_c.ptp
      0).parent = some 77) ∧ (∀ (w : Nat × Int × Int × Nat), (wPtpReceive_c.ptp 0).wait = some w → w.fst ≠ 9)) ∧
    ((wPtpReceive_e1.ptpOn (0 : Nat) = true) ∧ (wPtpReceive_e1.flag (NET.PORT_CFG_EN (0 : Nat) (0 : Nat)) = true) ∧ (wPtpReceive_e1.follows (0 :
      Nat) = true) ∧ (wPtpReceive_e1.fld (NET.PTP_CFG_TCMODE (0 : Nat)) ≠ (2 : Nat)) ∧ (List.find? (fun (r : Nat × Int × Nat) => r.fst == (9
      : Nat)) (wPtpReceive_e1.ptp (0 : Nat)).reqs = some ((9 : Nat), (327680000 : Int), (10 : Nat))) ∧ ((wPtpReceive_e1.ptp (0 : Nat)).sync
      = some ((4000000 : Int), (1000 : Int), (0 : Int), (1 : Nat))) ∧ ((wPtpReceive_e1.ptp (0 : Nat)).path = PathSt.mk (some (6553600 :
      Int)) none) ∧ ((((1000 : Int) - (4000000 : Int) + ((5100 : Int) * (65536 : Int) - (327680000 : Int)) - (0 : Int) - (0 : Int)) / (2 :
      Int) - (6553600 : Int)).natAbs ≤ wPtpReceive_e1.fld TIME.CFG2_PD_JUMP * (65536 : Nat))) ∧
    ((wPtpReceive_c.ptpOn 0 = true) ∧ (wPtpReceive_c.flag (NET.PORT_CFG_EN 0 0) = true) ∧ (wPtpReceive_c.follows 0 = true) ∧ (wPtpReceive_c.fld
      (NET.PTP_CFG_TCMODE 0) ≠ 2) ∧ (List.find? (fun r => r.fst == 9) (wPtpReceive_c.ptp 0).reqs = none)) ∧
    ((wPtpReceive_e2.fld (NET.PTP_CFG_TCMODE (0 : Nat)) = (2 : Nat)) ∧ (wPtpReceive_e2.flag (NET.PORT_CFG_EN (0 : Nat) (0 : Nat)) = true) ∧
      (mget (fun (_ : Nat) => ((65536 : Nat), (0 : Int))) (wPtpReceive_e2.ptp (0 : Nat)).preqs (0 : Nat) = ((9 : Nat), (327680000 : Int))) ∧
      (mget (fun (_ : Nat) => PathSt.reset) (wPtpReceive_e2.ptp (0 : Nat)).peer (0 : Nat) = PathSt.mk (some (6553600 : Int)) none) ∧
      ((((↑(wPtpReceive_e2.atTime (5200 : Nat)).now - ↑(wPtpReceive_e2.fld (NET.LAT_INGRESS (0 : Nat) (0 : Nat)))) * (65536 : Int) -
      (327680000 : Int) - (0 : Int)) / (2 : Int) - (6553600 : Int)).natAbs ≤ wPtpReceive_e2.fld TIME.CFG2_PD_JUMP * (65536 : Nat))) ∧
    ((wPtpReceive_e2.fld (NET.PTP_CFG_TCMODE 0) = 2) ∧ (wPtpReceive_e2.flag (NET.PORT_CFG_EN 0 0) = true) ∧ ((mget (fun _ => (65536, 0))
      (wPtpReceive_e2.ptp 0).preqs 0).fst ≠ 8)) ∧
    ((List.filter (fun r => decide (r.snd.snd + 4 * logNs (wPtpReceive_e1.sfld (NET.PTP_CFG_LOG_DELAY 0)) ≤ (wPtpReceive_e1.atTime
      5000000000).now)) (wPtpReceive_e1.ptp 0).reqs ≠ [])) := by
  refine ⟨?_, ?_, ?_, ?_, ?_, ?_, ?_, ?_, ?_, ?_, ?_, ?_, ?_, ?_⟩ <;> decide +kernel

/-! ### PtpSendAndTimeResults -/

def wPtpSendAndTime_z : State := { (wst [(NET.PTP_CFG_EN 0, 1), (NET.PTP_CFG_ROLE 0, 2), (NET.PORT_CFG_EN 0 0, 1), (NET.PTP_STS_PORT_STATE 0, 9)]) with now := 5000000 }
def wPtpSendAndTime_a : State := wPtpSendAndTime_z.onPtp 0 fun x => { x with sync := some (1, 2, 3, 0) }
def wPtpSendAndTime_b : State := (wPtpSendAndTime_z.setFld (NET.PTP_CFG_TCMODE 0) 2)
def wPtpSendAndTime_c : State := wPtpSendAndTime_z.setFld (NET.PTP_STS_PORT_STATE 0) 6
def wPtpSendAndTime_d : State := wst [(TIME.STS_STATE, 3), (TIME.CFG2_HOLD_MAX, 1)]
def wPtpSendAndTime_e : State := { (wst [(SYS.MODE_MODE, 2), (TIME.STS_STATE, 2)]) with now := 100000000, net := { NetSt.reset with servo := { ServoSt.reset with offs := [5, 5, 6, 7, 8, 9, 10, 11] } } }
def wPtpSendAndTime_g : State := wrg (wPtpSendAndTime_a.setFld (NET.PTP_CFG_ROLE 0) 2) [(NET.MAC_LO 0 0, 77)]
def wPtpSendAndTime_h : State := wPtpSendAndTime_a.onPtp 0 fun x => { x with sentAt := [(1, 5000000), (2, 5000000), (0, 5000000), (11, 5000000)] }
def wPtpSendAndTime_e3 : State := wPtpSendAndTime_e.setFld (MOTION.AX_STS_STATE 1) 2

/-- States and operands that meet the hypotheses of Obligations.PtpSendAndTimeResults, clause by clause. -/
theorem test_witness_ptp_send_and_time_results :
    ((wPtpSendAndTime_a.ptpOn 0 = true ∧ wPtpSendAndTime_a.follows 0 = true ∧ (wPtpSendAndTime_a.ptp 0).sync.isSome = true ∧
      wPtpSendAndTime_a.fld (NET.PTP_CFG_TCMODE 0) ≠ 2 ∧ wPtpSendAndTime_a.flag (NET.PORT_CFG_EN 0 (wPtpSendAndTime_a.syncPort 0)) = true) ∧
      ((wPtpSendAndTime_a.atTime 5500000).ptpDue 0 1 (logNs (wPtpSendAndTime_a.sfld (NET.PTP_CFG_LOG_DELAY 0))) = true)) ∧
    (((wPtpSendAndTime_h.atTime 5000000).ptpDue 0 1 (logNs (wPtpSendAndTime_h.sfld (NET.PTP_CFG_LOG_DELAY 0))) = false)) ∧
    ((wPtpSendAndTime_g.ptpOn 0 = true ∧ wPtpSendAndTime_g.follows 0 = true ∧ (wPtpSendAndTime_g.ptp 0).sync.isSome = true ∧
      wPtpSendAndTime_g.fld (NET.PTP_CFG_TCMODE 0) ≠ 2 ∧ wPtpSendAndTime_g.flag (NET.PORT_CFG_EN 0 (wPtpSendAndTime_g.syncPort 0)) = true) ∧
      ((wPtpSendAndTime_g.atTime 5500000).ptpDue 0 1 (logNs (wPtpSendAndTime_g.sfld (NET.PTP_CFG_LOG_DELAY 0))) = true) ∧
      (wPtpSendAndTime_g.flag (NET.PTP_CFG_UDP 0) = false) ∧ (wPtpSendAndTime_g.portMac 0 (wPtpSendAndTime_g.syncPort 0) ≠ 0) ∧
      ((wPtpSendAndTime_g.port 0 (wPtpSendAndTime_g.syncPort 0)).cur = none) ∧ ((wPtpSendAndTime_g.port 0 (wPtpSendAndTime_g.syncPort
      0)).queue = []) ∧ ((wPtpSendAndTime_g.port 0 (wPtpSendAndTime_g.syncPort 0)).till ≤ (wPtpSendAndTime_g.atTime 5500000).now) ∧
      ((wPtpSendAndTime_g.ptp 0).seqReq < 65536)) ∧
    ((wPtpSendAndTime_b.fld (NET.PTP_CFG_TCMODE 0) = 2 ∧ wPtpSendAndTime_b.flag (NET.PORT_CFG_EN 0 0) = true)) ∧
    ((wPtpSendAndTime_b.fld (NET.PTP_CFG_TCMODE 0) = 2 ∧ wPtpSendAndTime_b.flag (NET.PORT_CFG_EN 0 0) = true) ∧ ((wPtpSendAndTime_b.atTime
      5500000).ptpDue 0 (2 + 16 * 0) (logNs (wPtpSendAndTime_b.sfld (NET.PTP_CFG_LOG_DELAY 0))) = true)) ∧
    ((wPtpSendAndTime_c.portState 0 = 6) ∧ (wPtpSendAndTime_c.flag (NET.PORT_CFG_EN 0 0) = true) ∧ ((wPtpSendAndTime_c.atTime 5500000).ptpDue 0
      0 (logNs (wPtpSendAndTime_c.sfld (NET.PTP_CFG_LOG_SYNC 0))) = true)) ∧
    ((wPtpSendAndTime_c.portState 0 = 6) ∧ (wPtpSendAndTime_c.flag (NET.PORT_CFG_EN 0 0) = true) ∧ ((wPtpSendAndTime_c.atTime 5500000).ptpDue 0
      11 (logNs (wPtpSendAndTime_c.sfld (NET.PTP_CFG_LOG_ANN 0))) = true)) ∧
    ((wPtpSendAndTime_c.portState 0 = 6) ∧ (wPtpSendAndTime_c.flag (NET.PORT_CFG_EN 0 0) = true) ∧ (0 = wPtpSendAndTime_c.fld
      (NET.PTP_CFG_DOMAIN 0)) ∧ (wPtpSendAndTime_c.fld (NET.PTP_CFG_TCMODE 0) ≠ 2)) ∧
    ((wPtpSendAndTime_d.timeState = 3) ∧ (wPtpSendAndTime_d.net.servo.holdAt + wPtpSendAndTime_d.fld TIME.CFG2_HOLD_MAX * 100000000 ≤
      (wPtpSendAndTime_d.atTime 200000000).now)) ∧
    ((wPtpSendAndTime_e.mode = 0 ∨ wPtpSendAndTime_e.mode = 2 ∨ wPtpSendAndTime_e.mode = 11) ∧ (∀ (a : Nat), a < 4 → wPtpSendAndTime_e.axSoon a
      ≤ 1) ∧ ((List.take 8 wPtpSendAndTime_e.net.servo.offs).length = 8) ∧ (spreadOf (List.take 8 wPtpSendAndTime_e.net.servo.offs) ≤ 2000)) ∧
    ((wPtpSendAndTime_e3.mode = 0 ∨ wPtpSendAndTime_e3.mode = 2 ∨ wPtpSendAndTime_e3.mode = 11) ∧ (∃ a, a < 4 ∧ 1 < wPtpSendAndTime_e3.axSoon
      a)) ∧
    ((wPtpSendAndTime_a.mode ≠ 0) ∧ (wPtpSendAndTime_a.mode ≠ 2) ∧ (wPtpSendAndTime_a.mode ≠ 11)) ∧
    (((5#32).toInt.natAbs ≤ 2147483)) ∧
    ((2147483 < (2147483648#32).toInt.natAbs)) := by
  refine ⟨?_, ?_, ?_, ?_, ?_, ?_, ?_, ?_, ?_, ?_, ?_, ?_, ?_, ?_⟩ <;> decide +kernel

/-! ### NetworkResults -/

def wNetwork_z : State := { (wrg (wst [(NET.PORT_CFG_EN 0 0, 1), (NET.PORT_CFG_RXRING 0 0, 1), (NET.PORT_CFG_RELAY 0 0, 1)]) [(NET.MAC_LO 0 0, 0x55667788), (NET.MAC_HI 0 0, 0x0244)]) with sys := { SysSt.reset with phase := 2 }, now := 5000 }
def wNetwork_fa : List Byte := [0x02, 0x44, 0x55, 0x66, 0x77, 0x88, 2, 2, 2, 2, 2, 2, 8, 0] ++ List.replicate 46 1
def wNetwork_fb : List Byte := [0x02, 2, 2, 3, 3, 3, 2, 2, 2, 2, 2, 2, 8, 0] ++ List.replicate 46 1
def wNetwork_fc : List Byte := [2, 2, 2, 2, 2, 2, 0x02, 0x44, 0x55, 0x66, 0x77, 0x88, 8, 0] ++ List.replicate 46 1
def wNetwork_tx : State := { (wrg (wNetwork_z.setFld (RINGS.RING_CFG_EN 1) 1) [(RINGS.RING_HEAD 1, 1)]) with sram := [] }
def wNetwork_tx2 : State := (((wNetwork_z.setFld (RINGS.RING_CFG_EN 1) 1).setFld (RINGS.RING_CFG_ENTRY_LOG2 1) 4).hwPush 1 (leBytes 4
  0x20100000 ++ leBytes 2 60 ++ [0, 0] ++ [0, 0, 0, 0]))
def wNetwork_cur : State := { wNetwork_z with net := { NetSt.reset with port := [(0, { PortSt.reset with cur := some ⟨[1], 0, false, true, false, 0, 0⟩ })] } }
def wNetwork_n0 : State := (wNetwork_z.setFld (NET.PORT_CFG_RXRING 0 0) 0).setFld (NET.MDIO_CFG_POLL 0) 1
def wNetwork_n3 : State := wst [(NET.MDIO_STS_BUSY 0, 1)]
def wNetwork_n4 : State := wup (wst [(NET.MDIO_CFG_POLL 0, 1)])

/-- States and operands that meet the hypotheses of Obligations.NetworkResults, clause by clause. -/
theorem test_witness_network_results :
    (((wNetwork_z.atTime 6000).coreUp = true) ∧ (14 ≤ wNetwork_fc.length) ∧ (wNetwork_z.ownMac 0 (beNat (List.take 6 (List.drop 6 wNetwork_fc)))
      = true)) ∧
    (((wNetwork_z.atTime 6000).coreUp = true) ∧ (14 ≤ wNetwork_fa.length) ∧ (wNetwork_z.ownMac 0 (beNat (List.take 6 (List.drop 6 wNetwork_fa)))
      = false) ∧ (wNetwork_fa.length ≤ 1518) ∧ (frPtpKind wNetwork_fa = 16) ∧ (wNetwork_z.ownMac 0 (beNat (List.take 6 wNetwork_fa)) = true)
      ∧ (wNetwork_z.flag (NET.PORT_CFG_EN 0 0) = true) ∧ (wNetwork_z.flag (NET.PORT_CFG_RXRING 0 0) = true) ∧ (frType wNetwork_fa ≠ 34997) ∧
      (frType wNetwork_fa ≠ 34998)) ∧
    (((wNetwork_z.atTime 6000).coreUp = true) ∧ (14 ≤ wNetwork_fb.length) ∧ (wNetwork_z.ownMac 0 (beNat (List.take 6 (List.drop 6 wNetwork_fb)))
      = false) ∧ (wNetwork_fb.length ≤ 1518) ∧ (frPtpKind wNetwork_fb = 16) ∧ (wNetwork_z.ownMac 0 (beNat (List.take 6 wNetwork_fb)) =
      false) ∧ (frGroup wNetwork_fb = false) ∧ (wNetwork_z.flag (NET.PORT_CFG_RELAY 0 0) = true) ∧ (wNetwork_z.port 0 (1 - 0) =
      PortSt.reset)) ∧
    (((wNetwork_tx2.atTime 6000).coreUp = true) ∧ (14 ≤ wNetwork_fc.length) ∧ (wNetwork_tx2.port 0 0 = PortSt.reset) ∧ (wNetwork_tx2.flag
      (NET.PORT_CFG_EN 0 0) = true) ∧ (wNetwork_tx2.ringCnt (4 * 0 + 2 * 0 + 1) ≠ 0) ∧ (14 ≤ leNat (List.take 2 (List.drop 4
      (wNetwork_tx2.ringEntry (4 * 0 + 2 * 0 + 1) (wNetwork_tx2.ringTail (4 * 0 + 2 * 0 + 1))))) ∧ leNat (List.take 2 (List.drop 4
      (wNetwork_tx2.ringEntry (4 * 0 + 2 * 0 + 1) (wNetwork_tx2.ringTail (4 * 0 + 2 * 0 + 1))))) ≤ 1518 ∧ 537919488 ≤ leNat (List.take 4
      (wNetwork_tx2.ringEntry (4 * 0 + 2 * 0 + 1) (wNetwork_tx2.ringTail (4 * 0 + 2 * 0 + 1)))) ∧ leNat (List.take 4 (wNetwork_tx2.ringEntry
      (4 * 0 + 2 * 0 + 1) (wNetwork_tx2.ringTail (4 * 0 + 2 * 0 + 1)))) + leNat (List.take 2 (List.drop 4 (wNetwork_tx2.ringEntry (4 * 0 + 2
      * 0 + 1) (wNetwork_tx2.ringTail (4 * 0 + 2 * 0 + 1))))) ≤ 538968064) ∧ (bitB (frByte (wNetwork_tx2.ringEntry (4 * 0 + 2 * 0 + 1)
      (wNetwork_tx2.ringTail (4 * 0 + 2 * 0 + 1))) 6) 1 = false)) ∧
    (((wNetwork_tx.atTime 6000).coreUp = true) ∧ (14 ≤ wNetwork_fc.length) ∧ (wNetwork_tx.port 0 0 = PortSt.reset) ∧ (wNetwork_tx.flag
      (NET.PORT_CFG_EN 0 0) = true) ∧ (wNetwork_tx.ringCnt (4 * 0 + 2 * 0 + 1) ≠ 0) ∧ (¬(14 ≤ leNat (List.take 2 (List.drop 4
      (wNetwork_tx.ringEntry (4 * 0 + 2 * 0 + 1) (wNetwork_tx.ringTail (4 * 0 + 2 * 0 + 1))))) ∧ leNat (List.take 2 (List.drop 4
      (wNetwork_tx.ringEntry (4 * 0 + 2 * 0 + 1) (wNetwork_tx.ringTail (4 * 0 + 2 * 0 + 1))))) ≤ 1518 ∧ 537919488 ≤ leNat (List.take 4
      (wNetwork_tx.ringEntry (4 * 0 + 2 * 0 + 1) (wNetwork_tx.ringTail (4 * 0 + 2 * 0 + 1)))) ∧ leNat (List.take 4 (wNetwork_tx.ringEntry (4
      * 0 + 2 * 0 + 1) (wNetwork_tx.ringTail (4 * 0 + 2 * 0 + 1)))) + leNat (List.take 2 (List.drop 4 (wNetwork_tx.ringEntry (4 * 0 + 2 * 0
      + 1) (wNetwork_tx.ringTail (4 * 0 + 2 * 0 + 1))))) ≤ 538968064))) ∧
    (((wNetwork_cur.atTime 6000).coreUp = true) ∧ (14 ≤ wNetwork_fc.length) ∧ ((wNetwork_cur.port 0 0).cur = some { bytes := [1], cls := 0, bad := false, ring := true, report := false, tag := 0, stamp := 0 })
      ∧ ((wNetwork_cur.port 0 0).till ≤ (wNetwork_cur.atTime 6000).now + 1920)) ∧
    ((wNetwork_n0.flag (NET.PORT_CFG_RXRING 0 0) = false) ∧ (wNetwork_n0.portMac 0 0 ≠ 0) ∧ (bitB (wNetwork_n0.portMac 0 0) 40 = false)) ∧
    ((wNetwork_n3.flag (NET.PORT_CFG_RXRING 0 0) = false) ∧ (wNetwork_n3.flag (NET.PORT_CFG_EN 0 0) = false) ∧ (wNetwork_n3.portMac 0 0 = 0)) ∧
    ((wNetwork_n0.flag (NET.PORT_CFG_RXRING 0 0) = false) ∧ (wNetwork_n0.flag (NET.PORT_CFG_EN 0 0) = true)) ∧
    (((wNetwork_n4.atTime 10000000).coreUp = true) ∧ (wNetwork_n4.flag (NET.MDIO_CFG_POLL 0) = true) ∧ (mget zeroNat wNetwork_n4.net.poll 0 +
      10000000 ≤ (wNetwork_n4.atTime 10000000).now) ∧ (wNetwork_n4.flag (NET.PORT_STS_LINK 0 0) ≠ true) ∧ (wNetwork_n4.flag
      (NET.PORT_STS_LINK 0 1) = false) ∧ (true = true ∨ (wNetwork_n4.port 0 0).cur = none)) ∧
    ((wNetwork_z.flag (NET.MDIO_STS_BUSY 0) = false)) ∧
    ((wNetwork_n3.flag (NET.MDIO_STS_BUSY 0) = true)) ∧
    ((wNetwork_n3.flag (NET.MDIO_STS_BUSY 0) = true) ∧ ((mget (fun _ => MdioCmd.none) wNetwork_n3.net.mdio 0).at' + 25600 ≤ (wNetwork_n3.atTime
      30000).now)) := by
  refine ⟨?_, ?_, ?_, ?_, ?_, ?_, ?_, ?_, ?_, ?_, ?_, ?_, ?_⟩ <;> decide +kernel

/-! ### CanResults -/

def wCan_z : State := { (wst [(LINK.CAN_CFG_EN 1, 1), (LINK.CAN_CFG_MODE 1, 0)]) with sys := { SysSt.reset with phase := 2 }, now := 5000 }
def wCan_b : State := wCan_z.setFld (LINK.CAN_FLT_ID_EN 1 3) 1
def wCan_b2 : State := wCan_b.setFld (LINK.CAN_FLT_MASK_MASK 1 3) 0x1FFFFFFF
def wCan_t1 : State := ((wCan_z.setFld (RINGS.RING_CFG_EN 15) 1)).hwPush 15 [1, 2, 3, 4, 5, 6, 7, 8, 9, 0, 0, 0]
def wCan_e1 : State := { wCan_z with link := { LinkSt.reset with can := [(1, ⟨some [1, 2, 3, 4, 5, 6, 7, 8, 9, 0, 0, 0], false, false⟩)] } }
def wCan_e2 : State := { wCan_z with link := { LinkSt.reset with can := [(1, ⟨some [1, 2, 3, 4, 5, 6, 7, 8, 9, 8, 0, 0], false, false⟩)] } }

/-- States and operands that meet the hypotheses of Obligations.CanResults, clause by clause. -/
theorem test_witness_can_results :
    (((wCan_z.atTime 6000).coreUp = true) ∧ (wCan_z.flag (LINK.CAN_CFG_EN 1) = true) ∧ (wCan_z.fld (LINK.CAN_STS_STATE 1) ≠ 2) ∧ (false = false
      ∨ wCan_z.flag (LINK.CAN_CFG_FD_EN 1) = true) ∧ (wCan_z.canFilter 1 5 false ≠ none ∨ ((upto 16).any fun i => wCan_z.flag
      (LINK.CAN_FLT_ID_EN 1 i)) = false)) ∧
    (((wCan_b2.atTime 6000).coreUp = true) ∧ (wCan_b2.flag (LINK.CAN_CFG_EN 1) = true) ∧ (wCan_b2.fld (LINK.CAN_STS_STATE 1) ≠ 2) ∧ (false =
      false ∨ wCan_b2.flag (LINK.CAN_CFG_FD_EN 1) = true) ∧ (wCan_b2.canFilter 1 5 false = none) ∧ (((upto 16).any fun i => wCan_b2.flag
      (LINK.CAN_FLT_ID_EN 1 i)) = true)) ∧
    ((wCan_t1.flag (LINK.CAN_CFG_EN 1) = true ∧ wCan_t1.fld (LINK.CAN_CFG_MODE 1) ≠ 1 ∧ wCan_t1.fld (LINK.CAN_STS_STATE 1) ≠ 2 ∧ (wCan_t1.atTime
      6000).coreUp = true) ∧ ((wCan_t1.can 1).cur = none) ∧ (wCan_t1.ringCnt (13 + 2 * 1) ≠ 0)) ∧
    ((wCan_e1.flag (LINK.CAN_CFG_EN 1) = true ∧ wCan_e1.fld (LINK.CAN_CFG_MODE 1) ≠ 1 ∧ wCan_e1.fld (LINK.CAN_STS_STATE 1) ≠ 2 ∧ (wCan_e1.atTime
      6000).coreUp = true) ∧ (wCan_e1.can 1 = { cur := some [1, 2, 3, 4, 5, 6, 7, 8, 9, 0, 0, 0], stop := false, rec' := (wCan_e1.can 1).rec' })
      ∧ (bitB (frByte [1, 2, 3, 4, 5, 6, 7, 8, 9, 0, 0, 0] 9) 3 = false)) ∧
    ((wCan_e2.flag (LINK.CAN_CFG_EN 1) = true ∧ wCan_e2.fld (LINK.CAN_CFG_MODE 1) ≠ 1 ∧ wCan_e2.fld (LINK.CAN_STS_STATE 1) ≠ 2 ∧ (wCan_e2.atTime
      6000).coreUp = true) ∧ (wCan_e2.can 1 = { cur := some [1, 2, 3, 4, 5, 6, 7, 8, 9, 8, 0, 0], stop := false, rec' := (wCan_e2.can 1).rec' })
      ∧ (bitB (frByte [1, 2, 3, 4, 5, 6, 7, 8, 9, 8, 0, 0] 9) 3 = true)) ∧
    (((wCan_e1.can 1).cur = some [1, 2, 3, 4, 5, 6, 7, 8, 9, 0, 0, 0])) ∧
    ((wCan_z.flag (LINK.CAN_CFG_EN 1) = true) ∧ (wCan_z.fld (LINK.CAN_STS_STATE 1) ≠ 2) ∧ ((if 256 ≤ 5 then 2 else if 128 ≤ 5 ∨ 128 ≤ 6 then 1
      else 0) = wCan_z.fld (LINK.CAN_STS_STATE 1))) ∧
    ((wCan_b.flag (LINK.CAN_CFG_EN 1) = true) ∧ (wCan_b.fld (LINK.CAN_STS_STATE 1) ≠ 2) ∧ ((if 256 ≤ 130 then 2 else if 128 ≤ 130 ∨ 128 ≤ 6 then
      1 else 0) ≠ wCan_b.fld (LINK.CAN_STS_STATE 1))) := by
  refine ⟨?_, ?_, ?_, ?_, ?_, ?_, ?_, ?_⟩ <;> decide +kernel

/-! ### SerialResults -/

def wSerial_z : State := { (wst [(LINK.UART_CFG_EN 2, 1), (LINK.CAN_CFG_EN 1, 1), (LINK.UART_CFG_RS485 2, 1)]) with sys := { SysSt.reset with phase := 2 }, now := 5000 }
def wSerial_b : State := { wSerial_z with link := { LinkSt.reset with uart := [(2, ⟨some (55, [1]), none, 0, 0⟩)] } }
def wSerial_b2 : State := { wSerial_z with link := { LinkSt.reset with uart := [(2, ⟨some (55, [1, 2]), some [3], 0, 0⟩)] } }
def wSerial_t1 : State := ((wSerial_z.setFld (RINGS.RING_CFG_EN 21) 1)).hwPush 21 [2, 65, 66, 0, 0, 0, 0, 0]
def wSerial_sp : State := { wSerial_z with link := { LinkSt.reset with spi := some (1, 3, [1, 2, 3], 5000) } }
def wSerial_bo : State := wst [(LINK.CAN_STS_STATE 1, 2), (LINK.SPI_STS_BUSY, 1)]

/-- States and operands that meet the hypotheses of Obligations.SerialResults, clause by clause. -/
theorem test_witness_serial_results :
    (((wSerial_z.atTime 6000).coreUp = true) ∧ (wSerial_z.flag (LINK.UART_CFG_EN 2) = true) ∧ (wSerial_z.flag (LINK.UART_STS_DE 2) = false) ∧
      ((wSerial_z.uart 2).rx = none)) ∧
    (((wSerial_b.atTime 100000000).coreUp = true) ∧ (wSerial_b.flag (LINK.UART_CFG_EN 2) = true) ∧ (wSerial_b.flag (LINK.UART_STS_DE 2) = false)
      ∧ ((wSerial_b.uart 2).rx = some (55, [1])) ∧ ([1].length = 1)) ∧
    (((wSerial_b2.atTime 100000000).coreUp = true) ∧ (wSerial_b2.flag (LINK.UART_CFG_EN 2) = true) ∧ (wSerial_b2.flag (LINK.UART_STS_DE 2) =
      false) ∧ ((wSerial_b2.uart 2).rx = some (55, [1, 2])) ∧ ([1, 2].length = 2)) ∧
    (((wSerial_b.atTime 100000000).coreUp = true) ∧ (wSerial_b.flag (LINK.UART_CFG_EN 2) = true) ∧ (wSerial_b.flag (LINK.UART_STS_DE 2) = false)
      ∧ ((wSerial_b.uart 2).rx = some (55, [1]))) ∧
    (((wSerial_z.uart 2).rx = none ∨ (wSerial_z.atTime 6000).now < (wSerial_z.uart 2).rxAt + wSerial_z.bitNs 2 (16 * wSerial_z.fld
      (LINK.UART_CFG_IDLE 2)))) ∧
    (((wSerial_b.uart 2).rxAt + wSerial_b.bitNs 2 (16 * wSerial_b.fld (LINK.UART_CFG_IDLE 2)) ≤ (wSerial_b.atTime 100000000).now) ∧
      ((wSerial_b.uart 2).rx = some (55, [1])) ∧ (wSerial_b.ringCnt (16 + 2 * 2) < wSerial_b.ringSize (16 + 2 * 2))) ∧
    (((wSerial_b2.uart 2).tx = some [3]) ∧ ((wSerial_b2.charsEnd 2 [3].length + if wSerial_b2.flag (LINK.UART_CFG_RS485 2) = true then
      wSerial_b2.bitNs 2 (wSerial_b2.fld (LINK.UART_CFG_DE_LAG 2)) else 0) ≤ (wSerial_b2.atTime 100000000).now)) ∧
    ((∀ (ds : List Byte), (wSerial_t1.uart 2).tx = some ds → wSerial_t1.charsEnd 2 ds.length ≤ (wSerial_t1.atTime 100000000).now) ∧
      (wSerial_t1.flag (LINK.UART_CFG_EN 2) = true) ∧ ((wSerial_t1.atTime 100000000).coreUp = true) ∧ (wSerial_t1.ringCnt (17 + 2 * 2) ≠ 0)
      ∧ (1 ≤ frByte (wSerial_t1.ringEntry (17 + 2 * 2) (wSerial_t1.ringTail (17 + 2 * 2))) 0) ∧ (frByte (wSerial_t1.ringEntry (17 + 2 * 2)
      (wSerial_t1.ringTail (17 + 2 * 2))) 0 ≤ 7)) ∧
    ((wSerial_sp.link.spi = some (1, 3, [1, 2, 3], 5000)) ∧ (5000 + 1000 + (16 * 3 + 3) * 5 * (wSerial_sp.fld LINK.SPI_CFG_DIV + 1) ≤
      (wSerial_sp.atTime 100000000).now) ∧ (3 ≤ 8) ∧ ([9, 8, 7].length = 3)) ∧
    ((wSerial_z.flag (LINK.CAN_CFG_FD_EN 1) = false)) ∧
    ((wSerial_z.flag (LINK.CAN_CFG_FD_EN 1) = false) ∧ (wSerial_z.flag (LINK.CAN_CFG_EN 1) = true)) ∧
    ((wSerial_bo.fld (LINK.CAN_STS_STATE 1) = 2)) ∧
    ((wSerial_z.fld (LINK.CAN_STS_STATE 1) ≠ 2)) ∧
    ((wSerial_z.flag (LINK.UART_CFG_EN 2) = true)) ∧
    ((1 ≤ 3) ∧ (3 ≤ 8) ∧ (1 ≠ 3) ∧ (wSerial_z.flag LINK.SPI_STS_BUSY = false)) ∧
    ((1 ≤ 3) ∧ (3 ≤ 8) ∧ (2 ≠ 3) ∧ (wSerial_bo.flag LINK.SPI_STS_BUSY = true)) ∧
    ((0 = 0 ∨ 8 < 0)) := by
  refine ⟨?_, ?_, ?_, ?_, ?_, ?_, ?_, ?_, ?_, ?_, ?_, ?_, ?_, ?_, ?_, ?_, ?_⟩ <;> decide +kernel

/-! ### HostReadResults -/

def wHostRead_z : State := { State.reset with sys := { SysSt.reset with phase := 2 }, now := 5000 }

/-- States and operands that meet the hypotheses of Obligations.HostReadResults, clause by clause. -/
theorem test_witness_host_read_results :
    (((wHostRead_z.atTime 6000).coreUp = true) ∧ (0 % 4 = 0)) ∧
    (((wHostRead_z.atTime 6000).coreUp = true) ∧ (6 % 4 ≠ 0)) ∧
    (((wHostRead_z.atTime 6000).coreUp = true)) := by
  refine ⟨?_, ?_, ?_⟩ <;> decide +kernel

/-! ### HostWriteResults -/

def wHostWrite_z : State := { State.reset with sys := { SysSt.reset with phase := 2 }, now := 5000 }
def wHostWrite_p : State := wHostWrite_z.setFld HOSTIF.HSTS_PROV 1
def wHostWrite_hp : State := wrg (((wHostWrite_z.setFld (RINGS.RING_CFG_PRODUCER 57) 2).setFld (RINGS.RING_CFG_EN 57) 1).setFld
  (RINGS.RING_CFG_SIZE_LOG2 57) 3) [(RINGS.RING_HEAD 57, 5), (RINGS.RING_TAIL 57, 3)]
def wHostWrite_hc : State := wrg (((wHostWrite_z.setFld (RINGS.RING_CFG_PRODUCER 57) 3).setFld (RINGS.RING_CFG_EN 57) 1).setFld
  (RINGS.RING_CFG_SIZE_LOG2 57) 3) [(RINGS.RING_HEAD 57, 5), (RINGS.RING_TAIL 57, 3)]
def wHostWrite_qz : State := { State.reset with sys := { SysSt.reset with phase := 2 }, now := 5000 }
def wHostWrite_qp : State := wHostWrite_qz.setFld HOSTIF.HSTS_PROV 1
def wHostWrite_qq : State := { wHostWrite_qp with mram := [(8, 4), (9, 8)], host := { HostSt.reset with checked := 2 } }
def wHostWrite_qc1 : State := { wHostWrite_qp with host := { HostSt.reset with cmd := some (1, 2, 0) } }
def wHostWrite_qc2 : State := { wHostWrite_qp with host := { HostSt.reset with cmd := some (2, 2, 0) } }
def wHostWrite_qc3 : State := { wHostWrite_qp with host := { HostSt.reset with cmd := some (3, 1, 256) } }
def wHostWrite_qc4 : State := { wHostWrite_qp with host := { HostSt.reset with cmd := some (4, 1, 0) } }
def wHostWrite_qc5 : State := { wHostWrite_qp with host := { HostSt.reset with cmd := some (5, 1, 0) } }

/-- States and operands that meet the hypotheses of Obligations.HostWriteResults, clause by clause. -/
theorem test_witness_host_write_results :
    (((wHostWrite_z.atTime 6000).coreUp = true) ∧ (exitUs wHostWrite_z.power ≤ 5)) ∧
    (((wHostWrite_p.atTime 6000).coreUp = true) ∧ (8204 = 8192 + 4 * 3) ∧ (3 < 64) ∧ (wHostWrite_p.provOn = true)) ∧
    (((wHostWrite_z.atTime 6000).coreUp = true) ∧ (0 % 4 = 0) ∧ (0 < 8)) ∧
    (((wHostWrite_hp.atTime 6000).coreUp = true) ∧ (isHostRing 57 = true) ∧ (wHostWrite_hp.hostProduces 57 = true) ∧ (wHostWrite_hp.flag
      (RINGS.RING_CFG_EN 57) = true) ∧ (ringDiff (7 % 65536) (wHostWrite_hp.ringHead 57) < 32768) ∧ (ringDiff (7 % 65536)
      (wHostWrite_hp.ringTail 57) ≤ wHostWrite_hp.ringSize 57)) ∧
    (((wHostWrite_hp.atTime 6000).coreUp = true) ∧ (isHostRing 57 = true) ∧ (wHostWrite_hp.hostProduces 57 = true) ∧ (wHostWrite_hp.flag
      (RINGS.RING_CFG_EN 57) = true) ∧ (ringDiff (12 % 65536) (wHostWrite_hp.ringHead 57) < 32768) ∧ (wHostWrite_hp.ringSize 57 < ringDiff
      (12 % 65536) (wHostWrite_hp.ringTail 57))) ∧
    (((wHostWrite_hp.atTime 6000).coreUp = true) ∧ (isHostRing 57 = true) ∧ (wHostWrite_hp.hostProduces 57 = true) ∧ (32768 ≤ ringDiff (4 %
      65536) (wHostWrite_hp.ringHead 57))) ∧
    (((wHostWrite_hc.atTime 6000).coreUp = true) ∧ (isHostRing 57 = true) ∧ (wHostWrite_hc.hostConsumes 57 = true) ∧ (ringDiff (4 % 65536)
      (wHostWrite_hc.ringTail 57) ≤ wHostWrite_hc.ringCnt 57)) ∧
    (((wHostWrite_hc.atTime 6000).coreUp = true) ∧ (isHostRing 57 = true) ∧ (wHostWrite_hc.hostConsumes 57 = true) ∧ (wHostWrite_hc.ringCnt 57 <
      ringDiff (12 % 65536) (wHostWrite_hc.ringTail 57))) ∧
    (((wHostWrite_hc.atTime 6000).coreUp = true) ∧ (isHostRing 12 = false)) ∧
    (((wHostWrite_p.atTime 6000).coreUp = true) ∧ (wHostWrite_p.host.cmd = none) ∧ (wHostWrite_p.provOn = true) ∧ (bitB (rdLE wHostWrite_p.mram
      8 4) (8 + 1) = false) ∧ (bitB (rdLE wHostWrite_p.mram 8 4) 1 = false)) ∧
    (((wHostWrite_qq.atTime 6000).coreUp = true) ∧ (wHostWrite_qq.host.cmd = none) ∧ (wHostWrite_qq.provOn = true) ∧ (bitB (rdLE
      wHostWrite_qq.mram 8 4) (8 + 3) = true)) ∧
    (((wHostWrite_qq.atTime 6000).coreUp = true) ∧ (wHostWrite_qq.host.cmd = none) ∧ (wHostWrite_qq.provOn = true) ∧ (bitB (rdLE
      wHostWrite_qq.mram 8 4) (8 + 2) = false) ∧ (bitB (rdLE wHostWrite_qq.mram 8 4) 2 = true)) ∧
    (((wHostWrite_p.atTime 6000).coreUp = true) ∧ (wHostWrite_p.host.cmd = none) ∧ (wHostWrite_p.provOn = true)) ∧
    (((wHostWrite_p.atTime 6000).coreUp = true) ∧ (wHostWrite_p.host.cmd = none) ∧ (wHostWrite_p.provOn = true) ∧ (1 < 2) ∧ (256 % 256 = 0)) ∧
    (((wHostWrite_p.atTime 6000).coreUp = true) ∧ (wHostWrite_p.host.cmd = none) ∧ (wHostWrite_p.provOn = true) ∧ (1 < 2)) ∧
    (((wHostWrite_qq.atTime 6000).coreUp = true) ∧ (wHostWrite_qq.host.cmd = none) ∧ (wHostWrite_qq.provOn = true) ∧ (1 < 2) ∧ (bitB
      wHostWrite_qq.host.checked 1 = true)) ∧
    (((wHostWrite_p.atTime 6000).coreUp = true) ∧ (wHostWrite_p.host.cmd = none) ∧ (wHostWrite_p.provOn = true) ∧ (1 < 2) ∧ (bitB
      wHostWrite_p.host.checked 1 = false)) ∧
    (((wHostWrite_qp.atTime 6000).coreUp = true) ∧ (wHostWrite_qp.host.cmd = none) ∧ (wHostWrite_qp.provOn = true) ∧ (2 ≤ 2)) ∧
    (((wHostWrite_z.atTime 6000).coreUp = true) ∧ (wHostWrite_z.host.cmd = none) ∧ (wHostWrite_z.provOn = false)) ∧
    ((wHostWrite_qc1.host.cmd = some (1, 2, 0)) ∧ (1 = 1)) ∧
    ((wHostWrite_qc2.host.cmd = some (2, 2, 0)) ∧ (2 = 2)) ∧
    ((wHostWrite_qc3.host.cmd = some (3, 1, 256)) ∧ (3 = 3)) ∧
    ((wHostWrite_qc4.host.cmd = some (4, 1, 0)) ∧ (4 = 4)) ∧
    ((wHostWrite_qc5.host.cmd = some (5, 1, 0)) ∧ (5 = 5)) ∧
    ((wHostWrite_qc1.host.cmd = some (1, 2, 0)) ∧ (1 ≠ 4)) := by
  refine ⟨?_, ?_, ?_, ?_, ?_, ?_, ?_, ?_, ?_, ?_, ?_, ?_, ?_, ?_, ?_, ?_, ?_, ?_, ?_, ?_, ?_, ?_, ?_, ?_, ?_⟩ <;> decide +kernel

/-! ### ClaimResults -/

def wClaim_z : State := { (wst [(RANGE.STS_BASE, 5), (RANGE.STS_STATE, 4)]) with now := 5000, range := { RangeSt.reset with idle := true } }
def wClaim_b : State := wst [(RANGE.STS_BASE, 5), (RANGE.STS_STATE, 4), (RANGE.STS_HOLDS_HF, 1)]
def wClaim_g : State := (((wClaim_z.setFld (SAFE.STS_GATE 0) 15).setFld (SAFE.STS_GATE 1) 15).setFld (SAFE.STS_GATE 2) 15)
def wClaim_h : State := { (wst [(RANGE.STS_BASE, 5), (RANGE.STS_STATE, 5), (RANGE.STS_HOLDS_HF, 1)]) with range := { RangeSt.reset with quit := true } }
def wClaim_t3 : State := wst [(RANGE.STS_BASE, 5), (RANGE.STS_STATE, 3)]
def wClaim_t2 : State := wst [(RANGE.STS_BASE, 5), (RANGE.STS_STATE, 2)]
def wClaim_i4 : State := { (wst [(RANGE.STS_BASE, 5), (RANGE.STS_STATE, 4)]) with range := { RangeSt.reset with takeAt := some 10 } }
def wClaim_n0 : State := wst []
def wClaim_g2 : State := { wClaim_g with sys := { SysSt.reset with phase := 2 } }

/-- States and operands that meet the hypotheses of Obligations.ClaimResults, clause by clause. -/
theorem test_witness_claim_results :
    ((wClaim_z.rangeState ≠ 0) ∧ (∀ (r : Nat), wClaim_z.range.roundAt = some r → r + 50000 ≤ (wClaim_z.atTime 6000).now)) ∧
    ((wClaim_z.rangeState ≠ 0) ∧ (wClaim_z.flag RANGE.STS_HOLDS_HF = false)) ∧
    ((wClaim_b.rangeState ≠ 0) ∧ (wClaim_b.flag RANGE.STS_HOLDS_HF = true) ∧ (wClaim_b.rangeState ≠ 3) ∧ (wClaim_b.range.passed = false) ∧
      (wClaim_b.range.passEnd < (wClaim_b.atTime 6000).now)) ∧
    ((wClaim_n0.rangeState = 0)) ∧
    ((wClaim_g2.rangeState = 4) ∧ (wClaim_g2.range.idle = true) ∧ (wClaim_g2.flag RANGE.STS_HOLDS_HF = false) ∧ (wClaim_g2.hoistGates = true) ∧
      (wClaim_g2.range.lowAt + 116000 ≤ (wClaim_g2.atTime 200000).now) ∧ (wClaim_g2.range.stAt + 16000 ≤ (wClaim_g2.atTime 200000).now) ∧ (∀
      (b : Nat), wClaim_g2.range.takeAt = some b → 200000 ≤ b + 6000000) ∧ (5 ≤ wClaim_g2.fld RANGE.STS_BASE)) ∧
    ((wClaim_g2.rangeState = 4) ∧ (wClaim_g2.range.idle = true) ∧ (wClaim_g2.flag RANGE.STS_HOLDS_HF = false) ∧ (wClaim_g2.hoistGates = true) ∧
      (wClaim_g2.range.lowAt + 116000 ≤ (wClaim_g2.atTime 200000).now) ∧ (wClaim_g2.range.stAt + 16000 ≤ (wClaim_g2.atTime 200000).now) ∧ (∀
      (b : Nat), wClaim_g2.range.takeAt = some b → 200000 ≤ b + 6000000) ∧ (wClaim_g2.fld RANGE.STS_BASE < 6)) ∧
    ((wClaim_h.rangeState = 5) ∧ (wClaim_h.range.quit = true) ∧ (wClaim_h.flag RANGE.STS_HOLDS_HF = true)) ∧
    ((wClaim_t3.rangeState = 3) ∧ (wClaim_t3.flag RANGE.STS_HOLDS_HF = false)) ∧
    ((wClaim_g2.rangeState ≠ 0) ∧ (wClaim_g2.flag RANGE.STS_HOLDS_HF = false) ∧ (wClaim_g2.range.lowAt + 100000 ≤ (wClaim_g2.atTime
      200000).now)) ∧
    ((wClaim_z.paired = true) ∧ (∀ (b : Nat × Bool), wClaim_z.range.beat = some b → b.fst + 50000 ≤ (wClaim_z.atTime 6000).now)) ∧
    ((wClaim_z.paired = true)) ∧
    ((wClaim_t2.rangeState = 2) ∧ (wClaim_t2.flag RANGE.STS_LINK_LOST = false)) ∧
    ((wClaim_i4.range.takeAt = some 10) ∧ (wClaim_i4.rangeState = 4) ∧ (wClaim_i4.flag RANGE.STS_HOLDS_HF = false) ∧ (10 + 6000000 ≤
      (wClaim_i4.atTime 7000000).now)) := by
  refine ⟨?_, ?_, ?_, ?_, ?_, ?_, ?_, ?_, ?_, ?_, ?_, ?_, ?_⟩ <;> decide +kernel

/-! ### RangeStreamResults -/

def wRangeStream_z : State := { (wst [(RANGE.STS_BASE, 5), (RANGE.STS_STATE, 2)]) with now := 5000 }
def wRangeStream_d4 : State := wst [(RANGE.STS_STATE, 4), (RANGE.STS_P_READY, 1)]
def wRangeStream_d6 : State := wst [(RANGE.STS_STATE, 6)]
def wRangeStream_m2 : State := (wst [(RANGE.STS_BASE, 5), (RANGE.STS_STATE, 2), (RANGE.CFG_PARTNER, 3), (FIELD.CH_OUT_ON 2, 1)])
def wRangeStream_m3 : State := { wrg wRangeStream_m2 [(RANGE.MIRROR, 0x81)] with now := 5000, range := { RangeSt.reset with recSeen := true } }
def wRangeStream_m4 : State := { wRangeStream_m3 with range := { RangeSt.reset with duty := [(131, 1000)] } }

/-- States and operands that meet the hypotheses of Obligations.RangeStreamResults, clause by clause. -/
theorem test_witness_range_stream_results :
    ((wRangeStream_z.paired = true)) ∧
    ((wRangeStream_z.paired = true) ∧ (wRangeStream_z.rangeState ≠ 1)) ∧
    ((wRangeStream_z.paired = true) ∧ (wRangeStream_z.range.swapped = false) ∧ (5 = wRangeStream_z.fld RANGE.STS_BASE)) ∧
    ((wRangeStream_z.paired = true) ∧ (wRangeStream_z.range.swapped = false) ∧ (6 ≠ wRangeStream_z.fld RANGE.STS_BASE)) ∧
    ((wRangeStream_z.rangeState = 1 ∨ wRangeStream_z.rangeState = 2) ∧ (∀ (d : Nat), wRangeStream_z.dutyAt = some d → d + 100000000 <
      wRangeStream_z.now)) ∧
    ((wRangeStream_m4.dutyAt = some 1000) ∧ (wRangeStream_m4.now ≤ 1000 + 100000000)) ∧
    ((wRangeStream_d4.rangeState = 0 ∨ 3 ≤ wRangeStream_d4.rangeState)) ∧
    ((wRangeStream_d4.rangeState = 4) ∧ (wRangeStream_d4.flag RANGE.STS_P_READY = true)) ∧
    ((wRangeStream_z.rangeState ≠ 4 ∨ wRangeStream_z.flag RANGE.STS_P_READY = false)) ∧
    ((wRangeStream_z.rangeState ≠ 6)) ∧
    ((wRangeStream_d6.rangeState = 6)) := by
  refine ⟨?_, ?_, ?_, ?_, ?_, ?_, ?_, ?_, ?_, ?_, ?_⟩ <;> decide +kernel

/-! ### HealthResults -/

def wHealth_z : State := { (wst [(HEALTH.ST_CFG_EN, 1)]) with sys := { SysSt.reset with phase := 2 }, now := 5000, tests := { HealthSt.reset with slot := some 1 } }
def wHealth_b : State := { wHealth_z with img := { ImgSt.none with valid := true } }
def wHealth_q : State := { wHealth_b with tests := { HealthSt.reset with req := some (1, 0) } }
def wHealth_ss : State := { wHealth_b with gal := { GalSt.reset with edge := ⟨0, 1000000, 1000000, 20000, false, 3⟩ }, tests := { HealthSt.reset with slot := some 1, slotAt := 50000 } }
def wHealth_hh : State := { wHealth_b with mram := wrBytes [] 0x100040 (leBytes 32 0xe3b0c44298fc1c149afbf4c8996fb92427ae41e4649b934ca495991b7852b855).reverse }

/-- States and operands that meet the hypotheses of Obligations.HealthResults, clause by clause. -/
theorem test_witness_health_results :
    ((wHealth_ss.tests.slot = some 1) ∧ ((wHealth_ss.atTime 100000).segDue = true) ∧ (2 ≠ 0) ∧ (wHealth_ss.tests.req = none) ∧ (wHealth_ss.flag
      HEALTH.ST_CFG_EN = true) ∧ (mget zeroNat wHealth_ss.tests.segs (16 * 1 + 2) < areaSegs 2) ∧ (mget zeroNat wHealth_ss.tests.segs (16 *
      1 + 2) + 1 < areaSegs 2)) ∧
    ((wHealth_ss.tests.slot = some 1) ∧ ((wHealth_ss.atTime 100000).segDue = true) ∧ (2 ≠ 0) ∧ (wHealth_ss.tests.req = none) ∧ (wHealth_ss.flag
      HEALTH.ST_CFG_EN = true) ∧ (mget zeroNat wHealth_ss.tests.segs (16 * 1 + 2) < areaSegs 2)) ∧
    (((wHealth_z.atTime 3600000000000).coreUp = true) ∧ (wHealth_z.tests.scrubAt + 600000000000 ≤ (wHealth_z.atTime 3600000000000).now)) ∧
    (((wHealth_ss.atTime 100000).now < wHealth_ss.tests.scrubAt + 600000000000)) ∧
    (((wHealth_hh.atTime 3600000000000).coreUp = true) ∧ (wHealth_hh.img.valid = true) ∧ (wHealth_hh.tests.hashAt + 3600000000000 ≤
      (wHealth_hh.atTime 3600000000000).now) ∧ (sha256 (rdBytes wHealth_hh.mram (imgBase wHealth_hh.img.bank + 256) (wHealth_hh.hdr
      wHealth_hh.img.bank 36 4)) = beNat (rdBytes wHealth_hh.mram (imgBase wHealth_hh.img.bank + 64) 32))) ∧
    (((wHealth_b.atTime 3600000000000).coreUp = true) ∧ (wHealth_b.img.valid = true) ∧ (wHealth_b.tests.hashAt + 3600000000000 ≤
      (wHealth_b.atTime 3600000000000).now) ∧ (¬sha256 (rdBytes wHealth_b.mram (imgBase wHealth_b.img.bank + 256) (wHealth_b.hdr
      wHealth_b.img.bank 36 4)) = beNat (rdBytes wHealth_b.mram (imgBase wHealth_b.img.bank + 64) 32))) ∧
    ((wHealth_z.tests.passAt + 3600000000000 ≤ (wHealth_z.atTime 3600000000000).now) ∧ (wHealth_z.sys.phase = 2)) ∧
    ((1 ≤ 2) ∧ (2 ≤ 3) ∧ (1#2 ≠ 3) ∧ (wHealth_z.tests.req = none)) ∧
    ((1 ≤ 2) ∧ (2 ≤ 3) ∧ (1#2 ≠ 3) ∧ (wHealth_q.tests.req ≠ none)) ∧
    ((5 = 0 ∨ 3 < 5 ∨ 1#2 = 3)) ∧
    (((2072#32).getLsbD 11 = true)) := by
  refine ⟨?_, ?_, ?_, ?_, ?_, ?_, ?_, ?_, ?_, ?_, ?_⟩ <;> decide +kernel

/-! ### ModeAndWakeResults -/

def wModeAndWake_z : State := { (wst [(SYS.MODE_MODE, 2)]) with sys := { SysSt.reset with phase := 2 }, now := 5000 }
def wModeAndWake_p2 : State := wModeAndWake_z.setFld SYS.PWR_STS_STATE 2
def wModeAndWake_p2l : State := wrg (wModeAndWake_p2.setFld SYS.PWR_CFG_WAKE_BALL 1) [(SYS.LTR, 5)]
def wModeAndWake_p2k : State := (wModeAndWake_p2.setFld KEEPER.CFG_ALARM_EN 1)
def wModeAndWake_p4 : State := wModeAndWake_p2k.setFld SYS.PWR_STS_STATE 4
def wModeAndWake_p3 : State := { wModeAndWake_z with sys := { SysSt.reset with phase := 3 } }
def wModeAndWake_p2s : State := wrg (wModeAndWake_p2.setFld (GALLERY.TIDE_STS_SNAP_MIS) 0) [(SYS.WAKE_EN 0, 0xFFFFFFFF), (GALLERY.EVT_PEND
  0, 0x100)]
def wModeAndWake_p2q : State := wrg wModeAndWake_p2 [(SYS.LTR, 100)]

/-- States and operands that meet the hypotheses of Obligations.ModeAndWakeResults, clause by clause. -/
theorem test_witness_mode_and_wake_results :
    ((3 ≠ wModeAndWake_z.mode) ∧ (wModeAndWake_z.modeCheck 3 = 0)) ∧
    ((0 = 0) ∧ (wModeAndWake_z.mode ≠ 0)) ∧
    ((2 = wModeAndWake_z.mode) ∧ (wModeAndWake_z.mode < 12)) ∧
    ((12 ≤ 12)) ∧
    ((9 < 12) ∧ (9 ≠ wModeAndWake_z.mode) ∧ (9 ≠ 0) ∧ (¬9 ∈ modeNext wModeAndWake_z.mode)) ∧
    ((wModeAndWake_p2s.power = 2) ∧ (wModeAndWake_p2s.wakeSource = some 8)) ∧
    ((wModeAndWake_p2.power = 2) ∧ (wModeAndWake_p2.wakeSource = none) ∧ (wModeAndWake_p2.regN SYS.LTR < 40)) ∧
    ((wModeAndWake_p2q.power = 2) ∧ (wModeAndWake_p2q.wakeSource = none) ∧ (40 ≤ wModeAndWake_p2q.regN SYS.LTR)) ∧
    ((wModeAndWake_p2l.power = 2) ∧ (wModeAndWake_p2l.flag SYS.PWR_CFG_WAKE_BALL = true)) ∧
    ((wModeAndWake_p2.power = 2) ∧ (wModeAndWake_p2.flag SYS.PWR_CFG_WAKE_BALL = false)) ∧
    ((wModeAndWake_p2k.power = (2 : Nat)) ∧ (wModeAndWake_p2k.flag KEEPER.CFG_ALARM_EN = true ∧ wModeAndWake_p2k.regN KEEPER.ALARM_LO + (2 :
      Nat) ^ (32 : Nat) * (wModeAndWake_p2k.regN KEEPER.ALARM_HI % (65536 : Nat)) ≤ (wModeAndWake_p2k.atTime (Strapped.mk (1 : BitVec (2 :
      Nat)) (7 : BitVec (7 : Nat)) (6000 : Nat)).t).rtcSec)) ∧
    ((wModeAndWake_p4.power = 4) ∧ (wModeAndWake_p4.keep.lost = false)) ∧
    ((wModeAndWake_p4.power = (4 : Nat)) ∧ (wModeAndWake_p4.keep.lost = false) ∧ (wModeAndWake_p4.flag KEEPER.CFG_ALARM_EN = true ∧
      wModeAndWake_p4.regN KEEPER.ALARM_LO + (2 : Nat) ^ (32 : Nat) * (wModeAndWake_p4.regN KEEPER.ALARM_HI % (65536 : Nat)) ≤
      (wModeAndWake_p4.atTime (Strapped.mk (1 : BitVec (2 : Nat)) (7 : BitVec (7 : Nat)) (6000 : Nat)).t).rtcSec)) ∧
    ((¬(wModeAndWake_z.flag KEEPER.CFG_ALARM_EN = true ∧ wModeAndWake_z.regN KEEPER.ALARM_LO + (2 : Nat) ^ (32 : Nat) * (wModeAndWake_z.regN
      KEEPER.ALARM_HI % (65536 : Nat)) ≤ (wModeAndWake_z.atTime (Strapped.mk (1 : BitVec (2 : Nat)) (7 : BitVec (7 : Nat)) (6000 :
      Nat)).t).rtcSec))) ∧
    ((wModeAndWake_z.power ≤ 1) ∧ (wModeAndWake_z.wakeSource = none) ∧ (exitUs wModeAndWake_z.power ≤ wModeAndWake_z.regN SYS.LTR)) ∧
    ((wModeAndWake_z.sys.phase ≠ 3 ∨ (wModeAndWake_z.atTime 6000).now < wModeAndWake_z.gal.edge.due)) ∧
    ((wModeAndWake_p3.sys.phase = 3) ∧ (wModeAndWake_p3.gal.edge.due ≤ (wModeAndWake_p3.atTime 6000).now)) := by
  refine ⟨?_, ?_, ?_, ?_, ?_, ?_, ?_, ?_, ?_, ?_, ?_, ?_, ?_, ?_, ?_, ?_, ?_⟩ <;> decide +kernel

/-! ### ResetResults -/

def wReset_im : List Host.Cell := wrBytes (wrBytes [(8, 1)] 0x40 ((leBytes 32
  0x97d37bcfc96d2b93dcaee0a62344f7e11bd542ca90fc87b3f4ba68e57a98275b).reverse ++ (leBytes 32
  0xe8c8a5d2ce37d8c19f5897705e574b51b79f69facef61f61ee65d95d9f274a1c).reverse)) 0x100000 (leBytes 4 0x4D495144 ++ leBytes 2 1 ++ [0x47, 1]
  ++ leBytes 4 2 ++ leBytes 8 0 ++ leBytes 4 0x100 ++ leBytes 4 0 ++ leBytes 4 0x100 ++ leBytes 8 0 ++ leBytes 4 0x40 ++ leBytes 4 0x80 ++
  leBytes 4 100000 ++ leBytes 4 0x1403E8 ++ leBytes 8 0 ++ (leBytes 32
  0xe3b0c44298fc1c149afbf4c8996fb92427ae41e4649b934ca495991b7852b855).reverse ++ (leBytes 32
  0xfb3cf357f9c34a7ae0ca0dd63ebfe5c5aeaccd869176bfb8867100373712f5e2).reverse ++ (leBytes 32
  0xfb3cf357f9c34a7ae0ca0dd63ebfe5c5aeaccd869176bfb8867100373712f5e2).reverse)
def wReset_z : State := { (wst [(SYS.MODE_MODE, 2)]) with sys := { SysSt.reset with phase := 0, nrstAt := some 10 }, now := 5000, mram := [(7, 7)] }
def wReset_b : State := { (wst [(SYS.MODE_MODE, 2)]) with sys := { SysSt.reset with phase := 1 }, straps := ⟨false, 3, 0⟩ }
def wReset_c : State := { (wst [(SYS.MODE_MODE, 2)]) with sys := { SysSt.reset with phase := 1 }, straps := ⟨false, 0, 0⟩ }
def wReset_d : State := { wReset_c with mram := wReset_im }
def wReset_f : State := { wReset_c with mram := wReset_im.map fun p => if p.1 < 0x100000 then p else (p.1 + 0x400000, p.2) }
def wReset_e : State := { wReset_c with sys := { SysSt.reset with phase := 1, booted := true } }
def wReset_zd : State := { wReset_z.setFld SYS.PWR_STS_STATE 4 with keep := { KeepSt.reset with lost := true } }

/-- States and operands that meet the hypotheses of Obligations.ResetResults, clause by clause. -/
theorem test_witness_reset_results :
    ((wReset_b.sys.nrstAt = none)) ∧
    ((wReset_z.sys.nrstAt ≠ none)) ∧
    ((wReset_z.keeperDead = false)) ∧
    ((wReset_zd.keeperDead = true)) ∧
    ((wReset_zd.sys.supplyOut = true ∨ wReset_zd.keeperDead = true)) ∧
    ((wReset_z.sys.phase = 0) ∧ (wReset_z.sys.nrstAt ≠ none) ∧ (wReset_z.sys.supplyOut = false) ∧ (wReset_z.keeperDead = false)) ∧
    ((wReset_z.sys.phase = 0) ∧ (wReset_z.sys.nrstAt = some 10) ∧ (wReset_z.sys.stuck = false) ∧ (10 + 9999990000 < (wReset_z.atTime
      20000000000).now)) ∧
    ((wReset_b.sys.phase = 1) ∧ (wReset_b.sys.booted = false) ∧ (wReset_b.straps.bootSel = 3)) ∧
    ((wReset_d.sys.phase = 1) ∧ (wReset_d.sys.booted = false) ∧ (wReset_d.straps.bootSel < 3) ∧ (wReset_d.bankOk (if wReset_d.straps.bootSel = 0
      then rdLE wReset_d.mram 0 4 % 2 else wReset_d.straps.bootSel - 1) = true)) ∧
    ((wReset_f.sys.phase = 1) ∧ (wReset_f.sys.booted = false) ∧ (wReset_f.straps.bootSel = 0) ∧ (wReset_f.bankOk (if wReset_f.straps.bootSel = 0
      then rdLE wReset_f.mram 0 4 % 2 else wReset_f.straps.bootSel - 1) = false) ∧ (wReset_f.bankOk (1 - if wReset_f.straps.bootSel = 0 then
      rdLE wReset_f.mram 0 4 % 2 else wReset_f.straps.bootSel - 1) = true)) ∧
    ((wReset_b.sys.phase = 1) ∧ (wReset_b.sys.booted = false) ∧ (wReset_b.img.valid = false) ∧ (false = false ∨ wReset_b.straps.bootSel < 3 ∧
      wReset_b.bankOk 0 = false ∧ wReset_b.bankOk 1 = false)) ∧
    ((wReset_e.sys.phase = 1) ∧ (wReset_e.sys.booted = true) ∧ (wReset_e.mode ≠ 0) ∧ (1 < wReset_e.voters.length) ∧ (∀ (l : Lane),
      (wReset_e.lane ↑l).railHeld = false) ∧ (0#3 = 0)) := by
  refine ⟨?_, ?_, ?_, ?_, ?_, ?_, ?_, ?_, ?_, ?_, ?_, ?_⟩ <;> decide +kernel

/-! ### KeeperResults -/

def wKeeper_im : List Host.Cell := wrBytes (wrBytes [(8, 1)] 0x40 ((leBytes 32
  0x97d37bcfc96d2b93dcaee0a62344f7e11bd542ca90fc87b3f4ba68e57a98275b).reverse ++ (leBytes 32
  0xe8c8a5d2ce37d8c19f5897705e574b51b79f69facef61f61ee65d95d9f274a1c).reverse)) 0x100000 (leBytes 4 0x4D495144 ++ leBytes 2 1 ++ [0x47, 1]
  ++ leBytes 4 2 ++ leBytes 8 0 ++ leBytes 4 0x100 ++ leBytes 4 0 ++ leBytes 4 0x100 ++ leBytes 8 0 ++ leBytes 4 0x40 ++ leBytes 4 0x80 ++
  leBytes 4 100000 ++ leBytes 4 0x1403E8 ++ leBytes 8 0 ++ (leBytes 32
  0xe3b0c44298fc1c149afbf4c8996fb92427ae41e4649b934ca495991b7852b855).reverse ++ (leBytes 32
  0xfb3cf357f9c34a7ae0ca0dd63ebfe5c5aeaccd869176bfb8867100373712f5e2).reverse ++ (leBytes 32
  0xfb3cf357f9c34a7ae0ca0dd63ebfe5c5aeaccd869176bfb8867100373712f5e2).reverse)
def wKeeper_z : State := { (wst [(KEEPER.STS_VBAT_OK, 1)]) with sys := { SysSt.reset with phase := 2 }, now := 5000 }
def wKeeper_b : State := { (wst [(KEEPER.STS_VBAT_OK, 1), (KEEPER.STS_FOG_ARMED, 1), (KEEPER.FOG_CFG_T, 100), (KEEPER.FOG_CFG_MIN, 0)]) with sys := { SysSt.reset with phase := 2 }, now := 5000 }
def wKeeper_c : State := wKeeper_b.setFld KEEPER.FOG_CFG_ACT 1
def wKeeper_w : State := wst [(SYS.IMG_STS_STATE, 1)]
def wKeeper_w1 : State := { (wst [(SYS.IMG_STS_STATE, 1), (SYS.IMG_SRC_SRC, 0x100100)]) with sys := { SysSt.reset with img := some (1, 256) } }
def wKeeper_w2 : State := { (wst [(SYS.IMG_STS_STATE, 1), (SYS.IMG_SRC_SRC, 0x100)]) with sys := { SysSt.reset with img := some (1, 256) } }
def wKeeper_w3 : State := { (wst [(SYS.IMG_STS_STATE, 1)]) with sys := { SysSt.reset with img := some (2, 0) } }
def wKeeper_w4 : State := { (wst [(SYS.IMG_STS_STATE, 1)]) with sys := { SysSt.reset with img := some (3, 0) } }
def wKeeper_w5 : State := wKeeper_w4.setFld SYS.IMG_STS_CHECKED 1
def wKeeper_w6 : State := { wKeeper_w3 with mram := wKeeper_im }

/-- States and operands that meet the hypotheses of Obligations.KeeperResults, clause by clause. -/
theorem test_witness_keeper_results :
    ((1900 < 2000) ∧ (wKeeper_z.power ≠ 4)) ∧
    ((1900 < 2000)) ∧
    ((2000 ≤ 2100) ∧ (2100 < 2200) ∧ (wKeeper_z.flag KEEPER.STS_VBAT_LOW = false)) ∧
    ((2200 ≤ 3000)) ∧
    ((wKeeper_z.flag KEEPER.STS_FOG_ARMED = false) ∧ (wKeeper_z.flag KEEPER.STS_FOG_BITE = false) ∧ (wKeeper_z.flag KEEPER.STS_VBAT_OK = true) ∧
      ((2147483748#32).getLsbD 31 = true) ∧ (bitsOf 2147483748 29 2 ≤ 1) ∧ (bitsOf 2147483748 16 12 < bitsOf 2147483748 0 12) ∧
      (wKeeper_z.keep.paused = false)) ∧
    ((wKeeper_z.fogOn = false)) ∧
    ((wKeeper_b.fogOn = true) ∧ (23235 =   match wKeeper_b.keep.fogKey with   | none => 23235   | some k => 65535 - k) ∧ (wKeeper_b.fld
      KEEPER.FOG_CFG_MIN * 1000000 ≤ wKeeper_b.fogAge)) ∧
    ((wKeeper_b.fogOn = true) ∧ ((5 ≠     match wKeeper_b.keep.fogKey with     | none => 23235     | some k => 65535 - k) ∨   wKeeper_b.fogAge <
      wKeeper_b.fld KEEPER.FOG_CFG_MIN * 1000000) ∧ (wKeeper_b.fld KEEPER.FOG_CFG_ACT ≠ 1)) ∧
    ((wKeeper_c.fogOn = true) ∧ ((5 ≠     match wKeeper_c.keep.fogKey with     | none => 23235     | some k => 65535 - k) ∨   wKeeper_c.fogAge <
      wKeeper_c.fld KEEPER.FOG_CFG_MIN * 1000000) ∧ (wKeeper_c.fld KEEPER.FOG_CFG_ACT = 1) ∧ (wKeeper_c.sys.phase = 2)) ∧
    ((wKeeper_b.fogOn = true) ∧ (wKeeper_b.keep.paused = false) ∧ (wKeeper_b.fld KEEPER.FOG_CFG_T * 1000000 ≤ (wKeeper_b.atTime
      200000000).fogAge) ∧ ((wKeeper_b.atTime 200000000).fogAge ≠ wKeeper_b.fld KEEPER.FOG_CFG_T * 1000000 ∨ wKeeper_b.gal.edge.due ≠
      (wKeeper_b.atTime 200000000).now) ∧ (wKeeper_b.fld KEEPER.FOG_CFG_ACT ≠ 1)) ∧
    ((wKeeper_c.fogOn = true) ∧ (wKeeper_c.keep.paused = false) ∧ (wKeeper_c.fld KEEPER.FOG_CFG_T * 1000000 ≤ (wKeeper_c.atTime
      200000000).fogAge) ∧ ((wKeeper_c.atTime 200000000).fogAge ≠ wKeeper_c.fld KEEPER.FOG_CFG_T * 1000000 ∨ wKeeper_c.gal.edge.due ≠
      (wKeeper_c.atTime 200000000).now) ∧ (wKeeper_c.fld KEEPER.FOG_CFG_ACT = 1)) ∧
    ((wKeeper_b.fogOn = true) ∧ (wKeeper_b.keep.paused = false) ∧ (wKeeper_b.keep.half = false) ∧ (wKeeper_b.fld KEEPER.FOG_CFG_T * 500000 ≤
      (wKeeper_b.atTime 200000000).fogAge)) ∧
    ((wKeeper_z.fld SYS.IMG_STS_STATE ≠ 1)) ∧
    ((wKeeper_w.fld SYS.IMG_STS_STATE = 1)) ∧
    ((wKeeper_w1.sys.img = some (1, 256)) ∧ (1 = 1) ∧ (256 % 256 = 0) ∧ (wKeeper_w1.fld SYS.IMG_SRC_SRC % 256 = 0) ∧ (1048576 ≤ wKeeper_w1.fld
      SYS.IMG_SRC_SRC)) ∧
    ((wKeeper_w2.sys.img = some (1, 256)) ∧ (1 = 1) ∧ (256 % 256 ≠ 0 ∨ wKeeper_w2.fld SYS.IMG_SRC_SRC % 256 ≠ 0 ∨ wKeeper_w2.fld SYS.IMG_SRC_SRC
      < 1048576)) ∧
    ((wKeeper_w6.sys.img = some (2, 0)) ∧ (2 = 2) ∧ (wKeeper_w6.bankOk (wKeeper_w6.fld SYS.IMG_STS_BANK) = true)) ∧
    ((wKeeper_w3.sys.img = some (2, 0)) ∧ (2 = 2) ∧ (wKeeper_w3.bankOk (wKeeper_w3.fld SYS.IMG_STS_BANK) = false)) ∧
    ((wKeeper_w4.sys.img = some (3, 0)) ∧ (3 = 3) ∧ (wKeeper_w4.flag SYS.IMG_STS_CHECKED = false)) ∧
    ((wKeeper_w5.sys.img = some (3, 0)) ∧ (3 = 3) ∧ (wKeeper_w5.flag SYS.IMG_STS_CHECKED = true)) := by
  refine ⟨?_, ?_, ?_, ?_, ?_, ?_, ?_, ?_, ?_, ?_, ?_, ?_, ?_, ?_, ?_, ?_, ?_, ?_, ?_, ?_⟩ <;> decide +kernel

/-! ### TimePairTraps -/

def wTimePairTraps_a : State := wrun [(1, 9#32)] []

/-- States and operands that meet the hypotheses of Obligations.TimePairTraps, clause by clause. -/
theorem test_witness_time_pair_traps :
    ((wTimePairTraps_a.runs 0) ∧ ((wTimePairTraps_a.lane 0).tc = 0) ∧ (¬(5 % 4 = 0 ∧ 4 ≤ 5 ∧ 5 ≤ 28))) ∧
    ((wTimePairTraps_a.runs 0) ∧ ((wTimePairTraps_a.lane 0).tc = 0) ∧ (¬(5 % 2 = 0 ∧ 2 ≤ 5 ∧ 5 ≤ 30))) ∧
    ((134218752 / 2 ^ 26 = 2) ∧ ((134218752#32).getLsbD 10 = true) ∧ (134218752 % 2 ^ 11 ≠ 1048) ∧ (134218752 % 2 ^ 11 ≠ 1049)) := by
  refine ⟨?_, ?_, ?_⟩ <;> decide +kernel

/-! ### Statements with hypotheses of another form -/

/-- A lane that is not in its tide, and one that waits (Obligations.IdleLaneExecutesNothing). -/
theorem test_witness_idle_lane :
    (laneOf (.add 0 1 2 3) = some 0 ∧ (State.reset.lane 0).run = false) ∧
    (laneOf (.rdsw 0 1) = some 0 ∧
      (({ State.reset with laneA := { LaneSt.reset with run := true, wait := some (.bell 1 0) } } : State).lane 0).wait ≠ none) := by
  decide +kernel

/-- A state in canonical form with a command in its queue, and the state after it (Obligations.EveryStepKeepsTheForm). -/
theorem test_witness_every_step :
    let s : State := { State.reset with pending := [.add 0 1 2 3] }
    s.Canon ∧ step s = .next State.reset ∧ mramFixed 0x10000 ∧ mramFixed 0xB00000 :=
  ⟨⟨by decide, by decide, by decide, by decide, by decide, ⟨by decide, by decide⟩, ⟨by decide, by decide⟩, ⟨by decide, by decide⟩,
    by decide, by decide⟩, rfl, Or.inl ⟨by decide, by decide⟩, Or.inr (by decide)⟩

/-- A map whose values are all one value answers it at each of its keys. -/
theorem mget_of_all {α : Type} (d : Nat → α) (v : α) (a : Nat) :
    ∀ m : List (Nat × α), (∀ p ∈ m, p.2 = v) → a ∈ m.map Prod.fst → mget d m a = v
  | [], _, h => by simp at h
  | (k, w) :: m, hv, h => by
    have hw : w = v := hv (k, w) (by simp)
    by_cases e : k = a
    · simp [mget, e, hw]
    · have : a ∈ m.map Prod.fst := by
        rcases List.mem_cons.mp h with h | h
        · exact absurd h.symm e
        · exact h
      simpa [mget, e] using mget_of_all d v a m (fun p hp => hv p (by simp [hp])) this

/-- A stepper table of one level (Obligations.DoorResults, the clause of TBL_SWAP). -/
def wDoor_tbl : State := { State.reset with regs := (List.range 1024).map fun i => (DOOR.STEP_TBL 1 i, 5#32) }

theorem test_witness_step_table :
    ∀ j, j < 1023 → wDoor_tbl.regN (DOOR.STEP_TBL 1 j) ≤ wDoor_tbl.regN (DOOR.STEP_TBL 1 (j + 1)) := by
  have h : ∀ i, i < 1024 → wDoor_tbl.regN (DOOR.STEP_TBL 1 i) = 5 := by
    intro i hi
    have : wDoor_tbl.reg (DOOR.STEP_TBL 1 i) = 5#32 :=
      mget_of_all _ _ _ _ (by simp [wDoor_tbl]) (by simpa [wDoor_tbl] using ⟨i, hi, rfl⟩)
    simp [State.regN, this]
  intro j hj
  have a := h j (by omega)
  have b := h (j + 1) (by omega)
  omega

end Sys2Proof.Tests
end

section
/-! The rules of the lanes that division and the register-pair traps rest on, and the two statements settled by them. -/

namespace Sys2Proof.Machine

/-! ### A plain result in a general register -/

/-- A command that writes one register and the status word of its lane, and passes on, completes with the flags that the word shows. -/
theorem State.runPure_putsG {s : State} {l : Lane} {f : LaneSt → LaneSt} {gd : GReg} {v sw : Word} {fs : List (Nat × Bool)} {c : Nat}
    (h : s.runs l) (hf : f (s.lane l) = { (s.lane l).wg gd.val v with sw := sw }.next c)
    (hsw : ∀ i, i < 32 → sw.getLsbD i = (fs.lookup i).getD ((s.lane l).sw.getLsbD i)) :
    s.putsG (done (s.runPure l f)) l gd v fs c := by
  refine ⟨{ (s.lane l).wg gd.val v with sw := sw }.next c, ?_, ?_, ?_, ?_, ?_⟩
  · rw [State.toLane, done, s.runPure_eq l f h, hf]
  · rw [Went, LaneSt.wg_eq]; rfl
  · exact fun r => (s.lane l).rg_wg gd.val r v
  · exact hsw
  · rw [LaneSt.wg_eq]; rfl

/-- Z, N and V of a result, and every other bit of the status word. -/
theorem getLsbD_swZNV (sw v : Word) (o : Bool) (i : Nat) (hi : i < 32) :
    (swV (swZN sw v) o).getLsbD i = ((zn v ++ [(3, o)]).lookup i).getD (sw.getLsbD i) := by
  rw [swV, getLsbD_swBit _ 3 i o (by omega) hi, getLsbD_swZN sw v i hi]
  match i with
  | 0 | 1 | 2 | 3 => rfl
  | n + 4 => simp [zn, List.lookup]

/-! ### Division (R71, R72) -/

/-- Whatever the operands, a division completes with the result and the V of its table: it never traps. -/
theorem State.division_putsG {s : State} {l : Lane} (gd gs gt : GReg) (f : Word → Word → Word × Bool) {v : Word} {o : Bool}
    (h : s.runs l) (hf : f (s.gv l gs) (s.gv l gt) = (v, o)) :
    s.putsG (done (s.division l gd gs gt f)) l gd v (zn v ++ [(3, o)]) 34 := by
  refine s.runPure_putsG h (sw := swV (swZN (s.lane l).sw v) o) ?_ fun i hi => getLsbD_swZNV _ v o i hi
  simp only [State.gv] at hf
  simp only [hf, LaneSt.flagsZNV]
  rw [LaneSt.wg_eq]

theorem divW_zero_of_pos {a : Word} (ha : 0 < a.toInt) : divW a 0 = (0x7FFFFFFF#32, true) := by
  have h0 : a ≠ 0#32 := by rintro rfl; simp at ha
  have hm : a.msb = false := by rw [BitVec.msb_eq_toInt]; simp; omega
  simp [divW, h0, hm]

theorem divW_zero_of_neg {a : Word} (ha : a.toInt < 0) : divW a 0 = (0x80000000#32, true) := by
  have h0 : a ≠ 0#32 := by rintro rfl; simp at ha
  have hm : a.msb = true := by rw [BitVec.msb_eq_toInt]; simpa using ha
  simp [divW, h0, hm]

theorem divuW_zero (a : Word) : divuW a 0 = (0xFFFFFFFF#32, true) := rfl

theorem remW_zero (a : Word) : remW a 0 = (a, true) := rfl

theorem remuW_zero (a : Word) : remuW a 0 = (a, true) := rfl

/-- Settles O10: each division completes with the pair of its table, which in an undefined case is the result of R72 with V = 1. -/
theorem undefinedDivisions : Obligations.UndefinedDivisions := by
  intro s l gd gs gt h a b gives
  have puts : ∀ (f : Word → Word → Word × Bool) {v o}, f a b = (v, o) →
      s.putsG (done (s.division l gd gs gt f)) l gd v (zn v ++ [(3, o)]) 34 :=
    fun f _ _ hf => State.division_putsG gd gs gt f h hf
  refine ⟨fun hb => ?_, fun ha hb => ?_, _, _, _, _, _, _, _, _, puts divW rfl, puts divuW rfl, puts remW rfl, puts remuW rfl⟩
  · rw [hb] at puts
    exact ⟨fun ha => puts divW (divW_zero_of_pos ha), fun ha => puts divW (by rw [ha]; rfl),
      fun ha => puts divW (divW_zero_of_neg ha), puts divuW (divuW_zero a), puts remW (remW_zero a), puts remuW (remuW_zero a)⟩
  · rw [ha, hb] at puts
    exact ⟨puts divW rfl, puts remW rfl⟩

/-! ### Taking a trap (R96, R97) -/

/-- Discarding the open group changes the staging and the status word alone. -/
theorem LaneSt.abortGroup_eq (x : LaneSt) :
    x.abortGroup = { x with stage := x.abortGroup.stage, sw := x.abortGroup.sw } := by
  unfold LaneSt.abortGroup; split <;> rfl

theorem LaneSt.abortGroup_opened (x : LaneSt) : x.abortGroup.stage.opened = none := by
  unfold LaneSt.abortGroup
  split
  · assumption
  · rfl

theorem LaneSt.abortGroup_closed (x : LaneSt) : x.abortGroup.stage.closed = x.stage.closed := by
  unfold LaneSt.abortGroup; split <;> rfl

/-- The cause written to the top four bits of the status word is read back from them. -/
theorem toNat_div_of_setTc (sw : Word) {tc : Nat} (htc : tc < 16) :
    ((sw &&& 0x0FFFFFFF#32) ||| BitVec.ofNat 32 (tc * 2 ^ 28)).toNat / 2 ^ 28 = tc := by
  have hlow : (sw &&& 0x0FFFFFFF#32).toNat / 2 ^ 28 = 0 :=
    Nat.div_eq_of_lt (by rw [BitVec.toNat_and]; exact Nat.lt_of_le_of_lt Nat.and_le_right (by decide))
  rw [BitVec.toNat_or, Nat.or_div_two_pow, hlow, BitVec.toNat_ofNat]
  simp; omega

/-- Charging the trap first, as the model does, leaves the discarding of the group as it is. -/
theorem LaneSt.abortGroup_tally (x : LaneSt) (t : Tally) : { x with tally := t }.abortGroup = { x.abortGroup with tally := t } := by
  cases h : x.stage.opened <;> simp [LaneSt.abortGroup, LaneSt.elem, h]

/-- The first trap of a tide, as one update of the lane whose group is discarded. -/
theorem LaneSt.trap_eq {x : LaneSt} (vec tc : Nat) (tv : Word) (c w : Nat) (h0 : x.tc = 0) :
    x.trap vec tc tv c w = { x.abortGroup with
      sw := (x.abortGroup.sw &&& 0x0FFFFFFF#32) ||| BitVec.ofNat 32 (tc * 2 ^ 28), tp := x.pc, tv := tv, pc := vec
      tally := { x.tally with
        cycles := x.tally.cycles + (c + 4), insts := x.tally.insts + 1, waitNs := x.tally.waitNs + w, traps := x.tally.traps + 1 } } := by
  refine (if_neg (not_not_intro h0)).trans ?_
  simp only [LaneSt.charge, LaneSt.abortGroup_tally]
  rw [LaneSt.abortGroup_eq]

/-- A lane that executes, with no trap before in its tide, takes a trap as R96 and R97 say. -/
theorem State.traps_setLane_trap {s : State} {l : Lane} {tc : Nat} (tv : Word) (c w : Nat) (h : s.runs l) (h0 : (s.lane l).tc = 0)
    (htc : tc < 16) : s.traps (done (s.setLane l ((s.lane l).trap s.img.trapvec tc tv c w))) l tc tv := by
  obtain ⟨hrun, -, -⟩ := h
  refine ⟨_, rfl, ?_⟩
  rw [LaneSt.trap_eq _ _ _ _ _ h0, LaneSt.abortGroup_eq]
  exact ⟨rfl, rfl, rfl, toNat_div_of_setTc _ htc, LaneSt.abortGroup_opened _, LaneSt.abortGroup_closed _, rfl, rfl, rfl, hrun, rfl⟩

/-- A command that touches only its lane and meets a trap there traps. -/
theorem State.runPure_traps {s : State} {l : Lane} {f : LaneSt → LaneSt} {tc : Nat} {tv : Word} {c : Nat} (h : s.runs l)
    (h0 : (s.lane l).tc = 0) (htc : tc < 16) (hf : f (s.lane l) = (s.lane l).trap s.img.trapvec tc tv c) :
    s.traps (done (s.runPure l f)) l tc tv := by
  rw [s.runPure_eq l f h, hf]
  exact State.traps_setLane_trap tv c 0 h h0 htc

/-! ### The registers of TNOW, TNOW.L and TEXT (R90) -/

theorem tripleReg_eq_true_iff (gd : Nat) : tripleReg gd = true ↔ gd % 4 = 0 ∧ 4 ≤ gd ∧ gd ≤ 28 := by
  simp [tripleReg, and_assoc]

theorem wordR_tnow (rd : Nat) : wordR 2 rd 0 0 0x18 = 0x08000018 + rd * 2 ^ 21 := by unfold wordR; omega

theorem wordR_tnowL (rd : Nat) : wordR 2 rd 0 0 0x418 = 0x08000418 + rd * 2 ^ 21 := by unfold wordR; omega

theorem wordR_text (rd rs : Nat) : wordR 2 rd rs 0 0x1A = 0x0800001A + rd * 2 ^ 21 + rs * 2 ^ 16 := by unfold wordR; omega

theorem exec_tnow_traps {s : State} {l : Lane} {gd : GReg} (h : s.runs l) (h0 : (s.lane l).tc = 0)
    (hgd : ¬(gd.val % 4 = 0 ∧ 4 ≤ gd.val ∧ gd.val ≤ 28)) :
    s.traps (exec (.tnow l gd) s) l 9 (BitVec.ofNat 32 (0x08000018 + gd.val * 2 ^ 21)) := by
  rw [← tripleReg_eq_true_iff] at hgd
  exact State.runPure_traps h h0 (by decide) (by rw [if_neg hgd, wordR_tnow]; rfl)

/-- TNOW.L captures live time before it looks at its registers: the trap is taken at the instant of the capture. -/
theorem exec_tnowL_traps {s : State} {l : Lane} {gd : GReg} (t frac waitNs : Nat) (h : s.runs l) (h0 : (s.lane l).tc = 0)
    (hgd : ¬(gd.val % 4 = 0 ∧ 4 ≤ gd.val ∧ gd.val ≤ 28)) :
    (s.atTime t).traps (exec (.tnowL l gd t frac waitNs) s) l 9 (BitVec.ofNat 32 (0x08000418 + gd.val * 2 ^ 21)) := by
  rw [← tripleReg_eq_true_iff] at hgd
  have hexec : exec (.tnowL l gd t frac waitNs) s = done ((s.atTime t).setLane l
      (((s.atTime t).lane l).trap (s.atTime t).img.trapvec tcRegPair (BitVec.ofNat 32 (0x08000418 + gd.val * 2 ^ 21)) 4 20)) := by
    change execTnowL l gd t frac waitNs s = _
    rw [execTnowL, s.runLane_eq l _ h, if_neg hgd, wordR_tnowL]
    rfl
  rw [hexec]
  exact State.traps_setLane_trap _ 4 20 h h0 (by decide)

theorem exec_text_traps {s : State} {l : Lane} {gd : GReg} (gs : GReg) (h : s.runs l) (h0 : (s.lane l).tc = 0)
    (hgd : ¬(gd.val % 2 = 0 ∧ 2 ≤ gd.val ∧ gd.val ≤ 30)) :
    s.traps (exec (.text l gd gs) s) l 9 (BitVec.ofNat 32 (0x0800001A + gd.val * 2 ^ 21 + gs.val * 2 ^ 16)) := by
  have heven : ¬(gd.val % 2 = 0 ∧ 2 ≤ gd.val) := by omega
  exact State.runPure_traps h h0 (by decide) (by rw [if_neg heven, wordR_text]; rfl)

/-! ### The L bit (R90) -/

/-- With the L bit in its FN, a word of OP 0x02 is legal for the FN codes of TNOW.L and TSHORT.L alone. -/
theorem legalOp2_eq_false_of_L {rd rs1 rs2 fn : Nat} (hL : 0x400 ≤ fn) (h18 : fn ≠ 0x418) (h19 : fn ≠ 0x419) :
    legalOp2 rd rs1 rs2 fn = false := by
  have hle : ∀ n, n < 0x400 → ¬fn ≤ n := by omega
  have hne : ∀ n, n < 0x400 → fn ≠ n := by omega
  simp [legalOp2, hle, hne, h18, h19]

theorem le_fn_of_getLsbD_ten {w : Word} (h : w.getLsbD 10 = true) : 0x400 ≤ bitsOf w.toNat 0 11 := by
  rw [BitVec.getLsbD, Nat.testBit_eq_decide_div_mod_eq, decide_eq_true_eq] at h
  unfold bitsOf
  omega

theorem legalWord_of_op2 {w : Word} (h : w.toNat / 2 ^ 26 = 2) :
    legalWord w = legalOp2 (bitsOf w.toNat 21 5) (bitsOf w.toNat 16 5) (bitsOf w.toNat 11 5) (bitsOf w.toNat 0 11) := by
  simp only [legalWord, h]
  rfl

/-- Settles O60: each of the three instructions answers the trap of a register it may not name, and an FN with the L bit of OP 0x02 other
than the two assigned ones is illegal. -/
theorem timePairTraps : Obligations.TimePairTraps := by
  refine ⟨fun s l gd gs t frac waitNs h h0 => ⟨fun hgd => ⟨exec_tnow_traps h h0 hgd, s.atTime t, ?_, ?_, ?_⟩, ?_⟩, ?_⟩
  · rfl
  · exact ⟨rfl, rfl, rfl, rfl, rfl, rfl, rfl⟩
  · exact exec_tnowL_traps t frac waitNs h h0 hgd
  · exact exec_text_traps gs h h0
  · intro w hop hbit h18 h19
    rw [legalWord_of_op2 hop]
    have hfn : bitsOf w.toNat 0 11 = w.toNat % 2 ^ 11 := by simp [bitsOf]
    exact legalOp2_eq_false_of_L (le_fn_of_getLsbD_ten hbit) (hfn ▸ h18) (hfn ▸ h19)

end Sys2Proof.Machine
end
